-- ==== Sys2Proof/Word.lean ====
section
/-! DEFINITION. The word types of the LZ-640 and the plainest arithmetic on them. -/

namespace Sys2Proof

/-- A byte of memory (00 R2). -/
abbrev Byte := BitVec 8
/-- A halfword of code (02 R14). -/
abbrev W16 := BitVec 16
/-- One lane of a vector register (09 R191). -/
abbrev W32 := BitVec 32
/-- A uniform register (08 R171). -/
abbrev W64 := BitVec 64
/-- A set of lanes of a gang, bit i for lane i (13 R287). -/
abbrev Mask := BitVec 32

end Sys2Proof
end

