-- ==== Sys2Proof/Syntax.lean ====
section
/-! DEFINITION. The instructions and events of the opcode table: one constructor of Instr for each row of
spec/opcode_table.json. Rows with an encoding carry the fields of their word (chapter 02); the other rows are the
indivisible events of the part's own agents and carry the names of what they act on. -/

namespace Sys2Proof

/-- An operand byte (02 Table 2-4): last use, prism, register number. -/
structure Opnd where
  last : Bool
  prism : Bool
  reg : BitVec 6
deriving DecidableEq, Repr

/-- Fault codes (00 Table 0-2). -/
inductive FaultCode where
  | illEnc | tagMismatch | misalign | s1Miss | s2Miss | perm | typeOp | rangeLock | bufBound | bufRights
  | claimDeadlock | vdnInvalid | fabricTimeout | uncorrData | checkFail | bkpt | trap | svc | queueFmt | hang | resource
deriving DecidableEq, Repr

/-- The kinds of NACK that a requester retries (05 Table 5-2). -/
inductive NackKind where
  | age | route | busy | auth
deriving DecidableEq, Repr

/-- The three levels of cache (04 Table 4-1). -/
inductive CacheLevel where
  | core | home | stack
deriving DecidableEq, Repr

/-- What the sideband port can read (16 R363). -/
inductive MctpItem where
  | temperature | power | linkState | sharedCounter (func index : Nat)
deriving DecidableEq, Repr

/-- Kinds of fabric request (05 R118 to R126, 06 R133, 03 R74). -/
inductive PktKind where
  | read | store | strel | atom | atomr | cas | rstrel | rstarv | rfence | copyRead | copyWrite | reduce | close
deriving DecidableEq, Repr

/-- Virtual channels of requests (05 Table 5-1). -/
inductive Chan where
  | minimal | detour
deriving DecidableEq, Repr

/-- A fabric request as it travels. Header: route, age, kind, key slot, function, generation (05 R115).
The key is the one it was sealed under (none when its slot was empty). -/
structure Packet where
  kind : PktKind
  src : Nat
  core : Nat
  req : Nat
  dst : Nat
  func : Nat
  kslot : Nat
  gen : Nat
  key : Option (BitVec 256)
  nonce : Nat
  age : Nat
  chan : Chan
  via : Option Nat
  gpa : Nat
  size : Nat
  data : BitVec 128
  cmp : W64
  op : Nat
  rtype : Nat
  wide : Bool
  scope : Nat
  launch : Nat
  team : Nat
  gang : Nat
  lane : Nat
  seg : Nat
  count : Nat
  group : Nat
  poison : Bool
deriving DecidableEq, Repr

/-- Where an answer goes (05 Table 5-1): the devices it goes to and comes from, the requester's core and entry. -/
structure ReplyTo where
  dst : Nat
  src : Nat
  core : Nat
  req : Nat
deriving DecidableEq, Repr

/-- What an answer is sealed with (05 R115): the key slot, function and generation, the key, and the nonce. -/
structure Seal where
  kslot : Nat
  func : Nat
  gen : Nat
  key : Option (BitVec 256)
  nonce : Nat
deriving DecidableEq, Repr

/-- The header of an answer. -/
structure Reply extends ReplyTo, Seal
deriving DecidableEq, Repr

/-- The instructions and events of spec/opcode_table.json. -/
inductive Instr where
  /-- CLAUSE_HEADER (R19). -/
  | clauseHeader (w : BitVec 12) (a : BitVec 4) (b : BitVec 4) (p : BitVec 8)
  /-- PRED (R32). -/
  | pred (p : BitVec 3) (n : Bool)
  /-- NOP_C (R33). -/
  | nopC
  /-- MOV_C (R31). -/
  | movC (d : BitVec 5) (b : BitVec 5)
  /-- IADD_C (R31). -/
  | iaddC (d : BitVec 5) (b : BitVec 5)
  /-- ISUB_C (R31). -/
  | isubC (d : BitVec 5) (b : BitVec 5)
  /-- IMUL_C (R31). -/
  | imulC (d : BitVec 5) (b : BitVec 5)
  /-- AND_C (R31). -/
  | andC (d : BitVec 5) (b : BitVec 5)
  /-- OR_C (R31). -/
  | orC (d : BitVec 5) (b : BitVec 5)
  /-- XOR_C (R31). -/
  | xorC (d : BitVec 5) (b : BitVec 5)
  /-- SHL_C (R31). -/
  | shlC (d : BitVec 5) (b : BitVec 5)
  /-- SHR_C (R31). -/
  | shrC (d : BitVec 5) (b : BitVec 5)
  /-- IMIN_C (R31). -/
  | iminC (d : BitVec 5) (b : BitVec 5)
  /-- IMAX_C (R31). -/
  | imaxC (d : BitVec 5) (b : BitVec 5)
  /-- FADD_C (R31). -/
  | faddC (d : BitVec 5) (b : BitVec 5)
  /-- FSUB_C (R31). -/
  | fsubC (d : BitVec 5) (b : BitVec 5)
  /-- FMUL_C (R31). -/
  | fmulC (d : BitVec 5) (b : BitVec 5)
  /-- FMIN_C (R31). -/
  | fminC (d : BitVec 5) (b : BitVec 5)
  /-- FMAX_C (R31). -/
  | fmaxC (d : BitVec 5) (b : BitVec 5)
  /-- BRA (R294). -/
  | bra (o : BitVec 22)
  /-- CALL (R294). -/
  | call (o : BitVec 22)
  /-- BRX (R294). -/
  | brx (a : Opnd)
  /-- RET (R294). -/
  | ret (a : Opnd)
  /-- RECONV (R296). -/
  | reconv
  /-- RECONV_TRY (R296). -/
  | reconvTry
  /-- YIELD (R296). -/
  | yield
  /-- EXIT (R306). -/
  | exit (a : Opnd) (n : BitVec 8)
  /-- WAITF (R296). -/
  | waitf (m : BitVec 12)
  /-- REGION (R297). -/
  | region (d : BitVec 6) (a : Opnd)
  /-- REGION_ALL (R297). -/
  | regionAll
  /-- STEP (R296). -/
  | step
  /-- RNGNEXT (R299). -/
  | rngnext (d : BitVec 6)
  /-- NOP (R296). -/
  | nop
  /-- TRAP (R319). -/
  | trap (a : Opnd) (i : BitVec 8)
  /-- SVC (R320). -/
  | svc (d : BitVec 6) (a : Opnd) (i : BitVec 8)
  /-- BKPT (R319). -/
  | bkpt (i : BitVec 8)
  /-- BARINIT (R302). -/
  | barinit (d : BitVec 6) (a : Opnd)
  /-- BARARV (R302). -/
  | bararv (d : BitVec 6)
  /-- BARWAIT (R302). -/
  | barwait (d : BitVec 6)
  /-- BARSYNC (R302). -/
  | barsync (d : BitVec 6)
  /-- BAREXP (R302). -/
  | barexp (d : BitVec 6) (a : Opnd)
  /-- CVSET (R304). -/
  | cvset (d : BitVec 6) (n : BitVec 8)
  /-- CVSIGN (R304). -/
  | cvsign (d : BitVec 6)
  /-- BATONACQ (R305). -/
  | batonacq (t : Bool)
  /-- BATONREL (R305). -/
  | batonrel (t : Bool)
  /-- MOV (R187). -/
  | mov (d : BitVec 6) (a : Opnd)
  /-- MOVI (R187). -/
  | movi (d : BitVec 6) (i : BitVec 16)
  /-- MOVHI (R187). -/
  | movhi (d : BitVec 6) (i : BitVec 16)
  /-- SMOV (R187). -/
  | smov (d : BitVec 6) (a : Opnd)
  /-- SMOV_LPA (R187). -/
  | smovLpa (a : Opnd)
  /-- SMOV_LPB (R187). -/
  | smovLpb (a : Opnd)
  /-- SMOV_RDLPA (R187). -/
  | smovRdlpa (d : BitVec 6)
  /-- SMOV_RDLPB (R187). -/
  | smovRdlpb (d : BitVec 6)
  /-- SMOVI (R187). -/
  | smovi (d : BitVec 6) (i : BitVec 16)
  /-- S2V (R187). -/
  | s2v (d : BitVec 6) (a : Opnd) (g : BitVec 4)
  /-- V2S (R187). -/
  | v2s (d : BitVec 6) (a : Opnd) (l : BitVec 5) (p : Bool)
  /-- SETLANE (R187). -/
  | setlane (d : BitVec 6) (a : Opnd) (l : BitVec 5) (p : Bool)
  /-- TAGSET (R187). -/
  | tagset (d : BitVec 6) (a : Opnd) (g : BitVec 4)
  /-- TAGRD (R187). -/
  | tagrd (d : BitVec 6) (a : Opnd)
  /-- SPRD (R190). -/
  | sprd (d : BitVec 6) (k : BitVec 8) (n : BitVec 8)
  /-- SPWR (R187). -/
  | spwr (a : Opnd) (n : BitVec 8)
  /-- REGCLAIM (R188). -/
  | regclaim (n : BitVec 7) (c : Bool)
  /-- REGREL (R188). -/
  | regrel (n : BitVec 7) (c : Bool)
  /-- FREE (R189). -/
  | free (a : Opnd) (c : Bool)
  /-- QSWAPX (R228). -/
  | qswapx (d : BitVec 6) (a : Opnd)
  /-- QSWAPY (R228). -/
  | qswapy (d : BitVec 6) (a : Opnd)
  /-- QSWAPD (R228). -/
  | qswapd (d : BitVec 6) (a : Opnd)
  /-- QBCAST (R228). -/
  | qbcast (d : BitVec 6) (a : Opnd) (j : BitVec 2)
  /-- SHFL (R229). -/
  | shfl (d : BitVec 6) (a : Opnd) (b : Opnd)
  /-- VOTE (R230). -/
  | vote (d : BitVec 6) (p : BitVec 3) (n : Bool) (m : BitVec 8)
  /-- MATCH (R231). -/
  | matchLanes (d : BitVec 6) (a : Opnd) (w : Bool)
  /-- IADD (R220). -/
  | iadd (d : BitVec 6) (a : Opnd) (b : Opnd)
  /-- ISUB (R220). -/
  | isub (d : BitVec 6) (a : Opnd) (b : Opnd)
  /-- IMUL (R220). -/
  | imul (d : BitVec 6) (a : Opnd) (b : Opnd)
  /-- IMULHI (R220). -/
  | imulhi (d : BitVec 6) (a : Opnd) (b : Opnd)
  /-- IMAD (R220). -/
  | imad (d : BitVec 6) (a : Opnd) (b : Opnd)
  /-- IADDC (R221). -/
  | iaddc (d : BitVec 6) (a : Opnd) (b : Opnd)
  /-- ISUBB (R221). -/
  | isubb (d : BitVec 6) (a : Opnd) (b : Opnd)
  /-- IMIN (R220). -/
  | imin (d : BitVec 6) (a : Opnd) (b : Opnd)
  /-- IMAX (R220). -/
  | imax (d : BitVec 6) (a : Opnd) (b : Opnd)
  /-- UMIN (R220). -/
  | umin (d : BitVec 6) (a : Opnd) (b : Opnd)
  /-- UMAX (R220). -/
  | umax (d : BitVec 6) (a : Opnd) (b : Opnd)
  /-- AND (R220). -/
  | and (d : BitVec 6) (a : Opnd) (b : Opnd)
  /-- OR (R220). -/
  | or (d : BitVec 6) (a : Opnd) (b : Opnd)
  /-- XOR (R220). -/
  | xor (d : BitVec 6) (a : Opnd) (b : Opnd)
  /-- ANDN (R220). -/
  | andn (d : BitVec 6) (a : Opnd) (b : Opnd)
  /-- SHL (R221). -/
  | shl (d : BitVec 6) (a : Opnd) (b : Opnd)
  /-- SHR (R221). -/
  | shr (d : BitVec 6) (a : Opnd) (b : Opnd)
  /-- SAR (R221). -/
  | sar (d : BitVec 6) (a : Opnd) (b : Opnd)
  /-- ROTL (R221). -/
  | rotl (d : BitVec 6) (a : Opnd) (b : Opnd)
  /-- BFE (R221). -/
  | bfe (d : BitVec 6) (a : Opnd) (b : Opnd)
  /-- BFI (R221). -/
  | bfi (d : BitVec 6) (a : Opnd) (b : Opnd)
  /-- LEA (R220). -/
  | lea (d : BitVec 6) (a : Opnd) (b : Opnd)
  /-- ISET (R221). -/
  | iset (d : BitVec 6) (a : Opnd) (b : Opnd)
  /-- SEL (R220). -/
  | sel (d : BitVec 6) (a : Opnd) (b : Opnd)
  /-- PSET (R222). -/
  | pset (p : BitVec 3) (c : BitVec 3) (a : Opnd) (b : Opnd)
  /-- IDOT4 (R220). -/
  | idot4 (d : BitVec 6) (a : Opnd) (b : Opnd)
  /-- IADDI (R220). -/
  | iaddi (d : BitVec 6) (a : Opnd) (i : BitVec 8)
  /-- SHLI (R221). -/
  | shli (d : BitVec 6) (a : Opnd) (i : BitVec 8)
  /-- SHRI (R221). -/
  | shri (d : BitVec 6) (a : Opnd) (i : BitVec 8)
  /-- ISETI (R221). -/
  | iseti (d : BitVec 6) (a : Opnd) (i : BitVec 8)
  /-- INEG (R220). -/
  | ineg (d : BitVec 6) (a : Opnd)
  /-- IABS (R220). -/
  | iabs (d : BitVec 6) (a : Opnd)
  /-- NOT (R220). -/
  | not (d : BitVec 6) (a : Opnd)
  /-- POPC (R220). -/
  | popc (d : BitVec 6) (a : Opnd)
  /-- CLZ (R220). -/
  | clz (d : BitVec 6) (a : Opnd)
  /-- BREV (R220). -/
  | brev (d : BitVec 6) (a : Opnd)
  /-- FADD (R223). -/
  | fadd (d : BitVec 6) (a : Opnd) (b : Opnd)
  /-- FSUB (R223). -/
  | fsub (d : BitVec 6) (a : Opnd) (b : Opnd)
  /-- FMUL (R223). -/
  | fmul (d : BitVec 6) (a : Opnd) (b : Opnd)
  /-- FFMA (R223). -/
  | ffma (d : BitVec 6) (a : Opnd) (b : Opnd)
  /-- FMIN (R224). -/
  | fmin (d : BitVec 6) (a : Opnd) (b : Opnd)
  /-- FMAX (R224). -/
  | fmax (d : BitVec 6) (a : Opnd) (b : Opnd)
  /-- FSET (R222). -/
  | fset (p : BitVec 3) (c : BitVec 3) (a : Opnd) (b : Opnd)
  /-- FSCALE (R223). -/
  | fscale (d : BitVec 6) (a : Opnd) (b : Opnd)
  /-- FDOT2 (R223). -/
  | fdot2 (d : BitVec 6) (a : Opnd) (b : Opnd)
  /-- FABS (R223). -/
  | fabs (d : BitVec 6) (a : Opnd)
  /-- FNEG (R223). -/
  | fneg (d : BitVec 6) (a : Opnd)
  /-- FRCP (R225). -/
  | frcp (d : BitVec 6) (a : Opnd)
  /-- FRSQ (R225). -/
  | frsq (d : BitVec 6) (a : Opnd)
  /-- FSQRT (R225). -/
  | fsqrt (d : BitVec 6) (a : Opnd)
  /-- FEXP2 (R225). -/
  | fexp2 (d : BitVec 6) (a : Opnd)
  /-- FLOG2 (R225). -/
  | flog2 (d : BitVec 6) (a : Opnd)
  /-- FSIN (R225). -/
  | fsin (d : BitVec 6) (a : Opnd)
  /-- FCOS (R225). -/
  | fcos (d : BitVec 6) (a : Opnd)
  /-- FTANH (R225). -/
  | ftanh (d : BitVec 6) (a : Opnd)
  /-- FRND (R226). -/
  | frnd (d : BitVec 6) (a : Opnd) (f : BitVec 8)
  /-- FCLASS (R226). -/
  | fclass (d : BitVec 6) (a : Opnd)
  /-- CVT (R204). -/
  | cvt (d : BitVec 6) (a : Opnd) (r : BitVec 3) (g : BitVec 4)
  /-- CVTS (R208). -/
  | cvts (d : BitVec 6) (a : Opnd) (b : Opnd)
  /-- DEQ (R209). -/
  | deq (d : BitVec 6) (a : Opnd) (b : Opnd)
  /-- PACK (R206). -/
  | pack (d : BitVec 6) (a : Opnd) (b : Opnd)
  /-- UNPACK (R205). -/
  | unpack (d : BitVec 6) (a : Opnd) (j : BitVec 2)
  /-- LD (R92). -/
  | ld (d : BitVec 6) (s : BitVec 6) (w : BitVec 2) (a : Opnd)
  /-- ST (R92). -/
  | st (d : BitVec 6) (s : BitVec 6) (w : BitVec 2) (a : Opnd)
  /-- LDACQ (R93). -/
  | ldacq (d : BitVec 6) (s : BitVec 6) (c : BitVec 2) (a : Opnd)
  /-- STREL (R93). -/
  | strel (d : BitVec 6) (s : BitVec 6) (c : BitVec 2) (a : Opnd)
  /-- SLD (R92). -/
  | sld (d : BitVec 6) (s : BitVec 6) (w : BitVec 2) (a : Opnd)
  /-- SST (R92). -/
  | sst (d : BitVec 6) (s : BitVec 6) (w : BitVec 2) (a : Opnd)
  /-- ATOM (R98). -/
  | atom (d : BitVec 6) (a : Opnd) (o : BitVec 3) (c : BitVec 3) (w : BitVec 2)
  /-- ATOMR (R98). -/
  | atomr (d : BitVec 6) (a : Opnd) (o : BitVec 3) (c : BitVec 3) (w : BitVec 2)
  /-- CAS (R98). -/
  | cas (d : BitVec 6) (a : Opnd) (c : BitVec 3) (w : BitVec 2)
  /-- PREF (R99). -/
  | pref (h : Bool) (s : BitVec 6) (a : Opnd)
  /-- FENCE (R277). -/
  | fence (c : BitVec 3) (k : BitVec 2)
  /-- CFLUSH (R100). -/
  | cflush (s : BitVec 6) (a : Opnd)
  /-- CINV (R100). -/
  | cinv (s : BitVec 6) (a : Opnd)
  /-- TFENCE (R74). -/
  | tfence (a : Opnd) (c : BitVec 3)
  /-- TFENCE_ALL (R74). -/
  | tfenceAll (c : BitVec 3)
  /-- RSTREL (R124). -/
  | rstrel (d : BitVec 6) (s : BitVec 6) (w : BitVec 2) (a : Opnd)
  /-- RSTARV (R124). -/
  | rstarv (d : BitVec 6) (s : BitVec 6) (w : BitVec 2) (a : Opnd)
  /-- RFENCE (R126). -/
  | rfence (d : BitVec 6) (a : Opnd) (w : Bool)
  /-- CPY (R142). -/
  | cpy (s : BitVec 6) (r : BitVec 5) (o : Bool)
  /-- CPYR (R142). -/
  | cpyr (s : BitVec 6) (r : BitVec 5) (o : Bool)
  /-- CPYM (R142). -/
  | cpym (s : BitVec 6) (r : BitVec 5) (o : Bool)
  /-- CPYT (R144). -/
  | cpyt (o : BitVec 6) (a : Opnd) (n : BitVec 5) (g : BitVec 3)
  /-- CPYWAIT (R146). -/
  | cpywait (m : BitVec 8)
  /-- CPYQ (R151). -/
  | cpyq (d : BitVec 6) (a : Opnd) (c : BitVec 3) (n : Bool)
  /-- CPYSTAT_COUNT (R146). -/
  | cpystatCount (d : BitVec 6)
  /-- CPYSTAT_BITMAP (R146). -/
  | cpystatBitmap (d : BitVec 6)
  /-- CPYSTAT_TAGS (R146). -/
  | cpystatTags (d : BitVec 6)
  /-- CPYCAN (R146). -/
  | cpycan (d : BitVec 6) (a : Opnd)
  /-- CPYCAN_ALL (R146). -/
  | cpycanAll (d : BitVec 6)
  /-- TDEF (R160). -/
  | tdef (d : BitVec 6) (a : Opnd)
  /-- TLD (R169). -/
  | tld (d : BitVec 6) (t : BitVec 4) (f : BitVec 4) (a : Opnd)
  /-- TST (R169). -/
  | tst (d : BitVec 6) (t : BitVec 4) (f : BitVec 4) (a : Opnd)
  /-- TLDC (R169). -/
  | tldc (d : BitVec 6) (t : BitVec 4) (f : BitVec 4) (a : Opnd)
  /-- TARM (R170). -/
  | tarm (t : BitVec 4) (a : Opnd)
  /-- TWAIT (R170). -/
  | twait (t : BitVec 4)
  /-- TTEST (R170). -/
  | ttest (d : BitVec 6) (t : BitVec 4)
  /-- TCLR (R170). -/
  | tclr (t : BitVec 4)
  /-- TFILL (R170). -/
  | tfill (t : BitVec 4) (a : Opnd)
  /-- TZERO (R170). -/
  | tzero (t : BitVec 4)
  /-- SCLD (R169). -/
  | scld (d : BitVec 6) (t : BitVec 4) (a : Opnd)
  /-- MMA (R244). -/
  | mma (k : BitVec 3) (c : BitVec 3) (a : BitVec 4) (b : BitVec 4) (m : BitVec 2)
  /-- MMAG (R244). -/
  | mmag (k : BitVec 3) (c : BitVec 3) (a : BitVec 4) (b : BitVec 4) (x : BitVec 6) (m : BitVec 2)
  /-- MMAS (R244). -/
  | mmas (k : BitVec 3) (c : BitVec 3) (a : BitVec 4) (b : BitVec 4) (m : BitVec 2)
  /-- MMAGS (R244). -/
  | mmags (k : BitVec 3) (c : BitVec 3) (a : BitVec 4) (b : BitVec 4) (x : BitVec 6) (m : BitVec 2)
  /-- MZERO (R249). -/
  | mzero (k : BitVec 3) (m : BitVec 2)
  /-- MRD (R251). -/
  | mrd (d : BitVec 6) (t : BitVec 4) (f : BitVec 4) (a : Opnd)
  /-- MWR (R251). -/
  | mwr (d : BitVec 6) (t : BitVec 4) (f : BitVec 4) (a : Opnd)
  /-- MSTORE (R253). -/
  | mstore (k : BitVec 3)
  /-- MPROG_WRITE (R252). -/
  | mprogWrite (a : Opnd) (w : BitVec 3)
  /-- MPROG_READ (R252). -/
  | mprogRead (d : BitVec 6) (w : BitVec 3)
  /-- ENTRY_PROMOTION (R290). -/
  | entryPromotion (launch : Nat) (team : Nat) (gang : Nat) (eid : Nat)
  /-- POLLING_RETEST (R164). -/
  | pollingRetest (launch : Nat) (team : Nat) (gang : Nat) (eid : Nat)
  /-- WALK_START (R72). -/
  | walkStart (die : Nat)
  /-- WALK_COMPLETE (R68). -/
  | walkComplete (die : Nat) (id : Nat)
  /-- SECTOR_FILL (R82). -/
  | sectorFill (core : Nat) (id : Nat)
  /-- MEMORY_RETURN_COMPLETE (R22). -/
  | memoryReturnComplete (launch : Nat) (team : Nat) (gang : Nat) (id : Nat)
  /-- STORE_QUEUE_DRAIN (R81). -/
  | storeQueueDrain (launch : Nat) (team : Nat) (gang : Nat)
  /-- STORE_ACK (R81). -/
  | storeAck (launch : Nat) (team : Nat) (gang : Nat)
  /-- DIRTY_LINE_WRITEBACK (R83). -/
  | dirtyLineWriteback (core : Nat) (line : Nat)
  /-- DIRTY_LINE_AGE_EXPIRY (R83). -/
  | dirtyLineAgeExpiry (core : Nat) (line : Nat)
  /-- CACHE_EVICTION (R83). -/
  | cacheEviction (core : Nat) (line : Nat)
  /-- HOME_WRITEBACK (R78). -/
  | homeWriteback (line : Nat)
  /-- WAY_REDUCTION_LINE (R86). -/
  | wayReductionLine (func : Nat) (stack : Bool) (line : Nat)
  /-- WAY_REDUCTION_COMPLETE (R86). -/
  | wayReductionComplete (func : Nat)
  /-- ROUTER_PACKET (R109). -/
  | routerPacket (k : Nat)
  /-- RSTREL_PERFORM (R119). -/
  | rstrelPerform (src : Nat) (launch : Nat) (team : Nat) (gang : Nat)
  /-- FABRIC_RETRY_TIMER (R111). -/
  | fabricRetryTimer (core : Nat) (id : Nat)
  /-- FABRIC_ATTEMPT_TIMEOUT (R111). -/
  | fabricAttemptTimeout (core : Nat) (id : Nat)
  /-- COPY_ELEMENT_LAND (R133). -/
  | copyElementLand (core : Nat) (id : Nat) (chunk : Nat)
  /-- COPY_COMPLETE (R140). -/
  | copyComplete (core : Nat) (id : Nat)
  /-- CPYT_COMPLETE (R144). -/
  | cpytComplete (core : Nat) (id : Nat)
  /-- MATRIX_OP_START (R241). -/
  | matrixOpStart (core : Nat) (id : Nat)
  /-- MATRIX_K_STEP (R247). -/
  | matrixKStep (core : Nat) (id : Nat)
  /-- MATRIX_OP_COMPLETE (R244). -/
  | matrixOpComplete (core : Nat) (id : Nat)
  /-- POOL_GRANT (R181). -/
  | poolGrant (core : Nat) (uni : Bool)
  /-- QUEUE_NOP (R150). -/
  | queueNop (func : Nat) (page : Nat)
  /-- QUEUE_LAUNCH (R278). -/
  | queueLaunch (func : Nat) (page : Nat)
  /-- QUEUE_COPY (R129). -/
  | queueCopy (func : Nat) (page : Nat) (core : Nat)
  /-- QUEUE_WAITTILE (R284). -/
  | queueWaittile (func : Nat) (page : Nat)
  /-- QUEUE_WAITVAL (R285). -/
  | queueWaitval (func : Nat) (page : Nat)
  /-- WAITVAL_POLL (R285). -/
  | waitvalPoll (func : Nat) (page : Nat)
  /-- QUEUE_SIGNAL (R150). -/
  | queueSignal (func : Nat) (page : Nat)
  /-- QUEUE_FENCEMARK (R150). -/
  | queueFencemark (func : Nat) (page : Nat)
  /-- CLUSTER_PLACEMENT (R282). -/
  | clusterPlacement (launch : Nat) (bay : Nat) (cores : List Nat)
  /-- RANGE_SPLIT (R286). -/
  | rangeSplit (launch : Nat) (core : Nat)
  /-- TEAM_EXIT_RELEASE (R310). -/
  | teamExitRelease (launch : Nat) (team : Nat)
  /-- SUCCESSOR_LIST_READ (R307). -/
  | successorListRead (launch : Nat) (team : Nat)
  /-- LAUNCH_COMPLETE (R283). -/
  | launchComplete (launch : Nat)
  /-- PREEMPTION (R321). -/
  | preemption (func : Nat)
  /-- QUIESCENCE_REACHED (R322). -/
  | quiescenceReached (func : Nat)
  /-- CLUSTER_ROLLBACK (R331). -/
  | clusterRollback (launch : Nat) (cluster : Nat) (bay : Nat)
  /-- WATCHDOG_HANG (R334). -/
  | watchdogHang (func : Nat)
  /-- PARTITION_RESET (R334). -/
  | partitionReset (func : Nat) (cause : Nat)
  /-- INVALIDATION_COMPLETE (R75). -/
  | invalidationComplete (func : Nat)
  /-- PRECOPY_ROUND (R343). -/
  | precopyRound (func : Nat)
  /-- STOP_PHASE (R346). -/
  | stopPhase (func : Nat)
  /-- MIRROR_WINDOW_EXPIRY (R351). -/
  | mirrorWindowExpiry (func : Nat)
  /-- CHECKPOINT_CAPTURE (R352). -/
  | checkpointCapture (func : Nat)
  /-- CHECKPOINT_PARTIAL_TIMEOUT (R352). -/
  | checkpointPartialTimeout (func : Nat)
  /-- CHECKPOINT_TIMER (R353). -/
  | checkpointTimer (func : Nat)
  /-- ZERO_LENGTH_READ_COMPLETION (R277). -/
  | zeroLengthReadCompletion (launch : Nat) (team : Nat) (gang : Nat)
  /-- PAGE_REPLY_RETRY (R316). -/
  | pageReplyRetry (owner : Nat) (id : Nat)
  /-- PAGE_REPLY_REFUSE (R316). -/
  | pageReplyRefuse (owner : Nat) (id : Nat)
  /-- PATROL_SCRUB (R60). -/
  | patrolScrub (sector : Nat)
  /-- LINK_DOWN (R104). -/
  | linkDown (port : Nat)
  /-- FABRIC_READ (R121). -/
  | fabricRead (p : Packet)
  /-- FABRIC_STORE (R118). -/
  | fabricStore (p : Packet)
  /-- FABRIC_ATOMIC (R121). -/
  | fabricAtomic (p : Packet)
  /-- FABRIC_RSTREL (R119). -/
  | fabricRstrel (p : Packet)
  /-- FABRIC_RSTARV (R124). -/
  | fabricRstarv (p : Packet)
  /-- FABRIC_REDUCING_WRITE (R117). -/
  | fabricReducingWrite (p : Packet)
  /-- FABRIC_CLOSE_PACKET (R120). -/
  | fabricClosePacket (p : Packet)
  /-- FABRIC_OK (R110). -/
  | fabricOk (r : ReplyTo) (k : Seal) (data : BitVec 256) (poison : Bool)
  /-- FABRIC_NACK (R111). -/
  | fabricNack (r : ReplyTo) (k : Seal) (kind : NackKind)
  /-- NACK_MOVED (R114). -/
  | nackMoved (r : ReplyTo) (k : Seal)
  /-- FABRIC_FAULT (R124). -/
  | fabricFault (r : ReplyTo) (k : Seal) (code : FaultCode) (detail : W64)
  /-- TLB_INVALIDATION_MESSAGE (R74). -/
  | tlbInvalidationMessage (src : Nat) (id : Nat) (func : Nat) (all : Bool) (page : Nat)
  /-- TLB_INVALIDATION_ACK (R74). -/
  | tlbInvalidationAck (id : Nat) (dev : Nat)
  /-- DOORBELL_WRITE (R359). -/
  | doorbellWrite (func : Nat) (page : Nat)
  /-- FAULT_RECORD_WRITE (R314). -/
  | faultRecordWrite
  /-- TEAM_RESUME (R366). -/
  | teamResume (func : Nat) (value : W64)
  /-- SVC_REPLY_SEQ (R366). -/
  | svcReplySeq (func : Nat) (value : W64)
  /-- SVC_REPLY_VALUE (R366). -/
  | svcReplyValue (func : Nat) (value : W64)
  /-- IMAGE_RESTORE (R329). -/
  | imageRestore (func : Nat) (image : List Byte) (bays : List Nat)
  /-- TAG_PARITY_ERROR (R338). -/
  | tagParityError (level : CacheLevel) (unit : Nat) (line : Nat)
  /-- THERMAL_THROTTLE (R362). -/
  | thermalThrottle
  /-- THERMAL_SHUTDOWN (R362). -/
  | thermalShutdown
  /-- BRING_UP (R361). -/
  | bringUp
  /-- FIRMWARE_LOAD (R360). -/
  | firmwareLoad (image : List Byte) (sig : BitVec 512)
  /-- ATTESTATION_REQUEST (R360). -/
  | attestationRequest (func : Nat) (nonce : BitVec 256)
  /-- HOST_WINDOW_READ (R381). -/
  | hostWindowRead (func : Nat) (off : Nat) (n : Nat)
  /-- HOST_WINDOW_WRITE (R381). -/
  | hostWindowWrite (func : Nat) (off : Nat) (bytes : List Byte)
  /-- MCTP_READ (R363). -/
  | mctpRead (what : MctpItem)
  /-- REGISTER_WRITE (R358). -/
  | registerWrite (win : Nat) (off : Nat) (value : W64)
  /-- RING_SETUP (R365). -/
  | ringSetup (win : Nat) (func : Nat) (ring : Nat) (value : W64)
  /-- RING_READ_INDEX_WRITE (R365). -/
  | ringReadIndexWrite (func : Nat) (ring : Nat) (value : W64)
  /-- ERRCNT_CLEAR (R339). -/
  | errcntClear (func : Nat) (index : Nat) (value : W64)
  /-- STATUS_CLEAR (R358). -/
  | statusClear (func : Nat) (value : W64)
  /-- QUEUE_UNBIND (R367). -/
  | queueUnbind (func : Nat) (page : Nat)
  /-- QUEUE_BIND (R367). -/
  | queueBind (func : Nat) (page : Nat)
  /-- QUEUE_SELECT (R367). -/
  | queueSelect (func : Nat) (page : Nat)
  /-- QUEUE_RESTART (R367). -/
  | queueRestart (func : Nat) (page : Nat)
  /-- CONFIG_WRITE (R369). -/
  | configWrite (win : Nat) (func : Nat) (off : Nat) (value : W64)
  /-- STAGE2_INVALIDATE (R368). -/
  | stage2Invalidate (func : Nat) (value : W64)
  /-- GRID_WRITE (R371). -/
  | gridWrite (value : W64)
  /-- MIGRATE_START (R342). -/
  | migrateStart (func : Nat)
  /-- MIGRATE_STOP (R345). -/
  | migrateStop (func : Nat)
  /-- MIGRATE_FORCE_STOP (R345). -/
  | migrateForceStop (func : Nat)
  /-- MIGRATE_ABANDON (R370). -/
  | migrateAbandon (func : Nat)
  /-- MIGRATE_RECEIVE (R342). -/
  | migrateReceive (func : Nat)
  /-- CHECKPOINT_AT_STEP (R352). -/
  | checkpointAtStep (func : Nat)
  /-- CHECKPOINT_BY_TIMER (R353). -/
  | checkpointByTimer (func : Nat)
  /-- RECORD_MODE (R355). -/
  | recordMode (func : Nat)
  /-- REPLAY_MODE (R356). -/
  | replayMode (func : Nat)
  /-- NORMAL_MODE (R370). -/
  | normalMode (func : Nat)
  /-- HELD_REQUEST_REPLAY (R350). -/
  | heldRequestReplay (func : Nat)
  /-- FORWARD_PACKET (R351). -/
  | forwardPacket (p : Packet)
  /-- CHECKPOINT_QUERY (R353). -/
  | checkpointQuery (func : Nat) (src : Nat)
  /-- CHECKPOINT_QUERY_REPLY (R353). -/
  | checkpointQueryReply (func : Nat) (src : Nat) (high : W64)
  /-- CHECKPOINT_STEP_SET (R353). -/
  | checkpointStepSet (func : Nat) (value : W64)
  /-- KEY_SLOT_LOAD (R115). -/
  | keySlotLoad (slot : Nat) (key : BitVec 256) (router : Bool)
  /-- LINK_UP (R104). -/
  | linkUp (port : Nat)
  /-- CONFIGURATION_REQUEST (R361). -/
  | configurationRequest (write : Bool) (sriov : Bool)
deriving DecidableEq, Repr

end Sys2Proof
end

