-- ==== Sys2Proof/Machine/State.lean ====
section
/-! DEFINITION. The state of one LZ-640: memory, caches, tables in flight, cores, teams, gangs, functions, queues, fabric
and module, as the chapters give them. Plain data throughout. The fields marked MODEL are the model's own. -/

namespace Sys2Proof.Machine

/-- Where a run stops outside the architecture. -/
inductive Fault where
  /-- Raised by the meaning of an instruction when no frontier entry is issuing (field `cur` names none). A stream never
  reaches it: `step` names the entry before it runs an instruction. Safe. -/
  | noIssuer
deriving DecidableEq, Repr

/-- Reasons for which an instruction has no meaning. -/
inductive Refusal where
  /-- No meaning written yet: raised by an arm of `exec` only. Safe. -/
  | notModelled (mnemonic : String)
deriving DecidableEq, Repr

/-- Format tags (07 Table 7-1). -/
inductive Tag where
  | none | i32 | u32 | i16x2 | i8x4 | u8x4 | f32 | f16x2 | bf16x2 | t8x4 | t6x4 | i64 | f64 | poison
deriving DecidableEq, Repr

/-- Ordering types of pages (03 Table 3-6). -/
inductive PType where
  | rel | seq | once | priv
deriving DecidableEq, Repr

/-- The four typed buffers (07 Table 7-2). -/
inductive Buf where
  | wb | ab | cb | sb
deriving DecidableEq, Repr

/-- What an access needs of its page (03 R68). -/
inductive Need where
  | read | write | rw | fetch
deriving DecidableEq, Repr

/-- Where a translation leads (03 Tables 3-1, 3-7a). -/
inductive Tgt where
  | mem (spa : Nat)
  | host (pa : Nat)
  | peer (vdn gpa : Nat)
  | notify (page off : Nat)
  | buf (core : Nat) (b : Buf) (off sliceEnd : Nat)
deriving DecidableEq, Repr

/-- A completed translation of one address. -/
structure Trans where
  gpa : Nat
  tgt : Tgt
  ty : PType
  etag : Nat
deriving DecidableEq, Repr

/-! ### Memory side -/

/-- A 128-byte cache line of any level (04 Table 4-1). Byte masks for valid and dirty bytes, poison by sector; `owner` names
the team that holds each sector's uncommitted stores and `priv` the dirty bytes that were stored through a PRIV mapping (core
caches); `bays` is the home's vector of bays (04 R78). -/
structure Line where
  addr : Nat
  data : BitVec 1024
  valid : BitVec 128
  dirty : BitVec 128
  poison : BitVec 4
  way : Nat
  func : Nat
  bays : BitVec 10
  owner : List (Option (Nat × Nat))
  priv : BitVec 128
deriving DecidableEq, Repr

/-- Counters of one stack (03 R58). -/
structure StackCnt where
  onDie : Nat
  corrected : Nat
  uncorrectable : Nat
deriving DecidableEq, Repr

/-- An exact accumulator of a reduction entry (05 R117): value acc × 2^-149 for F32, or × 2^-133 for BF16. -/
structure RedAcc where
  acc : Int
  nan : Bool
  pinf : Bool
  ninf : Bool
deriving DecidableEq, Repr

/-- An open reduction entry of a home (05 R117). -/
structure RedEntry where
  sector : Nat
  op : Nat
  rtype : Nat
  func : Nat
  accs : List RedAcc
deriving DecidableEq, Repr

/-- A core or die TLB entry (03 R71): the two leaves of a completed translation. -/
structure TlbEntry where
  func : Nat
  base : Nat
  big : Bool
  leaf1 : W64
  lvl1 : Nat
  leaf2 : W64
  lvl2 : Nat
deriving DecidableEq, Repr

/-- Who waits on a walk or on a page request. -/
inductive Waiter where
  | op (launch team gang id lane : Nat)
  | entry (launch team gang eid : Nat)
  | chunk (core id chunk : Nat)
  | cpyt (core id lane : Nat)
  | queue (func page : Nat)
  | list (launch team : Nat)
  | pref (core : Nat) (home : Bool)
deriving DecidableEq, Repr

/-- A sharer of a walk: who, for what need, at which address. -/
structure Sharer where
  who : Waiter
  need : Need
  gva : Nat
deriving DecidableEq, Repr

/-- A walk queued or in progress in a die (03 R72). -/
structure Walk where
  id : Nat
  func : Nat
  page : Nat
  started : Bool
  noInstall : Bool
  passed : Nat
  sharers : List Sharer
deriving DecidableEq, Repr

/-- An outstanding page request (14 R315); `owner` is the function whose ring holds it (0 for stage 2). -/
structure PageReq where
  owner : Nat
  id : Nat
  code : FaultCode
  func : Nat
  addr : Nat
  need : Need
  posted : Bool
  sharers : List Sharer
deriving DecidableEq, Repr

/-! ### Typed buffers -/

/-- A presence record (07 R161). -/
structure Presence where
  full : Bool
  armed : Bool
  ovr : Bool
  ac : Nat
  cc : Nat
deriving DecidableEq, Repr

/-- One typed buffer of a core: its bytes (unlisted bytes read 0), marked 32-byte blocks, presence records of its tiles
(unlisted tiles are DISARMED). -/
structure BufState where
  bytes : List Host.Cell
  poison : List Nat
  pres : List (Nat × Presence)
deriving DecidableEq, Repr

/-! ### Work in flight -/

/-- State of one lane's element of a memory instruction (04 R101). -/
inductive ElSt where
  | todo
  | walking
  | pending
  | slot (id : Nat)
  | fabric (id : Nat)
  | parked (owner id : Nat)
  | done
  | ended
deriving DecidableEq, Repr

/-- One lane's element; `seq` is the issue it belongs to. `src` is store data, or the data (and `cmp`) of an atomic; `data` what a load staged. -/
structure Elem where
  lane : Nat
  seq : Nat
  va : Nat
  st : ElSt
  trans : Option Trans
  src : BitVec 128
  cmp : W64
  data : BitVec 128
  poison : Bool
deriving DecidableEq, Repr

/-- What a store-queue entry holds (04 R81). -/
inductive StKind where
  | st (size : Nat)
  | strel (scope : BitVec 2)
  | atomr (op scope : BitVec 3) (wide : Bool)
  | rstrel (size : Nat)
  | rstarv (size : Nat)
deriving DecidableEq, Repr

/-- Memory instructions in flight: those of the memory-return class (02 Table 2-2), a maintenance instruction or a store some of
whose lanes have still to be translated (04 R101), and `RFENCE`. -/
inductive OpKind where
  | ld (w : BitVec 2)
  | ldacq (scope : BitVec 2)
  | sld (w : BitVec 2)
  | atom (op scope : BitVec 3) (wide : Bool)
  | cas (scope : BitVec 3) (wide : Bool)
  | tld (f : BitVec 4) (desc : BitVec 128)
  | maint (inv : Bool)
  | store (k : StKind)
  | rfence (size : Nat) (dev func : Nat)
deriving DecidableEq, Repr

/-- A memory instruction in flight, with its completion record; `ppc` is the place of its PRED, or its own when it has none; `prio`,
`setA` and `setB` are those of its clause. `once` holds the active lanes of an instruction that acts once
for the gang, and is empty for the others. -/
structure MemOp where
  id : Nat
  seq : Nat
  kind : OpKind
  pc : Nat
  ppc : Nat
  word : W32
  flag : Nat
  d : Nat
  region : Nat
  prio : Nat
  setA : Nat
  setB : Nat
  once : Mask
  tag : Tag
  elems : List Elem
deriving DecidableEq, Repr

/-- A store-queue entry; `begun` once a release at the head has inserted its marker (`marker`, none when no line was ahead of it),
`sent` once its stores wait for the acknowledgement of their homes. `tag` is the data tag of an `ATOMR`. -/
structure StqEntry where
  id : Nat
  seq : Nat
  kind : StKind
  pc : Nat
  word : W32
  tag : Tag
  marker : Option Nat
  begun : Bool
  sent : Bool
  elems : List Elem
deriving DecidableEq, Repr

/-- A gang's stream to one target (05 R118, R119): packets sent in its segment, the segment's number, the virtual device number last
used for it, and the earlier segments whose `RSTREL` is not acknowledged. -/
structure Stream where
  dev : Nat
  func : Nat
  sent : Nat
  seg : Nat
  vdn : Nat
  rel : List Nat
deriving DecidableEq, Repr

/-- Who issued a fabric request. `fill` is a miss slot's; `plain` says that the loads it serves are no `LDACQ`; `fetch` reads a sector
of a queue or a successor list. -/
inductive ReqOwner where
  | op (launch team gang id lane : Nat)
  | fill (core slot : Nat) (plain : Bool)
  | fetch (who : Waiter) (sector : Nat)
  | store (launch team gang lane pc : Nat) (word : W32)
  | chunkRead (core id chunk : Nat)
  | chunkWrite (core id chunk : Nat)
  | cpyt (core id lane : Nat)
  | queue (func page idx : Nat)
deriving DecidableEq, Repr

/-- A fabric requester entry (05 R108, R111); `issue` numbers the instruction that made it, and `ty` is the type of its page. -/
structure FabReq where
  id : Nat
  owner : ReqOwner
  issue : Nat
  ty : PType
  func : Nat
  vdn : Nat
  pkt : Packet
  retries : Nat
  moved : Bool
  sentAt : Nat
  retryAt : Option Nat
  held : Bool
deriving DecidableEq, Repr

/-- A miss slot (04 R82): one outstanding sector fill. `alloc` when the fill may stay in the core cache. `peer` is the device and
function of a fabric read, and `shut` says that no later access may take its answer; `only` names the one operation that may. -/
structure MissSlot where
  id : Nat
  func : Nat
  tgt : Tgt
  alloc : Bool
  peer : Option (Nat × Nat)
  shut : Bool
  only : Option Nat
deriving DecidableEq, Repr

/-- State of a copy chunk (06 R138, R139). -/
inductive ChunkSt where
  | idle
  | running
  | walking
  | parked (owner id : Nat)
  | fabric (id : Nat)
  | ack (id : Nat)
  | done
  | fault
deriving DecidableEq, Repr

/-- A chunk: its next element and its end; within the element, `phase` 0 reads the row table (its word is `row`), 1 reads the
source (into `data`), 2 writes the destination. -/
structure Chunk where
  next : Nat
  last : Nat
  phase : Nat
  st : ChunkSt
  row : W64
  data : BitVec 128
  poison : Bool
deriving DecidableEq, Repr

/-- Who started a copy. -/
inductive CopyOwner where
  | gang (launch team gang : Nat)
  | queue (func page idx slot : Nat)
deriving DecidableEq, Repr

/-- An `MSTORE` carried out as a copy (11 R253): the words captured at issue. -/
structure MStore where
  acc : Nat
  mbase : W64
  mfmt : W64
  after : List Nat
deriving DecidableEq, Repr

/-- A 32-byte sector that a copy has read (06 R135), under the place where its translation leads; `poison` marks its bytes. -/
structure CopySector where
  at_ : Tgt
  data : BitVec 256
  poison : BitVec 32
deriving DecidableEq, Repr

/-- A descriptor copy in flight (06 R127, R142). `sectors` are those it has read. `waitSeq`: it reads only after the gang's queue entries before that number have left
(`.ord`; 0 for none); `seq`: it touches a SEQ page (06 R135). -/
structure Copy where
  id : Nat
  owner : CopyOwner
  words : List W64
  pc : Nat
  word : W32
  mask : Mask
  flag : Nat
  bar : Nat
  ord : Bool
  waitSeq : Nat
  seq : Bool
  store : Option MStore
  chunks : List Chunk
  sectors : List CopySector
deriving DecidableEq, Repr

/-- One lane of a `CPYT`. -/
structure CpytLane where
  lane : Nat
  off : Nat
  valid : Nat
  va : Nat
  st : ElSt
  got : Nat
  data : BitVec 256
  poison : Bool
deriving DecidableEq, Repr

/-- A `CPYT` record (06 R144). -/
structure Cpyt where
  id : Nat
  launch : Nat
  team : Nat
  gang : Nat
  tag : Nat
  flag : Nat
  pc : Nat
  word : W32
  waitSeq : Nat
  seq : Bool
  lanes : List CpytLane
deriving DecidableEq, Repr

/-- A range-lock entry (06 R136). -/
structure Lock where
  copy : Nat
  cpyt : Bool
  func : Nat
  dest : Bool
  lo : Nat
  hi : Nat
  sectors : List Nat
  cookie : W32
deriving DecidableEq, Repr

/-- A signature on a convergence register (11 R238). -/
structure Signer where
  gang : Nat
  flag : Nat
  matrix : Bool
  word : W32
  pc : Nat
deriving DecidableEq, Repr

/-- What a matrix signature takes from its gang's registers (11 R239): tile registers, the 128 gather indices and the tags of ix
and ix + 1. -/
structure Capture where
  issuer : Nat
  word : W32
  tregs : List (BitVec 128)
  idx : List Nat
  ixTags : List Tag
deriving DecidableEq, Repr

/-- A matrix operation that has issued (11 R239, R241, R248); `started` when the engine has taken it up, `begun` when its tiles
were all there and its first K step may run. `latch` holds its gathered rows, each element with its mark (R237). -/
structure MatOp where
  id : Nat
  launch : Nat
  team : Nat
  word : W32
  issuer : Nat
  descA : BitVec 128
  descB : BitVec 128
  descSA : BitVec 128
  descSB : BitVec 128
  idx : List Nat
  mscale : W64
  signers : List Signer
  progress : Nat
  started : Bool
  begun : Bool
  latch : Option (List (List (Nat × Bool)))
deriving DecidableEq, Repr

/-! ### Core -/

/-- Holder of a core's baton (13 R305). -/
inductive Baton where
  | free
  | gang (launch team gang : Nat)
  | team (launch team : Nat)
deriving DecidableEq, Repr

/-- A request that waits for the baton. -/
structure BatonReq where
  launch : Nat
  team : Nat
  gang : Nat
  eid : Nat
  byTeam : Bool
deriving DecidableEq, Repr

/-- Why a claim waits (08 R181). -/
inductive ClaimKind where
  | regclaim
  | write
  | completion
deriving DecidableEq, Repr

/-- A waiting claim on a pool (08 R181); `ref` is the entry, or the operation for a completion. -/
structure Claim where
  launch : Nat
  team : Nat
  gang : Nat
  ref : Nat
  uni : Bool
  count : Nat
  kind : ClaimKind
deriving DecidableEq, Repr

/-- A line waiting in the dirty-line FIFO, with the cycle it entered (04 R83). -/
structure FifoEntry where
  line : Nat
  since : Nat
deriving DecidableEq, Repr

/-- A release marker: the lines that stood ahead of it and are not yet written back. -/
structure Marker where
  id : Nat
  launch : Nat
  team : Nat
  lines : List Nat
deriving DecidableEq, Repr

/-- MODEL. An upset of a quarter's vector pipe (10 R212, R213): in one of the four passes of a beat (0 and 1, and 2 and 3 of its
retry), the lane that runs in a slot gives result bits that differ by `bits`, and predicate bits that differ if `pred`. -/
structure PipeUpset where
  quarter : Nat
  beat : Nat
  pass : Nat
  slot : Nat
  bits : BitVec 64
  pred : Bool
deriving DecidableEq, Repr

/-- A core (01 Table 1-1). MODEL: `upsets` strike the next bundles of its pipes and `engineUpsets` the next K steps of its engine, each
of these with whether the retry fails as well (log 28). -/
structure Core where
  id : Nat
  outOfUse : Bool
  start : Nat
  poolV : Nat
  poolS : Nat
  claims : List Claim
  baton : Baton
  batonQ : List BatonReq
  cache : List Line
  fifo : List FifoEntry
  markers : List Marker
  tlb : List TlbEntry
  slots : List MissSlot
  wb : BufState
  ab : BufState
  cb : BufState
  sb : BufState
  engine : List MatOp
  copies : List Copy
  cpyts : List Cpyt
  locks : List Lock
  reqs : List FabReq
  upsets : List PipeUpset
  engineUpsets : List Bool
deriving DecidableEq, Repr

/-- A die: its TLB, walk queue and the FIFO of its home cache's dirty lines. -/
structure Die where
  id : Nat
  tlb : List TlbEntry
  walks : List Walk
  lastFunc : Nat
  fifo : List Nat
deriving DecidableEq, Repr

/-! ### Gangs and teams -/

/-- Storage form of a mapped vector register (08 R177); `shared` is the odd half of a pair held in one entry. -/
inductive Form where
  | full | uni | shared
deriving DecidableEq, Repr

/-- A mapped vector register. -/
structure VReg where
  lanes : List W32
  tag : Tag
  form : Form
deriving DecidableEq, Repr

/-- Why an entry is stalled (13 R287). -/
inductive Stall where
  | flags (mask : BitVec 12)
  | flagFull (k : Nat)
  | stqFull
  | stqEmpty
  | memReturn
  | seqAccess
  | copySlot
  | cpytRecord
  | rangeLock
  | tagFull (k : Nat)
  | tags (mask : BitVec 8)
  | regs
  | handler
  | markers
  | marker (id : Nat)
  | acks (all : Bool)
  | svc (seq : Nat)
  | resume
  | engineFull
  | accBusy (acc : Nat) (stores : Bool)
  | gangDone
  | walk
  | walkFull
  | requester
  | tfence (id : Nat)
  | hostRead
  | ldacq
  | older
  | stepHold
  | barArrive (k : Nat)
  | checkpoint
  | queueRoom
  | port
deriving DecidableEq, Repr

/-- States of a frontier entry (13 R287). -/
inductive ESt where
  | ready
  | stalled (r : Stall)
  | parked (owner id : Nat)
  | tile (core : Nat) (b : Buf) (t : Nat)
  | polling (core : Nat) (b : Buf) (t : Nat) (since : Nat)
  | reconv
  | barrier (k phase : Nat)
  | baton
  | claim (uni : Bool) (n : Nat)
deriving DecidableEq, Repr

/-- What a reissued instruction goes on with. -/
inductive Resume where
  | none
  | op (id : Nat)
  | progress
deriving DecidableEq, Repr

/-- A frontier entry (13 R287). MODEL: `since` numbers the instruction it is issuing (0 when none has begun), so that "earlier"
has a meaning within the gang. `setA` and `setB` are its clause's flag fields; 16 in both says that it stands where only a
clause header may stand (02 R23, 13 R281). -/
structure Entry where
  eid : Nat
  prio : Nat
  pc : Nat
  mask : Mask
  age : Nat
  promoted : Option Nat
  yielded : List Nat
  setA : Nat
  setB : Nat
  resume : Resume
  progress : Nat
  since : Nat
  st : ESt
deriving DecidableEq, Repr

/-- An entry of a region record (13 R298, 14 Table 14-6). -/
structure RecEntry where
  pc : Nat
  mask : Mask
  prio : Nat
  st : ESt
  setA : Nat
  setB : Nat
deriving DecidableEq, Repr

/-- A region record (13 R298). `vmask` and `smask` name its live-ins, mapped or not; `heldV` and `heldS` mark those whose recorded
value still holds its register. -/
structure Region where
  num : Nat
  entries : List RecEntry
  vmask : BitVec 64
  smask : BitVec 64
  vlive : List (Nat × VReg)
  slive : List (Nat × W64)
  heldV : BitVec 64
  heldS : BitVec 64
  preds : List Mask
  tregs : List (BitVec 128)
  lpa : BitVec 16
  lpb : BitVec 16
  round : BitVec 2
  step : W64
  draws : List W64
deriving DecidableEq, Repr

/-- Registers that a pool has granted to a waiting write or completion of a gang, which has still to use them (08 R181). -/
structure Lent where
  kind : ClaimKind
  ref : Nat
  uni : Bool
  count : Nat
deriving DecidableEq, Repr

/-- A gang (01 Table 1-5, 08 Table 8-1). -/
structure Gang where
  idx : Nat
  ended : Bool
  vmap : List (Option VReg)
  smap : List (Option W64)
  preds : List Mask
  tregs : List (BitVec 128)
  flags : List Nat
  lpa : BitVec 16
  lpb : BitVec 16
  ctags : List Nat
  step : W64
  round : BitVec 2
  qv : Nat
  qs : Nat
  lent : List Lent
  frontier : List Entry
  exited : Mask
  region : Region
  replay : List W64
  stq : List StqEntry
  ops : List MemOp
  streams : List Stream
  barPhase : List (Option Nat)
  lastIssue : Nat
  hostWrote : Bool
  unacked : Nat
  reachedStep : Bool
deriving DecidableEq, Repr

/-- A convergence register (11 R238). -/
structure Conv where
  declared : Nat
  signers : List Signer
  cap : Option Capture
deriving DecidableEq, Repr

/-- A barrier (13 R300). `lower` is how much M falls at the next phase (R303). -/
structure Bar where
  set : Bool
  m : Nat
  e : Nat
  arrived : Mask
  b : Nat
  counted : Bool
  phase : Nat
  lower : Nat
deriving DecidableEq, Repr

/-- Team states (13 Table 13-7); a freed team leaves the list. A team whose cluster has been rolled back is `waiting`, as at its start,
until a bay has room for the cluster (14 R331): it holds nothing of its core. -/
inductive TSt where
  | running | ending | reading | waiting
deriving DecidableEq, Repr

/-- A team (14 Table 14-8). -/
structure Team where
  launch : Nat
  num : Nat
  func : Nat
  cluster : Nat
  tic : Nat
  coords : Nat × Nat × Nat
  core : Nat
  st : TSt
  stopped : Bool
  gangs : List Gang
  lanes : Nat
  acc : Nat
  tiles : Nat
  wbBase : Nat
  wbTiles : Nat
  abBase : Nat
  abTiles : Nat
  sbBase : Nat
  sbTiles : Nat
  accBase : Nat
  akind : BitVec 8
  range : Bool
  start : W64
  cur : W64
  stop : W64
  slist : Nat
  sn : Nat
  faulted : Bool
  rollbacks : Nat
  committed : Bool
  wroteOut : Bool
  fedFromOut : Bool
  inPlace : Bool
  didSvc : Bool
  mscale : W64
  mbase : W64
  mfmt : W64
  cv : List Conv
  bars : List Bar
  inherit : List W32
  finfo : W32
  fdetail : W64
  check : Bool
deriving DecidableEq, Repr

/-! ### Launches, queues, functions -/

/-- The fields of a LAUNCH packet (13 Table 13-1). -/
structure LaunchPkt where
  range : Bool
  inPlace : Bool
  teams : Nat
  gangs : Nat
  lanes : Nat
  quotav : Nat
  quotas : Nat
  wb : Nat
  ab : Nat
  sb : Nat
  acc : Nat
  tiles : Nat
  inhacc : Nat
  inht : Nat
  entry : Nat
  params : Nat
  inhv : Nat
  inhs : Nat
  x : Nat
  y : Nat
  z : Nat
  lo : Nat
  hi : Nat
  raw : List Byte
deriving DecidableEq, Repr

/-- A launch (13 R280, R283); `queue` is the doorbell page and slot of its packet, `root` that of its root packet. -/
structure Launch where
  id : Nat
  func : Nat
  queue : Option (Nat × Nat)
  root : Option (Nat × Nat)
  header : Nat
  parent : Nat
  pkt : LaunchPkt
  nextCluster : Nat
  started : Nat
  left : Nat
  succ : Nat
  stamp : Nat
  check : Bool
deriving DecidableEq, Repr

/-- A packet that has started and not completed (06 R149); `slot` is its index, `waiting` says that it holds later packets back, and
`tiles` are the core, buffer, first tile and count that a WAITTILE waits for. -/
structure QPacket where
  slot : Nat
  type : Nat
  bytes : List Byte
  waiting : Bool
  tiles : Option (Nat × Buf × Nat × Nat)
deriving DecidableEq, Repr

/-- A bound queue (16 R367, 06 R149). `lastRd` is its rd, which the scheduler alone writes, once it has read the header (`seen`);
slots below `force` are taken as ready (14 R335); `site` is the part of a record's detail that names the access whose page request
is outstanding, `idx` the slot of its packet. `wrote` counts the writes of a packet's start that a peer has acknowledged (R147). -/
structure Queue where
  page : Nat
  header : Nat
  replay : Nat
  stopped : Bool
  readable : Bool
  restarted : Bool
  force : Nat
  lastRd : Nat
  seen : Bool
  running : List QPacket
  parked : Bool
  site : Nat
  idx : Nat
  wrote : Nat
deriving DecidableEq, Repr

/-- One of a function's three rings (16 R365). -/
structure Ring where
  base : Nat
  k : Nat
  set : Bool
  wr : Nat
  rd : Nat
  seq : Nat
deriving DecidableEq, Repr

/-- A fault record (14 Table 14-2) that waits at the reporting port; `ring` 0 retryable, 1 terminal, 2 handler. One that is `corrupt`
carries a code that is not in Table 0-2 (00 R4). -/
structure Record where
  ring : Nat
  code : FaultCode
  flags : Nat
  func : Nat
  launch : Nat
  team : Nat
  gang : Nat
  unit : Nat
  lanes : Mask
  word : W32
  pc : Nat
  detail : W64
  extra : W64
  reqId : Nat
  need : Need
  waited : Bool
  queue : Option (Nat × Nat)
  seqOf : Option Nat
  corrupt : Bool
deriving DecidableEq, Repr

/-- A migration from this device (15 R342 to R346). -/
structure Migration where
  dev : Nat
  func : Nat
  ranges : List (Nat × Nat)
  round : Nat
  last : Nat
  prev : Nat
  phase : Nat
deriving DecidableEq, Repr

/-- What the receive command prepared (16 Table 16-5). -/
structure Receive where
  reserve : Nat
  dev : Nat
  func : Nat
  ranges : List (Nat × Nat)
deriving DecidableEq, Repr

/-- A moved function's mirror window (15 R351). -/
structure Mirror where
  dev : Nat
  func : Nat
  until_ : Nat
deriving DecidableEq, Repr

/-- A checkpoint session (15 R352, R353); `partial_` once its 10 ms have passed. -/
structure Checkpoint where
  image : Nat
  ranges : List (Nat × Nat)
  target : Option W64
  period : Option Nat
  timerAt : Nat
  firstStop : Option Nat
  replies : List (Nat × W64)
  hold : Option W64
  partial_ : Bool
deriving DecidableEq, Repr

/-- Record or replay mode (15 R354 to R356). -/
structure RecMode where
  replaying : Bool
  log : Nat
  size : Nat
  pos : Nat
  ranges : List (Nat × Nat)
  full : Bool
  used : List Nat
deriving DecidableEq, Repr

/-- CONFIG of a function (16 Table 16-3). -/
structure FConfig where
  bays : BitVec 80
  kslot : Nat
  share : Nat
  weight : Nat
  nochk : Bool
  tlimit : Bool
  vbase : Nat
  vlimit : Nat
  hways : BitVec 24
  sways : BitVec 16
  capwb : Nat
  capab : Nat
  capsb : Nat
  capacc : Nat
  capv : Nat
  capu : Nat
deriving DecidableEq, Repr

/-- Register window and private state of one function (16 Table 16-1). -/
structure Func where
  id : Nat
  s1root : W64
  s2root : W64
  rings : List Ring
  cfg : FConfig
  oldHways : BitVec 24
  oldSways : BitVec 16
  svcSeq : Option Nat
  qaddr : W64
  selected : Nat
  queues : List Queue
  diverge : W64
  errcnt : List (Nat × Nat)
  invBase : W64
  invCmd : W64
  margs : List W64
  mstate : Nat
  mround : Nat
  mpartial : Bool
  msaved : Nat
  mdirty : W64
  status : Nat
  vfstatus : Bool
  pend : List Record
  svcWait : List (Nat × (Nat × Nat × Nat × Nat))
  svcGot : List (Nat × W64)
  capNow : Option Nat
  retired : Nat
  frozen : Bool
  frozenAt : Nat
  migration : Option Migration
  receive : Option Receive
  mirror : Option Mirror
  moved : Bool
  hold : List Packet
  checkpoint : Option Checkpoint
  captured : Bool
  recmode : Option RecMode
  image : Option (List Byte)
deriving DecidableEq, Repr

/-! ### Fabric and module -/

/-- An open segment of the stream table (05 R119, R120). -/
structure Segment where
  src : Nat
  launch : Nat
  team : Nat
  gang : Nat
  func : Nat
  seg : Nat
  settled : Nat
  held : List Packet
deriving DecidableEq, Repr

/-- A port (05 R103, R104). Its credits are a free value of Config: the far router gives them back. -/
structure Port where
  up : Bool
deriving DecidableEq, Repr

/-- An answer that travels on the fabric (05 Table 5-2). -/
inductive Answer where
  | ok (data : BitVec 256) (poison : Bool)
  | nack (kind : NackKind)
  | moved
  | fault (code : FaultCode) (detail : W64)
deriving DecidableEq, Repr

/-- Messages this device has sent and the model does not follow further. A granule carries the marks of its 128 sectors,
and a host's read one for its data. -/
inductive Sent where
  | reply (port : Nat) (r : Reply) (a : Answer)
  | packet (port : Nat) (p : Packet)
  | forward (dst : Nat) (p : Packet)
  | tlbInvalidate (dst id func : Nat) (all : Bool) (page : Nat)
  | tlbAck (dst id : Nat)
  | stepQuery (dst func : Nat)
  | stepReply (dst func : Nat) (high : W64)
  | stepSet (dst func : Nat) (n : W64)
  | granule (dst : Nat) (addr : Nat) (bytes : List Byte) (marks : BitVec 128)
  | image (dst : Nat) (addr : Nat) (bytes : List Byte)
  | hostWrite (pa n : Nat) (data : BitVec 128)
  | zeroRead (func : Nat)
  | hostData (bytes : List Byte) (poison : Bool)
  | hostValue (v : W64)
  | unsupported (func : Nat)
  | signature (sig : BitVec 512)
  | retryStatus
  | mctp (v : W64)
deriving DecidableEq, Repr

/-- An invalidation of translations that is not complete (03 R74, R75): the devices whose acknowledgement is awaited, the
accesses that used a dropped entry (operations and queue entries of gangs, fabric requests of copies), and the release markers
that then perform them at scope; `cores` are those whose markers are still to be inserted. `func` is the function of a stage-2
command, none for a `TFENCE`; `ack` is the device and number of a peer's message that is to be answered. -/
structure TFence where
  id : Nat
  func : Option Nat
  waiting : List Nat
  ops : List (Nat × Nat × Nat × Nat)
  reqs : List (Nat × Nat)
  cores : List Nat
  marks : List (Nat × Nat)
  ack : Option (Nat × Nat)
deriving DecidableEq, Repr

/-- A sector that the scheduler, or a team's end, has read through a peer window (06 R147, 13 R307): the reader, the sector's guest
virtual number, its bytes and mark. -/
structure PeerSector where
  who : Waiter
  sector : Nat
  data : BitVec 256
  poison : Bool
deriving DecidableEq, Repr

/-- Content of a code sector before a store performed at `stamp` (02 R17). -/
structure OldSector where
  sector : Nat
  data : BitVec 256
  stamp : Nat
deriving DecidableEq, Repr

/-- MODEL. The bundle being issued: the entry, the address of the instruction and of its PRED, its active lanes. -/
structure Cur where
  launch : Nat
  team : Nat
  gang : Nat
  eid : Nat
  pc : Nat
  ppc : Nat
  mask : Mask
  word : W32
  len : Nat
  seq : Nat
deriving DecidableEq, Repr

/-- MODEL. Soft errors and defects, which come from outside the architecture (log 28): an error that a stack's on-die correction
repairs, a flipped bit of a sector's codeword, a soft error of a buffer's 32-byte block (one bit, or more), an upset of a pipe or of a
K step, a fault record corrupted at the reporting port. -/
inductive Upset where
  | cell (sector : Nat)
  | flip (sector bit : Nat)
  | buffer (core : Nat) (b : Buf) (block : Nat) (single : Bool)
  | pipe (core : Nat) (u : PipeUpset)
  | engine (core : Nat) (again : Bool)
  | record (func : Nat)
deriving DecidableEq, Repr

/-- MODEL. What happens next: an event, the issue of a quarter (core × 4 + quarter), an upset, or the passing of cycles. -/
inductive Act where
  | event (i : Instr)
  | issue (quarter : Nat)
  | upset (u : Upset)
  | pass (cycles : Nat)
deriving DecidableEq, Repr

/-- The whole device. -/
structure State where
  mem : List Host.Cell
  poison : List Nat
  flips : List (Nat × Nat)
  dieFlips : List Nat
  stackCnt : List StackCnt
  stack : List Line
  home : List Line
  bitmap : List Nat
  reds : List RedEntry
  oldCode : List OldSector
  stamp : Nat
  cores : List Core
  dies : List Die
  pageReqs : List PageReq
  nextReq : Nat
  teams : List Team
  launches : List Launch
  launchCount : Nat
  funcs : List Func
  reportRound : List Nat
  grid : W64
  vdntab : W64
  ports : List Port
  keys : List (Nat × BitVec 256)
  routerKeys : List (BitVec 256)
  nonces : List (Nat × Nat)
  segments : List Segment
  router : List Packet
  replies : List (Reply × Answer)
  tileWait : List Packet
  fetched : List PeerSector
  forwards : List (Nat × Nat × Nat × Nat)
  tfences : List TFence
  bringUp : Nat
  sriov : Bool
  linkUp : Bool
  overTemp : Bool
  firmware : BitVec 512
  now : Nat
  agenda : List Act
  turn : Bool
  nextQuarter : Nat
  cur : Option Cur
  free : Nat
  fresh : Nat
  sent : List Sent
deriving DecidableEq, Repr

/-! ### Reset values -/

/-- A typed buffer as reset and launch leave it: bytes zero, marks clear, records DISARMED (07 R161, 16 R361). -/
def BufState.reset : BufState := ⟨[], [], []⟩

/-- A DISARMED record (07 R161). -/
def Presence.disarmed : Presence := ⟨false, false, false, 0, 0⟩

/-- A core as bring-up leaves it (16 Table 16-2 step 3; pools of 08 R179). -/
def Core.reset (id : Nat) : Core :=
  ⟨id, false, 0, 32768, 32768, [], .free, [], [], [], [], [], [], .reset, .reset, .reset, .reset, [], [], [], [], [], [], []⟩

def Die.reset (id : Nat) : Die := ⟨id, [], [], 0, []⟩

/-- A ring that RINGS has not set up. -/
def Ring.reset : Ring := ⟨0, 0, false, 0, 0, 0⟩

/-- CONFIG at reset (16 R369). -/
def FConfig.reset : FConfig :=
  ⟨0, 0, 0, 0, false, false, 0, 0, 0xFFFFFF, 0xFFFF, 255, 255, 255, 255, 0xFFFF, 0xFFFF⟩

/-- A function at reset. DESIGN CHOICE (log 3): registers for which the manual gives no reset value read 0. -/
def Func.reset (id : Nat) : Func where
  id := id
  s1root := 0
  s2root := 0
  rings := [.reset, .reset, .reset]
  cfg := .reset
  oldHways := 0
  oldSways := 0
  svcSeq := none
  qaddr := 0
  selected := 0
  queues := []
  diverge := 0
  errcnt := List.replicate 12 (0, 0)
  invBase := 0
  invCmd := 0
  margs := [0, 0, 0, 0]
  mstate := 0
  mround := 0
  mpartial := false
  msaved := 0
  mdirty := 0
  status := 0
  vfstatus := false
  pend := []
  svcWait := []
  svcGot := []
  capNow := none
  retired := 0
  frozen := false
  frozenAt := 0
  migration := none
  receive := none
  mirror := none
  moved := false
  hold := []
  checkpoint := none
  captured := false
  recmode := none
  image := none

/-- The device right after a fundamental reset, before the bring-up of 16 R361. Cores, dies and functions that no list names
are as `Core.reset`, `Die.reset` and `Func.reset` give them. -/
def State.reset : State where
  mem := []
  poison := []
  flips := []
  dieFlips := []
  stackCnt := List.replicate 16 ⟨0, 0, 0⟩
  stack := []
  home := []
  bitmap := []
  reds := []
  oldCode := []
  stamp := 0
  cores := []
  dies := []
  pageReqs := []
  nextReq := 0
  teams := []
  launches := []
  launchCount := 0
  funcs := []
  reportRound := []
  grid := 0
  vdntab := 0
  ports := List.replicate 32 ⟨false⟩
  keys := []
  routerKeys := []
  nonces := []
  segments := []
  router := []
  replies := []
  tileWait := []
  fetched := []
  forwards := []
  tfences := []
  bringUp := 0
  sriov := false
  linkUp := false
  overTemp := false
  firmware := 0
  now := 0
  agenda := []
  turn := false
  nextQuarter := 0
  cur := none
  free := 0
  fresh := 0
  sent := []

end Sys2Proof.Machine
end

