-- ==== Sys2Proof/Machine/Bits.lean ====
section
/-! DEFINITION. Helpers on lists, bytes, lanes and bit fields, used by every meaning. -/

namespace Sys2Proof.Machine

/-- Bits `lo .. lo + n - 1` of a number. -/
def fld (x lo n : Nat) : Nat := (x / 2 ^ lo) % 2 ^ n

/-- Is every bit of `x` at or above `lo` and below `lo + n` zero? -/
def zeroBits (x lo n : Nat) : Bool := fld x lo n == 0

/-- Sign-extend the low `n` bits of `x` (00 Table 0-4), as an integer. -/
def sext (x n : Nat) : Int :=
  let y := x % 2 ^ n
  if y < 2 ^ (n - 1) then (y : Int) else (y : Int) - (2 ^ n : Nat)

/-- Replace the element at `i`. -/
def setAt {α : Type} : List α → Nat → α → List α
  | [], _, _ => []
  | _ :: t, 0, a => a :: t
  | x :: t, i + 1, a => x :: setAt t i a

/-- Change the element at `i`. -/
def modAt {α : Type} : List α → Nat → (α → α) → List α
  | [], _, _ => []
  | x :: t, 0, f => f x :: t
  | x :: t, i + 1, f => x :: modAt t i f

/-- Change the elements that satisfy `p`. -/
def modIf {α : Type} (p : α → Bool) (f : α → α) (l : List α) : List α :=
  l.map fun x => if p x then f x else x

/-- Replace the first element that satisfies `p`, or append. -/
def putBy {α : Type} (p : α → Bool) (a : α) : List α → List α
  | [] => [a]
  | x :: t => if p x then a :: t else x :: putBy p a t

/-- Insert into a strictly rising list of numbers. -/
def insertNat (a : Nat) : List Nat → List Nat
  | [] => [a]
  | x :: t => if a < x then a :: x :: t else if a = x then x :: t else x :: insertNat a t

/-- Lanes 0 to 31 in increasing order (00 ForEachActiveLane). -/
def lanes32 : List Nat :=
  [0, 1, 2, 3, 4, 5, 6, 7, 8, 9, 10, 11, 12, 13, 14, 15, 16, 17, 18, 19, 20, 21, 22, 23, 24, 25, 26, 27, 28, 29, 30, 31]

/-- The lanes of a mask, in increasing order. -/
def lanesOf (m : Mask) : List Nat := lanes32.filter fun i => m.getLsbD i

/-- The mask of a list of lanes. -/
def maskOf (l : List Nat) : Mask := l.foldl (fun m i => m ||| (1#32 <<< i)) 0

/-- The mask of lanes 0 to n − 1. -/
def lowMask (n : Nat) : Mask := BitVec.ofNat 32 (2 ^ n - 1)

def popcount (n : Nat) : Nat → Nat
  | 0 => 0
  | k + 1 => popcount (n / 2) k + n % 2

/-- Number of set bits of a lane mask. -/
def maskCount (m : Mask) : Nat := popcount m.toNat 32

/-- The lowest set lane of a mask, 32 when empty. -/
def firstLane (m : Mask) : Nat := ((lanesOf m).head?).getD 32

/-- Little-endian value of a byte list (00 R2). -/
def leNat : List Byte → Nat
  | [] => 0
  | b :: t => b.toNat + 256 * leNat t

/-- The `n` little-endian bytes of a number. -/
def leBytes (x : Nat) : Nat → List Byte
  | 0 => []
  | k + 1 => BitVec.ofNat 8 x :: leBytes (x / 256) k

/-- `n` consecutive numbers from `a`. -/
def rangeFrom (a : Nat) : Nat → List Nat
  | 0 => []
  | k + 1 => a :: rangeFrom (a + 1) k

/-- Bytes `off .. off + n - 1` of a byte list, zero beyond its end. -/
def slice (l : List Byte) (off n : Nat) : List Byte := (rangeFrom off n).map fun i => l.getD i 0

/-- Little-endian field of a byte list. -/
def leField (l : List Byte) (off n : Nat) : Nat := leNat (slice l off n)

/-- Are bytes `off .. off + n - 1` all zero? -/
def zeroBytes (l : List Byte) (off n : Nat) : Bool := leField l off n == 0

/-- Ceiling division. -/
def ceilDiv (a b : Nat) : Nat := (a + b - 1) / b

/-- First difference: position of the lowest set bit of `x` among `n` from bit `lo`; `lo` when there is none. -/
def lowestBit (x lo : Nat) : Nat → Nat
  | 0 => lo
  | k + 1 => if x.testBit lo then lo else lowestBit x (lo + 1) k

/-- Number of leading zeros of an `n`-bit value. -/
def leadingZeros (x : Nat) : Nat → Nat
  | 0 => 0
  | k + 1 => if x.testBit k then 0 else leadingZeros x k + 1

/-- Bit order reversed over `n` bits. -/
def reverseBits (x : Nat) : Nat → Nat
  | 0 => 0
  | k + 1 => (x % 2) * 2 ^ k + reverseBits (x / 2) k

/-- Position of the highest set bit plus one. -/
def bitLen (x : Nat) : Nat := if x = 0 then 0 else Nat.log2 x + 1

end Sys2Proof.Machine
end

