-- ==== Sys2Proof/Machine/Fields.lean ====
section
/-! DEFINITION. Field limits of the entries that do not depend on the state (02 R25 to R28 and the encoding tables). A decoded
instruction that breaks one faults ILL_ENC when it issues. -/

namespace Sys2Proof.Machine

def even (n : Nat) : Bool := n % 2 == 0
/-- A set field of a clause header (02 R18). -/
def flagOk (k : BitVec 4) : Bool := decide (k.toNat < 12) || k == 15
/-- A pair that holds an address: even, and P may not be set (02 R25, R27). -/
def pairAddr (a : Opnd) : Bool := even a.reg.toNat && !a.prism
/-- A tag field of `S2V`, `TAGSET` or `CVT` (07 Table 7-1). -/
def tagOk (g : BitVec 4) : Bool := decide (g.toNat ≤ 12)
def pairTag (g : BitVec 4) : Bool := g == 11 || g == 12
/-- Words of a special register (08 Table 8-6). -/
def wordsOf : Nat → Nat
  | 0x03 => 3 | 0x04 => 2 | 0x05 => 2 | 0x07 => 2 | 0x08 => 2 | 0x09 => 2 | 0x0A => 2 | 0x0B => 5 | 0x0C => 3
  | _ => 1
/-- Data register of format M (02 Table 2-9). -/
def wideReg (w : BitVec 2) (d : BitVec 6) : Bool :=
  (w != 1 || even d.toNat) && (w != 2 || d.toNat % 4 == 0)
/-- Width and data register of the tile instructions (07 Table 7-7). -/
def tileWidth (f : BitVec 4) (d : BitVec 6) : Bool :=
  decide (f.toNat ≤ 3) && (f != 1 || even d.toNat) && (f != 2 || d.toNat % 4 == 0)
/-- Fields of `MRD` and `MWR` (11 Table 11-6). -/
def accWidth (f t : BitVec 4) (d : BitVec 6) : Bool :=
  (f == 0 || (f == 2 && d.toNat % 4 == 0)) && decide (t.toNat < 8)
/-- Descriptor and barrier fields of format C (02 Table 2-13). -/
def copyOk (s : BitVec 6) (r : BitVec 5) : Bool := decide (s.toNat ≤ 56) && (decide (r.toNat ≤ 15) || r == 31)

/-- Is every field of the instruction within its entry's limits? -/
def fieldsOk : Instr → Bool
  | .clauseHeader _ a b _ => flagOk a && flagOk b
  | .pred _ _ => true
  | .nopC => true
  | .movC _ _ => true
  | .iaddC _ _ => true
  | .isubC _ _ => true
  | .imulC _ _ => true
  | .andC _ _ => true
  | .orC _ _ => true
  | .xorC _ _ => true
  | .shlC _ _ => true
  | .shrC _ _ => true
  | .iminC _ _ => true
  | .imaxC _ _ => true
  | .faddC _ _ => true
  | .fsubC _ _ => true
  | .fmulC _ _ => true
  | .fminC _ _ => true
  | .fmaxC _ _ => true
  | .bra _ => true
  | .call _ => true
  | .brx a => pairAddr a
  | .ret a => pairAddr a
  | .reconv => true
  | .reconvTry => true
  | .yield => true
  | .exit a n => decide (n.toNat ≤ 4) && !a.prism && (n != 0 || (a.reg == 0 && !a.last))
  | .waitf _ => true
  | .region _ a => !a.prism
  | .regionAll => true
  | .step => true
  | .rngnext _ => true
  | .nop => true
  | .trap a _ => !a.prism
  | .svc _ a _ => !a.prism
  | .bkpt _ => true
  | .barinit d a => decide (d.toNat < 16) && !a.prism
  | .bararv d => decide (d.toNat < 16)
  | .barwait d => decide (d.toNat < 16)
  | .barsync d => decide (d.toNat < 16)
  | .barexp d a => decide (d.toNat < 16) && !a.prism
  | .cvset d _ => decide (d.toNat < 8)
  | .cvsign d => decide (d.toNat < 8)
  | .batonacq _ => true
  | .batonrel _ => true
  | .mov _ _ => true
  | .movi _ _ => true
  | .movhi _ _ => true
  | .smov _ a => !a.prism
  | .smovLpa a => !a.prism
  | .smovLpb a => !a.prism
  | .smovRdlpa _ => true
  | .smovRdlpb _ => true
  | .smovi _ _ => true
  | .s2v d a g => !a.prism && tagOk g && (!pairTag g || even d.toNat)
  | .v2s _ a _ p => !p || even a.reg.toNat
  | .setlane d a _ p => !a.prism && (!p || even d.toNat)
  | .tagset d a g => tagOk g && (!pairTag g || (even a.reg.toNat && even d.toNat))
  | .tagrd _ a => !a.prism
  | .sprd _ k n => decide (n.toNat ≤ 0x11) && decide (k.toNat < wordsOf n.toNat)
  | .spwr a n => !a.prism && (n == 0x0D || n == 0x0F)
  | .regclaim n _ => decide (1 ≤ n.toNat) && decide (n.toNat ≤ 64)
  | .regrel n _ => decide (1 ≤ n.toNat) && decide (n.toNat ≤ 64)
  | .free a _ => !a.prism
  | .qswapx _ _ => true
  | .qswapy _ _ => true
  | .qswapd _ _ => true
  | .qbcast _ _ _ => true
  | .shfl _ _ _ => true
  | .vote _ _ _ m => decide (m.toNat ≤ 3)
  | .matchLanes _ a w => !w || even a.reg.toNat
  | .iadd _ _ _ => true
  | .isub _ _ _ => true
  | .imul _ _ _ => true
  | .imulhi _ _ _ => true
  | .imad _ _ _ => true
  | .iaddc _ _ _ => true
  | .isubb _ _ _ => true
  | .imin _ _ _ => true
  | .imax _ _ _ => true
  | .umin _ _ _ => true
  | .umax _ _ _ => true
  | .and _ _ _ => true
  | .or _ _ _ => true
  | .xor _ _ _ => true
  | .andn _ _ _ => true
  | .shl _ _ _ => true
  | .shr _ _ _ => true
  | .sar _ _ _ => true
  | .rotl _ _ _ => true
  | .bfe _ _ _ => true
  | .bfi _ _ _ => true
  | .lea d a _ => even d.toNat && even a.reg.toNat
  | .iset _ _ _ => true
  | .sel _ _ _ => true
  | .pset _ _ _ _ => true
  | .idot4 _ _ _ => true
  | .iaddi _ _ _ => true
  | .shli _ _ i => decide (i.toNat < 64)
  | .shri _ _ i => decide (i.toNat < 64)
  | .iseti _ _ _ => true
  | .ineg _ _ => true
  | .iabs _ _ => true
  | .not _ _ => true
  | .popc _ _ => true
  | .clz _ _ => true
  | .brev _ _ => true
  | .fadd _ _ _ => true
  | .fsub _ _ _ => true
  | .fmul _ _ _ => true
  | .ffma _ _ _ => true
  | .fmin _ _ _ => true
  | .fmax _ _ _ => true
  | .fset _ _ _ _ => true
  | .fscale _ _ _ => true
  | .fdot2 _ _ _ => true
  | .fabs _ _ => true
  | .fneg _ _ => true
  | .frcp _ _ => true
  | .frsq _ _ => true
  | .fsqrt _ _ => true
  | .fexp2 _ _ => true
  | .flog2 _ _ => true
  | .fsin _ _ => true
  | .fcos _ _ => true
  | .ftanh _ _ => true
  | .frnd _ _ f => decide (f.toNat ≤ 4)
  | .fclass _ _ => true
  | .cvt d _ r g => decide (1 ≤ g.toNat) && tagOk g && decide (r.toNat ≤ 4) && !(decide (2 ≤ r.toNat) && (g == 9 || g == 10)) && (!pairTag g || even d.toNat)
  | .cvts _ _ _ => true
  | .deq _ _ _ => true
  | .pack _ _ _ => true
  | .unpack _ _ _ => true
  | .ld d _ w _ => wideReg w d
  | .st d _ w _ => wideReg w d
  | .ldacq _ _ _ _ => true
  | .strel _ _ _ _ => true
  | .sld d _ w a => wideReg w d && !a.prism
  | .sst d _ w a => wideReg w d && !a.prism
  | .atom d a _ c w => decide (w.toNat ≤ 1) && decide (c.toNat ≤ 5) && pairAddr a && (w != 1 || even d.toNat)
  | .atomr d a _ c w => decide (w.toNat ≤ 1) && decide (c.toNat ≤ 5) && pairAddr a && (w != 1 || even d.toNat)
  | .cas d a c w => decide (w.toNat ≤ 1) && decide (c.toNat ≤ 5) && pairAddr a && even d.toNat && (w != 1 || d.toNat % 4 == 0)
  | .pref _ _ _ => true
  | .fence c k => decide (c.toNat ≤ 5) && k != 3
  | .cflush _ _ => true
  | .cinv _ _ => true
  | .tfence a c => !a.prism && decide (c.toNat ≤ 4)
  | .tfenceAll c => decide (c.toNat ≤ 4)
  | .rstrel d _ w _ => decide (w.toNat ≤ 1) && wideReg w d
  | .rstarv d _ w _ => wideReg w d
  | .rfence _ a _ => !a.prism
  | .cpy s r _ => copyOk s r
  | .cpyr s r _ => copyOk s r
  | .cpym s r _ => copyOk s r
  | .cpyt _ a _ _ => pairAddr a
  | .cpywait m => m != 0
  | .cpyq d a c _ => decide (3 ≤ c.toNat) && decide (c.toNat ≤ 5) && decide (d.toNat ≤ 56) && !a.prism
  | .cpystatCount _ => true
  | .cpystatBitmap _ => true
  | .cpystatTags _ => true
  | .cpycan _ a => !a.prism
  | .cpycanAll _ => true
  | .tdef d a => decide (d.toNat < 16) && a.reg != 63 && !a.prism
  | .tld d _ f _ => tileWidth f d
  | .tst d _ f _ => tileWidth f d
  | .tldc d _ f _ => tileWidth f d
  | .tarm _ a => !a.prism
  | .twait _ => true
  | .ttest _ _ => true
  | .tclr _ => true
  | .tfill _ a => !a.prism
  | .tzero _ => true
  | .scld _ _ _ => true
  | .mma _ _ _ _ _ => true
  | .mmag _ _ _ _ _ _ => true
  | .mmas _ _ _ _ _ => true
  | .mmags _ _ _ _ _ _ => true
  | .mzero _ m => decide (m.toNat ≤ 1)
  | .mrd d t f _ => accWidth f t d
  | .mwr d t f _ => accWidth f t d
  | .mstore _ => true
  | .mprogWrite a w => decide (w.toNat ≤ 2) && !a.prism
  | .mprogRead _ w => decide (w.toNat ≤ 2)
  | .entryPromotion _ _ _ _ => true
  | .pollingRetest _ _ _ _ => true
  | .walkStart _ => true
  | .walkComplete _ _ => true
  | .sectorFill _ _ => true
  | .memoryReturnComplete _ _ _ _ => true
  | .storeQueueDrain _ _ _ => true
  | .storeAck _ _ _ => true
  | .dirtyLineWriteback _ _ => true
  | .dirtyLineAgeExpiry _ _ => true
  | .cacheEviction _ _ => true
  | .homeWriteback _ => true
  | .wayReductionLine _ _ _ => true
  | .wayReductionComplete _ => true
  | .routerPacket _ => true
  | .rstrelPerform _ _ _ _ => true
  | .fabricRetryTimer _ _ => true
  | .fabricAttemptTimeout _ _ => true
  | .copyElementLand _ _ _ => true
  | .copyComplete _ _ => true
  | .cpytComplete _ _ => true
  | .matrixOpStart _ _ => true
  | .matrixKStep _ _ => true
  | .matrixOpComplete _ _ => true
  | .poolGrant _ _ => true
  | .queueNop _ _ => true
  | .queueLaunch _ _ => true
  | .queueCopy _ _ _ => true
  | .queueWaittile _ _ => true
  | .queueWaitval _ _ => true
  | .waitvalPoll _ _ => true
  | .queueSignal _ _ => true
  | .queueFencemark _ _ => true
  | .clusterPlacement _ _ _ => true
  | .rangeSplit _ _ => true
  | .teamExitRelease _ _ => true
  | .successorListRead _ _ => true
  | .launchComplete _ => true
  | .preemption _ => true
  | .quiescenceReached _ => true
  | .clusterRollback _ _ _ => true
  | .watchdogHang _ => true
  | .partitionReset _ _ => true
  | .invalidationComplete _ => true
  | .precopyRound _ => true
  | .stopPhase _ => true
  | .mirrorWindowExpiry _ => true
  | .checkpointCapture _ => true
  | .checkpointPartialTimeout _ => true
  | .checkpointTimer _ => true
  | .zeroLengthReadCompletion _ _ _ => true
  | .pageReplyRetry _ _ => true
  | .pageReplyRefuse _ _ => true
  | .patrolScrub _ => true
  | .linkDown _ => true
  | .fabricRead _ => true
  | .fabricStore _ => true
  | .fabricAtomic _ => true
  | .fabricRstrel _ => true
  | .fabricRstarv _ => true
  | .fabricReducingWrite _ => true
  | .fabricClosePacket _ => true
  | .fabricOk _ _ _ _ => true
  | .fabricNack _ _ _ => true
  | .nackMoved _ _ => true
  | .fabricFault _ _ _ _ => true
  | .tlbInvalidationMessage _ _ _ _ _ => true
  | .tlbInvalidationAck _ _ => true
  | .doorbellWrite _ _ => true
  | .faultRecordWrite => true
  | .teamResume _ _ => true
  | .svcReplySeq _ _ => true
  | .svcReplyValue _ _ => true
  | .imageRestore _ _ _ => true
  | .tagParityError _ _ _ => true
  | .thermalThrottle => true
  | .thermalShutdown => true
  | .bringUp => true
  | .firmwareLoad _ _ => true
  | .attestationRequest _ _ => true
  | .hostWindowRead _ _ _ => true
  | .hostWindowWrite _ _ _ => true
  | .mctpRead _ => true
  | .registerWrite _ _ _ => true
  | .ringSetup _ _ _ _ => true
  | .ringReadIndexWrite _ _ _ => true
  | .errcntClear _ _ _ => true
  | .statusClear _ _ => true
  | .queueUnbind _ _ => true
  | .queueBind _ _ => true
  | .queueSelect _ _ => true
  | .queueRestart _ _ => true
  | .configWrite _ _ _ _ => true
  | .stage2Invalidate _ _ => true
  | .gridWrite _ => true
  | .migrateStart _ => true
  | .migrateStop _ => true
  | .migrateForceStop _ => true
  | .migrateAbandon _ => true
  | .migrateReceive _ => true
  | .checkpointAtStep _ => true
  | .checkpointByTimer _ => true
  | .recordMode _ => true
  | .replayMode _ => true
  | .normalMode _ => true
  | .heldRequestReplay _ => true
  | .forwardPacket _ => true
  | .checkpointQuery _ _ => true
  | .checkpointQueryReply _ _ _ => true
  | .checkpointStepSet _ _ => true
  | .keySlotLoad _ _ _ => true
  | .linkUp _ => true
  | .configurationRequest _ _ => true

end Sys2Proof.Machine
end

