-- ==== Sys2Proof/WellFormed.lean ====
section
/-! DEFINITION. Well-formed instructions: those whose fields lie within the limits of their entries (02 R28). -/

namespace Sys2Proof.Machine

/-- An instruction that may take its effect; a decoded one that is not well-formed faults ILL_ENC when it issues. -/
def wellFormed (i : Instr) : Bool := fieldsOk i

end Sys2Proof.Machine
end

