-- ==== Sys2Proof/Decode.lean ====
section
/-! DEFINITION. The decoder, total on any bytes, and the encoder (chapter 02 and the encoding tables of the entries). -/

namespace Sys2Proof.Machine

/-- Why bytes are no instruction: decoding itself refuses them (02 R37), a field that must be zero is not (02 R28), or there
are too few bytes. -/
inductive DecodeErr where
  | decoding
  | field
  | short
deriving DecidableEq, Repr

/-- Bit `lo` of a word. -/
def bit (w lo : Nat) : Bool := fld w lo 1 == 1
/-- Field of `n` bits of a word. -/
def bv (n w lo : Nat) : BitVec n := BitVec.ofNat n (fld w lo n)
/-- An operand byte (02 Table 2-4). -/
def opnd (x : Nat) : Opnd := ⟨fld x 7 1 == 1, fld x 6 1 == 1, BitVec.ofNat 6 (fld x 0 6)⟩
/-- Accept an instruction when the fields its entry marks zero are zero. -/
def need (ok : Bool) (i : Instr) : Except DecodeErr Instr := if ok then .ok i else .error .field

/-! ### 16-bit forms (02 R30, R31, R33) -/

def decode16 (w : Nat) : Except DecodeErr Instr :=
  match fld w 1 5 with
  | 16 => if fld w 10 6 == 0 then .ok (.pred (bv 3 w 6) (bit w 9)) else .error .decoding
  | 17 => if fld w 6 10 == 0 then .ok .nopC else .error .decoding
  | 0 => .ok (.movC (bv 5 w 6) (bv 5 w 11))
  | 1 => .ok (.iaddC (bv 5 w 6) (bv 5 w 11))
  | 2 => .ok (.isubC (bv 5 w 6) (bv 5 w 11))
  | 3 => .ok (.imulC (bv 5 w 6) (bv 5 w 11))
  | 4 => .ok (.andC (bv 5 w 6) (bv 5 w 11))
  | 5 => .ok (.orC (bv 5 w 6) (bv 5 w 11))
  | 6 => .ok (.xorC (bv 5 w 6) (bv 5 w 11))
  | 7 => .ok (.shlC (bv 5 w 6) (bv 5 w 11))
  | 8 => .ok (.shrC (bv 5 w 6) (bv 5 w 11))
  | 9 => .ok (.iminC (bv 5 w 6) (bv 5 w 11))
  | 10 => .ok (.imaxC (bv 5 w 6) (bv 5 w 11))
  | 11 => .ok (.faddC (bv 5 w 6) (bv 5 w 11))
  | 12 => .ok (.fsubC (bv 5 w 6) (bv 5 w 11))
  | 13 => .ok (.fmulC (bv 5 w 6) (bv 5 w 11))
  | 14 => .ok (.fminC (bv 5 w 6) (bv 5 w 11))
  | 15 => .ok (.fmaxC (bv 5 w 6) (bv 5 w 11))
  | _ => .error .decoding

/-! ### 32-bit forms, by row of 02 Table 2-19 -/

/-- Row 0x000. -/
def row000 (w : Nat) : Except DecodeErr Instr :=
  match fld w 1 3 with
  | 0 => .ok (.bra (bv 22 w 10))
  | 1 => .ok (.call (bv 22 w 10))
  | 2 => need (fld w 10 6 == 0 && fld w 24 8 == 0) (.brx (opnd (fld w 16 8)))
  | 3 => need (fld w 10 6 == 0 && fld w 24 8 == 0) (.ret (opnd (fld w 16 8)))
  | 4 =>
    if fld w 10 22 == 0 then .ok (.reconv)
    else if fld w 10 22 == 0x4000 then .ok (.reconvTry)
    else .error .field
  | 5 => need (fld w 10 22 == 0) (.yield)
  | 6 => need (fld w 10 6 == 0) (.exit (opnd (fld w 16 8)) (bv 8 w 24))
  | _ => .error .decoding

/-- Row 0x008. -/
def row008 (w : Nat) : Except DecodeErr Instr :=
  match fld w 1 3 with
  | 0 => need (fld w 10 6 == 0 && fld w 28 4 == 0) (.waitf (bv 12 w 16))
  | 1 =>
    if fld w 24 8 == 0 then .ok (.region (bv 6 w 10) (opnd (fld w 16 8)))
    else if fld w 10 22 == 0x4000 then .ok (.regionAll)
    else .error .field
  | 2 => need (fld w 10 22 == 0) (.step)
  | 3 => need (fld w 16 16 == 0) (.rngnext (bv 6 w 10))
  | 4 => need (fld w 10 22 == 0) (.nop)
  | 5 => need (fld w 10 6 == 0) (.trap (opnd (fld w 16 8)) (bv 8 w 24))
  | 6 => .ok (.svc (bv 6 w 10) (opnd (fld w 16 8)) (bv 8 w 24))
  | _ => .error .decoding

/-- Row 0x010. -/
def row010 (w : Nat) : Except DecodeErr Instr :=
  match fld w 1 3 with
  | 0 => need (fld w 10 14 == 0) (.bkpt (bv 8 w 24))
  | _ => .error .decoding

/-- Row 0x018. -/
def row018 (w : Nat) : Except DecodeErr Instr :=
  match fld w 1 3 with
  | 0 => need (fld w 24 8 == 0) (.barinit (bv 6 w 10) (opnd (fld w 16 8)))
  | 1 => need (fld w 16 16 == 0) (.bararv (bv 6 w 10))
  | 2 => need (fld w 16 16 == 0) (.barwait (bv 6 w 10))
  | 3 => need (fld w 16 16 == 0) (.barsync (bv 6 w 10))
  | 4 => need (fld w 24 8 == 0) (.barexp (bv 6 w 10) (opnd (fld w 16 8)))
  | 5 => need (fld w 16 8 == 0) (.cvset (bv 6 w 10) (bv 8 w 24))
  | 6 => need (fld w 16 16 == 0) (.cvsign (bv 6 w 10))
  | _ => .error .decoding

/-- Row 0x020. -/
def row020 (w : Nat) : Except DecodeErr Instr :=
  match fld w 1 3 with
  | 0 => need (fld w 10 14 == 0 && fld w 25 7 == 0) (.batonacq (bit w 24))
  | 1 => need (fld w 10 14 == 0 && fld w 25 7 == 0) (.batonrel (bit w 24))
  | _ => .error .decoding

/-- Row 0x028. -/
def row028 (w : Nat) : Except DecodeErr Instr :=
  match fld w 1 3 with
  | 0 => need (fld w 24 8 == 0) (.mov (bv 6 w 10) (opnd (fld w 16 8)))
  | 1 => .ok (.movi (bv 6 w 10) (bv 16 w 16))
  | 2 => .ok (.movhi (bv 6 w 10) (bv 16 w 16))
  | 3 =>
    if fld w 24 8 == 0 then .ok (.smov (bv 6 w 10) (opnd (fld w 16 8)))
    else if fld w 10 6 == 0 && fld w 24 8 == 1 then .ok (.smovLpa (opnd (fld w 16 8)))
    else if fld w 10 6 == 0 && fld w 24 8 == 2 then .ok (.smovLpb (opnd (fld w 16 8)))
    else if fld w 16 16 == 0x300 then .ok (.smovRdlpa (bv 6 w 10))
    else if fld w 16 16 == 0x400 then .ok (.smovRdlpb (bv 6 w 10))
    else .error .field
  | 4 => .ok (.smovi (bv 6 w 10) (bv 16 w 16))
  | 5 => need (fld w 28 4 == 0) (.s2v (bv 6 w 10) (opnd (fld w 16 8)) (bv 4 w 24))
  | 6 => need (fld w 30 2 == 0) (.v2s (bv 6 w 10) (opnd (fld w 16 8)) (bv 5 w 24) (bit w 29))
  | _ => .error .decoding

/-- Row 0x030. -/
def row030 (w : Nat) : Except DecodeErr Instr :=
  match fld w 1 3 with
  | 0 => need (fld w 30 2 == 0) (.setlane (bv 6 w 10) (opnd (fld w 16 8)) (bv 5 w 24) (bit w 29))
  | 1 => need (fld w 28 4 == 0) (.tagset (bv 6 w 10) (opnd (fld w 16 8)) (bv 4 w 24))
  | 2 => need (fld w 24 8 == 0) (.tagrd (bv 6 w 10) (opnd (fld w 16 8)))
  | 3 => .ok (.sprd (bv 6 w 10) (bv 8 w 16) (bv 8 w 24))
  | 4 => need (fld w 10 6 == 0) (.spwr (opnd (fld w 16 8)) (bv 8 w 24))
  | 5 => need (fld w 10 14 == 0) (.regclaim (bv 7 w 24) (bit w 31))
  | 6 => need (fld w 10 14 == 0) (.regrel (bv 7 w 24) (bit w 31))
  | _ => .error .decoding

/-- Row 0x038. -/
def row038 (w : Nat) : Except DecodeErr Instr :=
  match fld w 1 3 with
  | 0 => need (fld w 10 6 == 0 && fld w 25 7 == 0) (.free (opnd (fld w 16 8)) (bit w 24))
  | 1 => need (fld w 24 8 == 0) (.qswapx (bv 6 w 10) (opnd (fld w 16 8)))
  | 2 => need (fld w 24 8 == 0) (.qswapy (bv 6 w 10) (opnd (fld w 16 8)))
  | 3 => need (fld w 24 8 == 0) (.qswapd (bv 6 w 10) (opnd (fld w 16 8)))
  | 4 => need (fld w 26 6 == 0) (.qbcast (bv 6 w 10) (opnd (fld w 16 8)) (bv 2 w 24))
  | 5 => .ok (.shfl (bv 6 w 10) (opnd (fld w 16 8)) (opnd (fld w 24 8)))
  | 6 => need (fld w 20 4 == 0) (.vote (bv 6 w 10) (bv 3 w 16) (bit w 19) (bv 8 w 24))
  | _ => .error .decoding

/-- Row 0x040. -/
def row040 (w : Nat) : Except DecodeErr Instr :=
  match fld w 1 3 with
  | 0 => need (fld w 25 7 == 0) (.matchLanes (bv 6 w 10) (opnd (fld w 16 8)) (bit w 24))
  | _ => .error .decoding

/-- Row 0x048. -/
def row048 (w : Nat) : Except DecodeErr Instr :=
  match fld w 1 3 with
  | 0 => .ok (.iadd (bv 6 w 10) (opnd (fld w 16 8)) (opnd (fld w 24 8)))
  | 1 => .ok (.isub (bv 6 w 10) (opnd (fld w 16 8)) (opnd (fld w 24 8)))
  | 2 => .ok (.imul (bv 6 w 10) (opnd (fld w 16 8)) (opnd (fld w 24 8)))
  | 3 => .ok (.imulhi (bv 6 w 10) (opnd (fld w 16 8)) (opnd (fld w 24 8)))
  | 4 => .ok (.imad (bv 6 w 10) (opnd (fld w 16 8)) (opnd (fld w 24 8)))
  | 5 => .ok (.iaddc (bv 6 w 10) (opnd (fld w 16 8)) (opnd (fld w 24 8)))
  | 6 => .ok (.isubb (bv 6 w 10) (opnd (fld w 16 8)) (opnd (fld w 24 8)))
  | _ => .error .decoding

/-- Row 0x050. -/
def row050 (w : Nat) : Except DecodeErr Instr :=
  match fld w 1 3 with
  | 0 => .ok (.imin (bv 6 w 10) (opnd (fld w 16 8)) (opnd (fld w 24 8)))
  | 1 => .ok (.imax (bv 6 w 10) (opnd (fld w 16 8)) (opnd (fld w 24 8)))
  | 2 => .ok (.umin (bv 6 w 10) (opnd (fld w 16 8)) (opnd (fld w 24 8)))
  | 3 => .ok (.umax (bv 6 w 10) (opnd (fld w 16 8)) (opnd (fld w 24 8)))
  | 4 => .ok (.and (bv 6 w 10) (opnd (fld w 16 8)) (opnd (fld w 24 8)))
  | 5 => .ok (.or (bv 6 w 10) (opnd (fld w 16 8)) (opnd (fld w 24 8)))
  | 6 => .ok (.xor (bv 6 w 10) (opnd (fld w 16 8)) (opnd (fld w 24 8)))
  | _ => .error .decoding

/-- Row 0x058. -/
def row058 (w : Nat) : Except DecodeErr Instr :=
  match fld w 1 3 with
  | 0 => .ok (.andn (bv 6 w 10) (opnd (fld w 16 8)) (opnd (fld w 24 8)))
  | 1 => .ok (.shl (bv 6 w 10) (opnd (fld w 16 8)) (opnd (fld w 24 8)))
  | 2 => .ok (.shr (bv 6 w 10) (opnd (fld w 16 8)) (opnd (fld w 24 8)))
  | 3 => .ok (.sar (bv 6 w 10) (opnd (fld w 16 8)) (opnd (fld w 24 8)))
  | 4 => .ok (.rotl (bv 6 w 10) (opnd (fld w 16 8)) (opnd (fld w 24 8)))
  | 5 => .ok (.bfe (bv 6 w 10) (opnd (fld w 16 8)) (opnd (fld w 24 8)))
  | 6 => .ok (.bfi (bv 6 w 10) (opnd (fld w 16 8)) (opnd (fld w 24 8)))
  | _ => .error .decoding

/-- Row 0x060. -/
def row060 (w : Nat) : Except DecodeErr Instr :=
  match fld w 1 3 with
  | 0 => .ok (.lea (bv 6 w 10) (opnd (fld w 16 8)) (opnd (fld w 24 8)))
  | 1 => .ok (.iset (bv 6 w 10) (opnd (fld w 16 8)) (opnd (fld w 24 8)))
  | 2 => .ok (.sel (bv 6 w 10) (opnd (fld w 16 8)) (opnd (fld w 24 8)))
  | 3 => .ok (.pset (bv 3 w 10) (bv 3 w 13) (opnd (fld w 16 8)) (opnd (fld w 24 8)))
  | 4 => .ok (.idot4 (bv 6 w 10) (opnd (fld w 16 8)) (opnd (fld w 24 8)))
  | 5 => .ok (.iaddi (bv 6 w 10) (opnd (fld w 16 8)) (bv 8 w 24))
  | 6 => .ok (.shli (bv 6 w 10) (opnd (fld w 16 8)) (bv 8 w 24))
  | _ => .error .decoding

/-- Row 0x068. -/
def row068 (w : Nat) : Except DecodeErr Instr :=
  match fld w 1 3 with
  | 0 => .ok (.shri (bv 6 w 10) (opnd (fld w 16 8)) (bv 8 w 24))
  | 1 => .ok (.iseti (bv 6 w 10) (opnd (fld w 16 8)) (bv 8 w 24))
  | 2 => need (fld w 24 8 == 0) (.ineg (bv 6 w 10) (opnd (fld w 16 8)))
  | 3 => need (fld w 24 8 == 0) (.iabs (bv 6 w 10) (opnd (fld w 16 8)))
  | 4 => need (fld w 24 8 == 0) (.not (bv 6 w 10) (opnd (fld w 16 8)))
  | 5 => need (fld w 24 8 == 0) (.popc (bv 6 w 10) (opnd (fld w 16 8)))
  | 6 => need (fld w 24 8 == 0) (.clz (bv 6 w 10) (opnd (fld w 16 8)))
  | _ => .error .decoding

/-- Row 0x070. -/
def row070 (w : Nat) : Except DecodeErr Instr :=
  match fld w 1 3 with
  | 0 => need (fld w 24 8 == 0) (.brev (bv 6 w 10) (opnd (fld w 16 8)))
  | _ => .error .decoding

/-- Row 0x078. -/
def row078 (w : Nat) : Except DecodeErr Instr :=
  match fld w 1 3 with
  | 0 => .ok (.fadd (bv 6 w 10) (opnd (fld w 16 8)) (opnd (fld w 24 8)))
  | 1 => .ok (.fsub (bv 6 w 10) (opnd (fld w 16 8)) (opnd (fld w 24 8)))
  | 2 => .ok (.fmul (bv 6 w 10) (opnd (fld w 16 8)) (opnd (fld w 24 8)))
  | 3 => .ok (.ffma (bv 6 w 10) (opnd (fld w 16 8)) (opnd (fld w 24 8)))
  | 4 => .ok (.fmin (bv 6 w 10) (opnd (fld w 16 8)) (opnd (fld w 24 8)))
  | 5 => .ok (.fmax (bv 6 w 10) (opnd (fld w 16 8)) (opnd (fld w 24 8)))
  | 6 => .ok (.fset (bv 3 w 10) (bv 3 w 13) (opnd (fld w 16 8)) (opnd (fld w 24 8)))
  | _ => .error .decoding

/-- Row 0x080. -/
def row080 (w : Nat) : Except DecodeErr Instr :=
  match fld w 1 3 with
  | 0 => .ok (.fscale (bv 6 w 10) (opnd (fld w 16 8)) (opnd (fld w 24 8)))
  | 1 => .ok (.fdot2 (bv 6 w 10) (opnd (fld w 16 8)) (opnd (fld w 24 8)))
  | 2 => need (fld w 24 8 == 0) (.fabs (bv 6 w 10) (opnd (fld w 16 8)))
  | 3 => need (fld w 24 8 == 0) (.fneg (bv 6 w 10) (opnd (fld w 16 8)))
  | 4 => need (fld w 24 8 == 0) (.frcp (bv 6 w 10) (opnd (fld w 16 8)))
  | 5 => need (fld w 24 8 == 0) (.frsq (bv 6 w 10) (opnd (fld w 16 8)))
  | 6 => need (fld w 24 8 == 0) (.fsqrt (bv 6 w 10) (opnd (fld w 16 8)))
  | _ => .error .decoding

/-- Row 0x088. -/
def row088 (w : Nat) : Except DecodeErr Instr :=
  match fld w 1 3 with
  | 0 => need (fld w 24 8 == 0) (.fexp2 (bv 6 w 10) (opnd (fld w 16 8)))
  | 1 => need (fld w 24 8 == 0) (.flog2 (bv 6 w 10) (opnd (fld w 16 8)))
  | 2 => need (fld w 24 8 == 0) (.fsin (bv 6 w 10) (opnd (fld w 16 8)))
  | 3 => need (fld w 24 8 == 0) (.fcos (bv 6 w 10) (opnd (fld w 16 8)))
  | 4 => need (fld w 24 8 == 0) (.ftanh (bv 6 w 10) (opnd (fld w 16 8)))
  | 5 => .ok (.frnd (bv 6 w 10) (opnd (fld w 16 8)) (bv 8 w 24))
  | 6 => need (fld w 24 8 == 0) (.fclass (bv 6 w 10) (opnd (fld w 16 8)))
  | _ => .error .decoding

/-- Row 0x098. -/
def row098 (w : Nat) : Except DecodeErr Instr :=
  match fld w 1 3 with
  | 0 => need (fld w 24 1 == 0) (.cvt (bv 6 w 10) (opnd (fld w 16 8)) (bv 3 w 25) (bv 4 w 28))
  | 1 => .ok (.cvts (bv 6 w 10) (opnd (fld w 16 8)) (opnd (fld w 24 8)))
  | 2 => .ok (.deq (bv 6 w 10) (opnd (fld w 16 8)) (opnd (fld w 24 8)))
  | 3 => .ok (.pack (bv 6 w 10) (opnd (fld w 16 8)) (opnd (fld w 24 8)))
  | 4 => need (fld w 26 6 == 0) (.unpack (bv 6 w 10) (opnd (fld w 16 8)) (bv 2 w 24))
  | _ => .error .decoding

/-- Row 0x0A0. -/
def row0A0 (w : Nat) : Except DecodeErr Instr :=
  match fld w 1 3 with
  | 0 => .ok (.ld (bv 6 w 10) (bv 6 w 16) (bv 2 w 22) (opnd (fld w 24 8)))
  | 1 => .ok (.st (bv 6 w 10) (bv 6 w 16) (bv 2 w 22) (opnd (fld w 24 8)))
  | 2 => .ok (.ldacq (bv 6 w 10) (bv 6 w 16) (bv 2 w 22) (opnd (fld w 24 8)))
  | 3 => .ok (.strel (bv 6 w 10) (bv 6 w 16) (bv 2 w 22) (opnd (fld w 24 8)))
  | 4 => .ok (.sld (bv 6 w 10) (bv 6 w 16) (bv 2 w 22) (opnd (fld w 24 8)))
  | 5 => .ok (.sst (bv 6 w 10) (bv 6 w 16) (bv 2 w 22) (opnd (fld w 24 8)))
  | 6 => .ok (.atom (bv 6 w 10) (opnd (fld w 16 8)) (bv 3 w 24) (bv 3 w 27) (bv 2 w 30))
  | _ => .error .decoding

/-- Row 0x0A8. -/
def row0A8 (w : Nat) : Except DecodeErr Instr :=
  match fld w 1 3 with
  | 0 => .ok (.atomr (bv 6 w 10) (opnd (fld w 16 8)) (bv 3 w 24) (bv 3 w 27) (bv 2 w 30))
  | 1 => need (fld w 24 3 == 0) (.cas (bv 6 w 10) (opnd (fld w 16 8)) (bv 3 w 27) (bv 2 w 30))
  | 2 => need (fld w 11 5 == 0 && fld w 22 2 == 0) (.pref (bit w 10) (bv 6 w 16) (opnd (fld w 24 8)))
  | 3 => need (fld w 10 14 == 0 && fld w 29 3 == 0) (.fence (bv 3 w 24) (bv 2 w 27))
  | 4 => need (fld w 10 6 == 0 && fld w 22 2 == 0) (.cflush (bv 6 w 16) (opnd (fld w 24 8)))
  | 5 => need (fld w 10 6 == 0 && fld w 22 2 == 0) (.cinv (bv 6 w 16) (opnd (fld w 24 8)))
  | 6 =>
    if fld w 10 6 == 0 && fld w 27 5 == 0 then .ok (.tfence (opnd (fld w 16 8)) (bv 3 w 24))
    else if fld w 10 14 == 0 && fld w 27 5 == 1 then .ok (.tfenceAll (bv 3 w 24))
    else .error .field
  | _ => .error .decoding

/-- Row 0x0B8. -/
def row0B8 (w : Nat) : Except DecodeErr Instr :=
  match fld w 1 3 with
  | 0 => .ok (.rstrel (bv 6 w 10) (bv 6 w 16) (bv 2 w 22) (opnd (fld w 24 8)))
  | 1 => .ok (.rstarv (bv 6 w 10) (bv 6 w 16) (bv 2 w 22) (opnd (fld w 24 8)))
  | 2 => need (fld w 25 7 == 0) (.rfence (bv 6 w 10) (opnd (fld w 16 8)) (bit w 24))
  | _ => .error .decoding

/-- Row 0x0C0. -/
def row0C0 (w : Nat) : Except DecodeErr Instr :=
  match fld w 1 3 with
  | 0 => need (fld w 22 10 == 0) (.cpy (bv 6 w 10) (bv 5 w 16) (bit w 21))
  | 1 => need (fld w 22 10 == 0) (.cpyr (bv 6 w 10) (bv 5 w 16) (bit w 21))
  | 2 => need (fld w 22 10 == 0) (.cpym (bv 6 w 10) (bv 5 w 16) (bit w 21))
  | 3 => .ok (.cpyt (bv 6 w 10) (opnd (fld w 16 8)) (bv 5 w 24) (bv 3 w 29))
  | 4 => need (fld w 10 14 == 0) (.cpywait (bv 8 w 24))
  | 5 => need (fld w 28 4 == 0) (.cpyq (bv 6 w 10) (opnd (fld w 16 8)) (bv 3 w 24) (bit w 27))
  | 6 =>
    if fld w 16 16 == 0 then .ok (.cpystatCount (bv 6 w 10))
    else if fld w 16 16 == 0x100 then .ok (.cpystatBitmap (bv 6 w 10))
    else if fld w 16 16 == 0x200 then .ok (.cpystatTags (bv 6 w 10))
    else .error .field
  | _ => .error .decoding

/-- Row 0x0C8. -/
def row0C8 (w : Nat) : Except DecodeErr Instr :=
  match fld w 1 3 with
  | 0 =>
    if fld w 24 8 == 0 then .ok (.cpycan (bv 6 w 10) (opnd (fld w 16 8)))
    else if fld w 16 16 == 0x100 then .ok (.cpycanAll (bv 6 w 10))
    else .error .field
  | _ => .error .decoding

/-- Row 0x0D0. -/
def row0D0 (w : Nat) : Except DecodeErr Instr :=
  match fld w 1 3 with
  | 0 => need (fld w 24 8 == 0) (.tdef (bv 6 w 10) (opnd (fld w 16 8)))
  | 1 => .ok (.tld (bv 6 w 10) (bv 4 w 16) (bv 4 w 20) (opnd (fld w 24 8)))
  | 2 => .ok (.tst (bv 6 w 10) (bv 4 w 16) (bv 4 w 20) (opnd (fld w 24 8)))
  | 3 => .ok (.tldc (bv 6 w 10) (bv 4 w 16) (bv 4 w 20) (opnd (fld w 24 8)))
  | 4 => need (fld w 10 6 == 0 && fld w 20 4 == 0) (.tarm (bv 4 w 16) (opnd (fld w 24 8)))
  | 5 => need (fld w 10 6 == 0 && fld w 20 12 == 0) (.twait (bv 4 w 16))
  | 6 => need (fld w 20 12 == 0) (.ttest (bv 6 w 10) (bv 4 w 16))
  | _ => .error .decoding

/-- Row 0x0D8. -/
def row0D8 (w : Nat) : Except DecodeErr Instr :=
  match fld w 1 3 with
  | 0 => need (fld w 10 6 == 0 && fld w 20 12 == 0) (.tclr (bv 4 w 16))
  | 1 => need (fld w 10 6 == 0 && fld w 20 4 == 0) (.tfill (bv 4 w 16) (opnd (fld w 24 8)))
  | 2 => need (fld w 10 6 == 0 && fld w 20 12 == 0) (.tzero (bv 4 w 16))
  | 3 => need (fld w 20 4 == 0) (.scld (bv 6 w 10) (bv 4 w 16) (opnd (fld w 24 8)))
  | _ => .error .decoding

/-- Row 0x0E0. -/
def row0E0 (w : Nat) : Except DecodeErr Instr :=
  match fld w 1 3 with
  | 0 => need (fld w 24 6 == 0) (.mma (bv 3 w 10) (bv 3 w 13) (bv 4 w 16) (bv 4 w 20) (bv 2 w 30))
  | 1 => .ok (.mmag (bv 3 w 10) (bv 3 w 13) (bv 4 w 16) (bv 4 w 20) (bv 6 w 24) (bv 2 w 30))
  | 2 => need (fld w 24 6 == 0) (.mmas (bv 3 w 10) (bv 3 w 13) (bv 4 w 16) (bv 4 w 20) (bv 2 w 30))
  | 3 => .ok (.mmags (bv 3 w 10) (bv 3 w 13) (bv 4 w 16) (bv 4 w 20) (bv 6 w 24) (bv 2 w 30))
  | 4 => need (fld w 13 17 == 0) (.mzero (bv 3 w 10) (bv 2 w 30))
  | 5 => .ok (.mrd (bv 6 w 10) (bv 4 w 16) (bv 4 w 20) (opnd (fld w 24 8)))
  | 6 => .ok (.mwr (bv 6 w 10) (bv 4 w 16) (bv 4 w 20) (opnd (fld w 24 8)))
  | _ => .error .decoding

/-- Row 0x0E8. -/
def row0E8 (w : Nat) : Except DecodeErr Instr :=
  match fld w 1 3 with
  | 0 => need (fld w 13 19 == 0) (.mstore (bv 3 w 10))
  | 1 =>
    if fld w 10 6 == 0 && fld w 27 5 == 0 then .ok (.mprogWrite (opnd (fld w 16 8)) (bv 3 w 24))
    else if fld w 16 8 == 0 && fld w 27 5 == 0x10 then .ok (.mprogRead (bv 6 w 10) (bv 3 w 24))
    else .error .field
  | _ => .error .decoding

/-- A 32-bit word (02 R37): the clause header first, then the majors. -/
def decode32 (w : Nat) : Except DecodeErr Instr :=
  if fld w 0 4 = 15 then .ok (.clauseHeader (bv 12 w 4) (bv 4 w 16) (bv 4 w 20) (bv 8 w 24))
  else
    match fld w 4 6 with
    | 0 => row000 w
    | 1 => row008 w
    | 2 => row010 w
    | 3 => row018 w
    | 4 => row020 w
    | 5 => row028 w
    | 6 => row030 w
    | 7 => row038 w
    | 8 => row040 w
    | 9 => row048 w
    | 10 => row050 w
    | 11 => row058 w
    | 12 => row060 w
    | 13 => row068 w
    | 14 => row070 w
    | 15 => row078 w
    | 16 => row080 w
    | 17 => row088 w
    | 19 => row098 w
    | 20 => row0A0 w
    | 21 => row0A8 w
    | 23 => row0B8 w
    | 24 => row0C0 w
    | 25 => row0C8 w
    | 26 => row0D0 w
    | 27 => row0D8 w
    | 28 => row0E0 w
    | 29 => row0E8 w
    | _ => .error .decoding

/-- The instruction at the head of a byte list, and the rest (02 R14). -/
def decode : List Byte → Except DecodeErr (Instr × List Byte)
  | b0 :: b1 :: rest =>
    if b0.toNat % 2 = 0 then
      match decode16 (leNat [b0, b1]) with
      | .ok i => .ok (i, rest)
      | .error e => .error e
    else
      match rest with
      | b2 :: b3 :: tail =>
        match decode32 (leNat [b0, b1, b2, b3]) with
        | .ok i => .ok (i, tail)
        | .error e => .error e
      | _ => .error .short
  | _ => .error .short

/-! ### The encoder -/

/-- An operand byte as a number. -/
def opByte (o : Opnd) : Nat := o.reg.toNat + o.prism.toNat * 64 + o.last.toNat * 128

/-- Bytes of an instruction; 0 for an event. -/
def size : Instr → Nat
  | .clauseHeader _ _ _ _ => 4
  | .pred _ _ => 2
  | .nopC => 2
  | .movC _ _ => 2
  | .iaddC _ _ => 2
  | .isubC _ _ => 2
  | .imulC _ _ => 2
  | .andC _ _ => 2
  | .orC _ _ => 2
  | .xorC _ _ => 2
  | .shlC _ _ => 2
  | .shrC _ _ => 2
  | .iminC _ _ => 2
  | .imaxC _ _ => 2
  | .faddC _ _ => 2
  | .fsubC _ _ => 2
  | .fmulC _ _ => 2
  | .fminC _ _ => 2
  | .fmaxC _ _ => 2
  | .bra _ => 4
  | .call _ => 4
  | .brx _ => 4
  | .ret _ => 4
  | .reconv => 4
  | .reconvTry => 4
  | .yield => 4
  | .exit _ _ => 4
  | .waitf _ => 4
  | .region _ _ => 4
  | .regionAll => 4
  | .step => 4
  | .rngnext _ => 4
  | .nop => 4
  | .trap _ _ => 4
  | .svc _ _ _ => 4
  | .bkpt _ => 4
  | .barinit _ _ => 4
  | .bararv _ => 4
  | .barwait _ => 4
  | .barsync _ => 4
  | .barexp _ _ => 4
  | .cvset _ _ => 4
  | .cvsign _ => 4
  | .batonacq _ => 4
  | .batonrel _ => 4
  | .mov _ _ => 4
  | .movi _ _ => 4
  | .movhi _ _ => 4
  | .smov _ _ => 4
  | .smovLpa _ => 4
  | .smovLpb _ => 4
  | .smovRdlpa _ => 4
  | .smovRdlpb _ => 4
  | .smovi _ _ => 4
  | .s2v _ _ _ => 4
  | .v2s _ _ _ _ => 4
  | .setlane _ _ _ _ => 4
  | .tagset _ _ _ => 4
  | .tagrd _ _ => 4
  | .sprd _ _ _ => 4
  | .spwr _ _ => 4
  | .regclaim _ _ => 4
  | .regrel _ _ => 4
  | .free _ _ => 4
  | .qswapx _ _ => 4
  | .qswapy _ _ => 4
  | .qswapd _ _ => 4
  | .qbcast _ _ _ => 4
  | .shfl _ _ _ => 4
  | .vote _ _ _ _ => 4
  | .matchLanes _ _ _ => 4
  | .iadd _ _ _ => 4
  | .isub _ _ _ => 4
  | .imul _ _ _ => 4
  | .imulhi _ _ _ => 4
  | .imad _ _ _ => 4
  | .iaddc _ _ _ => 4
  | .isubb _ _ _ => 4
  | .imin _ _ _ => 4
  | .imax _ _ _ => 4
  | .umin _ _ _ => 4
  | .umax _ _ _ => 4
  | .and _ _ _ => 4
  | .or _ _ _ => 4
  | .xor _ _ _ => 4
  | .andn _ _ _ => 4
  | .shl _ _ _ => 4
  | .shr _ _ _ => 4
  | .sar _ _ _ => 4
  | .rotl _ _ _ => 4
  | .bfe _ _ _ => 4
  | .bfi _ _ _ => 4
  | .lea _ _ _ => 4
  | .iset _ _ _ => 4
  | .sel _ _ _ => 4
  | .pset _ _ _ _ => 4
  | .idot4 _ _ _ => 4
  | .iaddi _ _ _ => 4
  | .shli _ _ _ => 4
  | .shri _ _ _ => 4
  | .iseti _ _ _ => 4
  | .ineg _ _ => 4
  | .iabs _ _ => 4
  | .not _ _ => 4
  | .popc _ _ => 4
  | .clz _ _ => 4
  | .brev _ _ => 4
  | .fadd _ _ _ => 4
  | .fsub _ _ _ => 4
  | .fmul _ _ _ => 4
  | .ffma _ _ _ => 4
  | .fmin _ _ _ => 4
  | .fmax _ _ _ => 4
  | .fset _ _ _ _ => 4
  | .fscale _ _ _ => 4
  | .fdot2 _ _ _ => 4
  | .fabs _ _ => 4
  | .fneg _ _ => 4
  | .frcp _ _ => 4
  | .frsq _ _ => 4
  | .fsqrt _ _ => 4
  | .fexp2 _ _ => 4
  | .flog2 _ _ => 4
  | .fsin _ _ => 4
  | .fcos _ _ => 4
  | .ftanh _ _ => 4
  | .frnd _ _ _ => 4
  | .fclass _ _ => 4
  | .cvt _ _ _ _ => 4
  | .cvts _ _ _ => 4
  | .deq _ _ _ => 4
  | .pack _ _ _ => 4
  | .unpack _ _ _ => 4
  | .ld _ _ _ _ => 4
  | .st _ _ _ _ => 4
  | .ldacq _ _ _ _ => 4
  | .strel _ _ _ _ => 4
  | .sld _ _ _ _ => 4
  | .sst _ _ _ _ => 4
  | .atom _ _ _ _ _ => 4
  | .atomr _ _ _ _ _ => 4
  | .cas _ _ _ _ => 4
  | .pref _ _ _ => 4
  | .fence _ _ => 4
  | .cflush _ _ => 4
  | .cinv _ _ => 4
  | .tfence _ _ => 4
  | .tfenceAll _ => 4
  | .rstrel _ _ _ _ => 4
  | .rstarv _ _ _ _ => 4
  | .rfence _ _ _ => 4
  | .cpy _ _ _ => 4
  | .cpyr _ _ _ => 4
  | .cpym _ _ _ => 4
  | .cpyt _ _ _ _ => 4
  | .cpywait _ => 4
  | .cpyq _ _ _ _ => 4
  | .cpystatCount _ => 4
  | .cpystatBitmap _ => 4
  | .cpystatTags _ => 4
  | .cpycan _ _ => 4
  | .cpycanAll _ => 4
  | .tdef _ _ => 4
  | .tld _ _ _ _ => 4
  | .tst _ _ _ _ => 4
  | .tldc _ _ _ _ => 4
  | .tarm _ _ => 4
  | .twait _ => 4
  | .ttest _ _ => 4
  | .tclr _ => 4
  | .tfill _ _ => 4
  | .tzero _ => 4
  | .scld _ _ _ => 4
  | .mma _ _ _ _ _ => 4
  | .mmag _ _ _ _ _ _ => 4
  | .mmas _ _ _ _ _ => 4
  | .mmags _ _ _ _ _ _ => 4
  | .mzero _ _ => 4
  | .mrd _ _ _ _ => 4
  | .mwr _ _ _ _ => 4
  | .mstore _ => 4
  | .mprogWrite _ _ => 4
  | .mprogRead _ _ => 4
  | .entryPromotion _ _ _ _ => 0
  | .pollingRetest _ _ _ _ => 0
  | .walkStart _ => 0
  | .walkComplete _ _ => 0
  | .sectorFill _ _ => 0
  | .memoryReturnComplete _ _ _ _ => 0
  | .storeQueueDrain _ _ _ => 0
  | .storeAck _ _ _ => 0
  | .dirtyLineWriteback _ _ => 0
  | .dirtyLineAgeExpiry _ _ => 0
  | .cacheEviction _ _ => 0
  | .homeWriteback _ => 0
  | .wayReductionLine _ _ _ => 0
  | .wayReductionComplete _ => 0
  | .routerPacket _ => 0
  | .rstrelPerform _ _ _ _ => 0
  | .fabricRetryTimer _ _ => 0
  | .fabricAttemptTimeout _ _ => 0
  | .copyElementLand _ _ _ => 0
  | .copyComplete _ _ => 0
  | .cpytComplete _ _ => 0
  | .matrixOpStart _ _ => 0
  | .matrixKStep _ _ => 0
  | .matrixOpComplete _ _ => 0
  | .poolGrant _ _ => 0
  | .queueNop _ _ => 0
  | .queueLaunch _ _ => 0
  | .queueCopy _ _ _ => 0
  | .queueWaittile _ _ => 0
  | .queueWaitval _ _ => 0
  | .waitvalPoll _ _ => 0
  | .queueSignal _ _ => 0
  | .queueFencemark _ _ => 0
  | .clusterPlacement _ _ _ => 0
  | .rangeSplit _ _ => 0
  | .teamExitRelease _ _ => 0
  | .successorListRead _ _ => 0
  | .launchComplete _ => 0
  | .preemption _ => 0
  | .quiescenceReached _ => 0
  | .clusterRollback _ _ _ => 0
  | .watchdogHang _ => 0
  | .partitionReset _ _ => 0
  | .invalidationComplete _ => 0
  | .precopyRound _ => 0
  | .stopPhase _ => 0
  | .mirrorWindowExpiry _ => 0
  | .checkpointCapture _ => 0
  | .checkpointPartialTimeout _ => 0
  | .checkpointTimer _ => 0
  | .zeroLengthReadCompletion _ _ _ => 0
  | .pageReplyRetry _ _ => 0
  | .pageReplyRefuse _ _ => 0
  | .patrolScrub _ => 0
  | .linkDown _ => 0
  | .fabricRead _ => 0
  | .fabricStore _ => 0
  | .fabricAtomic _ => 0
  | .fabricRstrel _ => 0
  | .fabricRstarv _ => 0
  | .fabricReducingWrite _ => 0
  | .fabricClosePacket _ => 0
  | .fabricOk _ _ _ _ => 0
  | .fabricNack _ _ _ => 0
  | .nackMoved _ _ => 0
  | .fabricFault _ _ _ _ => 0
  | .tlbInvalidationMessage _ _ _ _ _ => 0
  | .tlbInvalidationAck _ _ => 0
  | .doorbellWrite _ _ => 0
  | .faultRecordWrite => 0
  | .teamResume _ _ => 0
  | .svcReplySeq _ _ => 0
  | .svcReplyValue _ _ => 0
  | .imageRestore _ _ _ => 0
  | .tagParityError _ _ _ => 0
  | .thermalThrottle => 0
  | .thermalShutdown => 0
  | .bringUp => 0
  | .firmwareLoad _ _ => 0
  | .attestationRequest _ _ => 0
  | .hostWindowRead _ _ _ => 0
  | .hostWindowWrite _ _ _ => 0
  | .mctpRead _ => 0
  | .registerWrite _ _ _ => 0
  | .ringSetup _ _ _ _ => 0
  | .ringReadIndexWrite _ _ _ => 0
  | .errcntClear _ _ _ => 0
  | .statusClear _ _ => 0
  | .queueUnbind _ _ => 0
  | .queueBind _ _ => 0
  | .queueSelect _ _ => 0
  | .queueRestart _ _ => 0
  | .configWrite _ _ _ _ => 0
  | .stage2Invalidate _ _ => 0
  | .gridWrite _ => 0
  | .migrateStart _ => 0
  | .migrateStop _ => 0
  | .migrateForceStop _ => 0
  | .migrateAbandon _ => 0
  | .migrateReceive _ => 0
  | .checkpointAtStep _ => 0
  | .checkpointByTimer _ => 0
  | .recordMode _ => 0
  | .replayMode _ => 0
  | .normalMode _ => 0
  | .heldRequestReplay _ => 0
  | .forwardPacket _ => 0
  | .checkpointQuery _ _ => 0
  | .checkpointQueryReply _ _ _ => 0
  | .checkpointStepSet _ _ => 0
  | .keySlotLoad _ _ _ => 0
  | .linkUp _ => 0
  | .configurationRequest _ _ => 0

/-- The word of an instruction, its first halfword lowest; 0 for an event. -/
def encodeWord : Instr → Nat
  | .clauseHeader w a b p => 0xf + w.toNat * 0x10 + a.toNat * 0x10000 + b.toNat * 0x100000 + p.toNat * 0x1000000
  | .pred p n => 0x20 + p.toNat * 0x40 + n.toNat * 0x200
  | .nopC => 0x22
  | .movC d b => 0x0 + d.toNat * 0x40 + b.toNat * 0x800
  | .iaddC d b => 0x2 + d.toNat * 0x40 + b.toNat * 0x800
  | .isubC d b => 0x4 + d.toNat * 0x40 + b.toNat * 0x800
  | .imulC d b => 0x6 + d.toNat * 0x40 + b.toNat * 0x800
  | .andC d b => 0x8 + d.toNat * 0x40 + b.toNat * 0x800
  | .orC d b => 0xa + d.toNat * 0x40 + b.toNat * 0x800
  | .xorC d b => 0xc + d.toNat * 0x40 + b.toNat * 0x800
  | .shlC d b => 0xe + d.toNat * 0x40 + b.toNat * 0x800
  | .shrC d b => 0x10 + d.toNat * 0x40 + b.toNat * 0x800
  | .iminC d b => 0x12 + d.toNat * 0x40 + b.toNat * 0x800
  | .imaxC d b => 0x14 + d.toNat * 0x40 + b.toNat * 0x800
  | .faddC d b => 0x16 + d.toNat * 0x40 + b.toNat * 0x800
  | .fsubC d b => 0x18 + d.toNat * 0x40 + b.toNat * 0x800
  | .fmulC d b => 0x1a + d.toNat * 0x40 + b.toNat * 0x800
  | .fminC d b => 0x1c + d.toNat * 0x40 + b.toNat * 0x800
  | .fmaxC d b => 0x1e + d.toNat * 0x40 + b.toNat * 0x800
  | .bra o => 0x1 + o.toNat * 0x400
  | .call o => 0x3 + o.toNat * 0x400
  | .brx a => 0x5 + opByte a * 0x10000
  | .ret a => 0x7 + opByte a * 0x10000
  | .reconv => 0x9
  | .reconvTry => 0x1000009
  | .yield => 0xb
  | .exit a n => 0xd + opByte a * 0x10000 + n.toNat * 0x1000000
  | .waitf m => 0x11 + m.toNat * 0x10000
  | .region d a => 0x13 + d.toNat * 0x400 + opByte a * 0x10000
  | .regionAll => 0x1000013
  | .step => 0x15
  | .rngnext d => 0x17 + d.toNat * 0x400
  | .nop => 0x19
  | .trap a i => 0x1b + opByte a * 0x10000 + i.toNat * 0x1000000
  | .svc d a i => 0x1d + d.toNat * 0x400 + opByte a * 0x10000 + i.toNat * 0x1000000
  | .bkpt i => 0x21 + i.toNat * 0x1000000
  | .barinit d a => 0x31 + d.toNat * 0x400 + opByte a * 0x10000
  | .bararv d => 0x33 + d.toNat * 0x400
  | .barwait d => 0x35 + d.toNat * 0x400
  | .barsync d => 0x37 + d.toNat * 0x400
  | .barexp d a => 0x39 + d.toNat * 0x400 + opByte a * 0x10000
  | .cvset d n => 0x3b + d.toNat * 0x400 + n.toNat * 0x1000000
  | .cvsign d => 0x3d + d.toNat * 0x400
  | .batonacq t => 0x41 + t.toNat * 0x1000000
  | .batonrel t => 0x43 + t.toNat * 0x1000000
  | .mov d a => 0x51 + d.toNat * 0x400 + opByte a * 0x10000
  | .movi d i => 0x53 + d.toNat * 0x400 + i.toNat * 0x10000
  | .movhi d i => 0x55 + d.toNat * 0x400 + i.toNat * 0x10000
  | .smov d a => 0x57 + d.toNat * 0x400 + opByte a * 0x10000
  | .smovLpa a => 0x1000057 + opByte a * 0x10000
  | .smovLpb a => 0x2000057 + opByte a * 0x10000
  | .smovRdlpa d => 0x3000057 + d.toNat * 0x400
  | .smovRdlpb d => 0x4000057 + d.toNat * 0x400
  | .smovi d i => 0x59 + d.toNat * 0x400 + i.toNat * 0x10000
  | .s2v d a g => 0x5b + d.toNat * 0x400 + opByte a * 0x10000 + g.toNat * 0x1000000
  | .v2s d a l p => 0x5d + d.toNat * 0x400 + opByte a * 0x10000 + l.toNat * 0x1000000 + p.toNat * 0x20000000
  | .setlane d a l p => 0x61 + d.toNat * 0x400 + opByte a * 0x10000 + l.toNat * 0x1000000 + p.toNat * 0x20000000
  | .tagset d a g => 0x63 + d.toNat * 0x400 + opByte a * 0x10000 + g.toNat * 0x1000000
  | .tagrd d a => 0x65 + d.toNat * 0x400 + opByte a * 0x10000
  | .sprd d k n => 0x67 + d.toNat * 0x400 + k.toNat * 0x10000 + n.toNat * 0x1000000
  | .spwr a n => 0x69 + opByte a * 0x10000 + n.toNat * 0x1000000
  | .regclaim n c => 0x6b + n.toNat * 0x1000000 + c.toNat * 0x80000000
  | .regrel n c => 0x6d + n.toNat * 0x1000000 + c.toNat * 0x80000000
  | .free a c => 0x71 + opByte a * 0x10000 + c.toNat * 0x1000000
  | .qswapx d a => 0x73 + d.toNat * 0x400 + opByte a * 0x10000
  | .qswapy d a => 0x75 + d.toNat * 0x400 + opByte a * 0x10000
  | .qswapd d a => 0x77 + d.toNat * 0x400 + opByte a * 0x10000
  | .qbcast d a j => 0x79 + d.toNat * 0x400 + opByte a * 0x10000 + j.toNat * 0x1000000
  | .shfl d a b => 0x7b + d.toNat * 0x400 + opByte a * 0x10000 + opByte b * 0x1000000
  | .vote d p n m => 0x7d + d.toNat * 0x400 + p.toNat * 0x10000 + n.toNat * 0x80000 + m.toNat * 0x1000000
  | .matchLanes d a w => 0x81 + d.toNat * 0x400 + opByte a * 0x10000 + w.toNat * 0x1000000
  | .iadd d a b => 0x91 + d.toNat * 0x400 + opByte a * 0x10000 + opByte b * 0x1000000
  | .isub d a b => 0x93 + d.toNat * 0x400 + opByte a * 0x10000 + opByte b * 0x1000000
  | .imul d a b => 0x95 + d.toNat * 0x400 + opByte a * 0x10000 + opByte b * 0x1000000
  | .imulhi d a b => 0x97 + d.toNat * 0x400 + opByte a * 0x10000 + opByte b * 0x1000000
  | .imad d a b => 0x99 + d.toNat * 0x400 + opByte a * 0x10000 + opByte b * 0x1000000
  | .iaddc d a b => 0x9b + d.toNat * 0x400 + opByte a * 0x10000 + opByte b * 0x1000000
  | .isubb d a b => 0x9d + d.toNat * 0x400 + opByte a * 0x10000 + opByte b * 0x1000000
  | .imin d a b => 0xa1 + d.toNat * 0x400 + opByte a * 0x10000 + opByte b * 0x1000000
  | .imax d a b => 0xa3 + d.toNat * 0x400 + opByte a * 0x10000 + opByte b * 0x1000000
  | .umin d a b => 0xa5 + d.toNat * 0x400 + opByte a * 0x10000 + opByte b * 0x1000000
  | .umax d a b => 0xa7 + d.toNat * 0x400 + opByte a * 0x10000 + opByte b * 0x1000000
  | .and d a b => 0xa9 + d.toNat * 0x400 + opByte a * 0x10000 + opByte b * 0x1000000
  | .or d a b => 0xab + d.toNat * 0x400 + opByte a * 0x10000 + opByte b * 0x1000000
  | .xor d a b => 0xad + d.toNat * 0x400 + opByte a * 0x10000 + opByte b * 0x1000000
  | .andn d a b => 0xb1 + d.toNat * 0x400 + opByte a * 0x10000 + opByte b * 0x1000000
  | .shl d a b => 0xb3 + d.toNat * 0x400 + opByte a * 0x10000 + opByte b * 0x1000000
  | .shr d a b => 0xb5 + d.toNat * 0x400 + opByte a * 0x10000 + opByte b * 0x1000000
  | .sar d a b => 0xb7 + d.toNat * 0x400 + opByte a * 0x10000 + opByte b * 0x1000000
  | .rotl d a b => 0xb9 + d.toNat * 0x400 + opByte a * 0x10000 + opByte b * 0x1000000
  | .bfe d a b => 0xbb + d.toNat * 0x400 + opByte a * 0x10000 + opByte b * 0x1000000
  | .bfi d a b => 0xbd + d.toNat * 0x400 + opByte a * 0x10000 + opByte b * 0x1000000
  | .lea d a b => 0xc1 + d.toNat * 0x400 + opByte a * 0x10000 + opByte b * 0x1000000
  | .iset d a b => 0xc3 + d.toNat * 0x400 + opByte a * 0x10000 + opByte b * 0x1000000
  | .sel d a b => 0xc5 + d.toNat * 0x400 + opByte a * 0x10000 + opByte b * 0x1000000
  | .pset p c a b => 0xc7 + p.toNat * 0x400 + c.toNat * 0x2000 + opByte a * 0x10000 + opByte b * 0x1000000
  | .idot4 d a b => 0xc9 + d.toNat * 0x400 + opByte a * 0x10000 + opByte b * 0x1000000
  | .iaddi d a i => 0xcb + d.toNat * 0x400 + opByte a * 0x10000 + i.toNat * 0x1000000
  | .shli d a i => 0xcd + d.toNat * 0x400 + opByte a * 0x10000 + i.toNat * 0x1000000
  | .shri d a i => 0xd1 + d.toNat * 0x400 + opByte a * 0x10000 + i.toNat * 0x1000000
  | .iseti d a i => 0xd3 + d.toNat * 0x400 + opByte a * 0x10000 + i.toNat * 0x1000000
  | .ineg d a => 0xd5 + d.toNat * 0x400 + opByte a * 0x10000
  | .iabs d a => 0xd7 + d.toNat * 0x400 + opByte a * 0x10000
  | .not d a => 0xd9 + d.toNat * 0x400 + opByte a * 0x10000
  | .popc d a => 0xdb + d.toNat * 0x400 + opByte a * 0x10000
  | .clz d a => 0xdd + d.toNat * 0x400 + opByte a * 0x10000
  | .brev d a => 0xe1 + d.toNat * 0x400 + opByte a * 0x10000
  | .fadd d a b => 0xf1 + d.toNat * 0x400 + opByte a * 0x10000 + opByte b * 0x1000000
  | .fsub d a b => 0xf3 + d.toNat * 0x400 + opByte a * 0x10000 + opByte b * 0x1000000
  | .fmul d a b => 0xf5 + d.toNat * 0x400 + opByte a * 0x10000 + opByte b * 0x1000000
  | .ffma d a b => 0xf7 + d.toNat * 0x400 + opByte a * 0x10000 + opByte b * 0x1000000
  | .fmin d a b => 0xf9 + d.toNat * 0x400 + opByte a * 0x10000 + opByte b * 0x1000000
  | .fmax d a b => 0xfb + d.toNat * 0x400 + opByte a * 0x10000 + opByte b * 0x1000000
  | .fset p c a b => 0xfd + p.toNat * 0x400 + c.toNat * 0x2000 + opByte a * 0x10000 + opByte b * 0x1000000
  | .fscale d a b => 0x101 + d.toNat * 0x400 + opByte a * 0x10000 + opByte b * 0x1000000
  | .fdot2 d a b => 0x103 + d.toNat * 0x400 + opByte a * 0x10000 + opByte b * 0x1000000
  | .fabs d a => 0x105 + d.toNat * 0x400 + opByte a * 0x10000
  | .fneg d a => 0x107 + d.toNat * 0x400 + opByte a * 0x10000
  | .frcp d a => 0x109 + d.toNat * 0x400 + opByte a * 0x10000
  | .frsq d a => 0x10b + d.toNat * 0x400 + opByte a * 0x10000
  | .fsqrt d a => 0x10d + d.toNat * 0x400 + opByte a * 0x10000
  | .fexp2 d a => 0x111 + d.toNat * 0x400 + opByte a * 0x10000
  | .flog2 d a => 0x113 + d.toNat * 0x400 + opByte a * 0x10000
  | .fsin d a => 0x115 + d.toNat * 0x400 + opByte a * 0x10000
  | .fcos d a => 0x117 + d.toNat * 0x400 + opByte a * 0x10000
  | .ftanh d a => 0x119 + d.toNat * 0x400 + opByte a * 0x10000
  | .frnd d a f => 0x11b + d.toNat * 0x400 + opByte a * 0x10000 + f.toNat * 0x1000000
  | .fclass d a => 0x11d + d.toNat * 0x400 + opByte a * 0x10000
  | .cvt d a r g => 0x131 + d.toNat * 0x400 + opByte a * 0x10000 + r.toNat * 0x2000000 + g.toNat * 0x10000000
  | .cvts d a b => 0x133 + d.toNat * 0x400 + opByte a * 0x10000 + opByte b * 0x1000000
  | .deq d a b => 0x135 + d.toNat * 0x400 + opByte a * 0x10000 + opByte b * 0x1000000
  | .pack d a b => 0x137 + d.toNat * 0x400 + opByte a * 0x10000 + opByte b * 0x1000000
  | .unpack d a j => 0x139 + d.toNat * 0x400 + opByte a * 0x10000 + j.toNat * 0x1000000
  | .ld d s w a => 0x141 + d.toNat * 0x400 + s.toNat * 0x10000 + w.toNat * 0x400000 + opByte a * 0x1000000
  | .st d s w a => 0x143 + d.toNat * 0x400 + s.toNat * 0x10000 + w.toNat * 0x400000 + opByte a * 0x1000000
  | .ldacq d s c a => 0x145 + d.toNat * 0x400 + s.toNat * 0x10000 + c.toNat * 0x400000 + opByte a * 0x1000000
  | .strel d s c a => 0x147 + d.toNat * 0x400 + s.toNat * 0x10000 + c.toNat * 0x400000 + opByte a * 0x1000000
  | .sld d s w a => 0x149 + d.toNat * 0x400 + s.toNat * 0x10000 + w.toNat * 0x400000 + opByte a * 0x1000000
  | .sst d s w a => 0x14b + d.toNat * 0x400 + s.toNat * 0x10000 + w.toNat * 0x400000 + opByte a * 0x1000000
  | .atom d a o c w => 0x14d + d.toNat * 0x400 + opByte a * 0x10000 + o.toNat * 0x1000000 + c.toNat * 0x8000000 + w.toNat * 0x40000000
  | .atomr d a o c w => 0x151 + d.toNat * 0x400 + opByte a * 0x10000 + o.toNat * 0x1000000 + c.toNat * 0x8000000 + w.toNat * 0x40000000
  | .cas d a c w => 0x153 + d.toNat * 0x400 + opByte a * 0x10000 + c.toNat * 0x8000000 + w.toNat * 0x40000000
  | .pref h s a => 0x155 + h.toNat * 0x400 + s.toNat * 0x10000 + opByte a * 0x1000000
  | .fence c k => 0x157 + c.toNat * 0x1000000 + k.toNat * 0x8000000
  | .cflush s a => 0x159 + s.toNat * 0x10000 + opByte a * 0x1000000
  | .cinv s a => 0x15b + s.toNat * 0x10000 + opByte a * 0x1000000
  | .tfence a c => 0x15d + opByte a * 0x10000 + c.toNat * 0x1000000
  | .tfenceAll c => 0x800015d + c.toNat * 0x1000000
  | .rstrel d s w a => 0x171 + d.toNat * 0x400 + s.toNat * 0x10000 + w.toNat * 0x400000 + opByte a * 0x1000000
  | .rstarv d s w a => 0x173 + d.toNat * 0x400 + s.toNat * 0x10000 + w.toNat * 0x400000 + opByte a * 0x1000000
  | .rfence d a w => 0x175 + d.toNat * 0x400 + opByte a * 0x10000 + w.toNat * 0x1000000
  | .cpy s r o => 0x181 + s.toNat * 0x400 + r.toNat * 0x10000 + o.toNat * 0x200000
  | .cpyr s r o => 0x183 + s.toNat * 0x400 + r.toNat * 0x10000 + o.toNat * 0x200000
  | .cpym s r o => 0x185 + s.toNat * 0x400 + r.toNat * 0x10000 + o.toNat * 0x200000
  | .cpyt o a n g => 0x187 + o.toNat * 0x400 + opByte a * 0x10000 + n.toNat * 0x1000000 + g.toNat * 0x20000000
  | .cpywait m => 0x189 + m.toNat * 0x1000000
  | .cpyq d a c n => 0x18b + d.toNat * 0x400 + opByte a * 0x10000 + c.toNat * 0x1000000 + n.toNat * 0x8000000
  | .cpystatCount d => 0x18d + d.toNat * 0x400
  | .cpystatBitmap d => 0x100018d + d.toNat * 0x400
  | .cpystatTags d => 0x200018d + d.toNat * 0x400
  | .cpycan d a => 0x191 + d.toNat * 0x400 + opByte a * 0x10000
  | .cpycanAll d => 0x1000191 + d.toNat * 0x400
  | .tdef d a => 0x1a1 + d.toNat * 0x400 + opByte a * 0x10000
  | .tld d t f a => 0x1a3 + d.toNat * 0x400 + t.toNat * 0x10000 + f.toNat * 0x100000 + opByte a * 0x1000000
  | .tst d t f a => 0x1a5 + d.toNat * 0x400 + t.toNat * 0x10000 + f.toNat * 0x100000 + opByte a * 0x1000000
  | .tldc d t f a => 0x1a7 + d.toNat * 0x400 + t.toNat * 0x10000 + f.toNat * 0x100000 + opByte a * 0x1000000
  | .tarm t a => 0x1a9 + t.toNat * 0x10000 + opByte a * 0x1000000
  | .twait t => 0x1ab + t.toNat * 0x10000
  | .ttest d t => 0x1ad + d.toNat * 0x400 + t.toNat * 0x10000
  | .tclr t => 0x1b1 + t.toNat * 0x10000
  | .tfill t a => 0x1b3 + t.toNat * 0x10000 + opByte a * 0x1000000
  | .tzero t => 0x1b5 + t.toNat * 0x10000
  | .scld d t a => 0x1b7 + d.toNat * 0x400 + t.toNat * 0x10000 + opByte a * 0x1000000
  | .mma k c a b m => 0x1c1 + k.toNat * 0x400 + c.toNat * 0x2000 + a.toNat * 0x10000 + b.toNat * 0x100000 + m.toNat * 0x40000000
  | .mmag k c a b x m => 0x1c3 + k.toNat * 0x400 + c.toNat * 0x2000 + a.toNat * 0x10000 + b.toNat * 0x100000 + x.toNat * 0x1000000 + m.toNat * 0x40000000
  | .mmas k c a b m => 0x1c5 + k.toNat * 0x400 + c.toNat * 0x2000 + a.toNat * 0x10000 + b.toNat * 0x100000 + m.toNat * 0x40000000
  | .mmags k c a b x m => 0x1c7 + k.toNat * 0x400 + c.toNat * 0x2000 + a.toNat * 0x10000 + b.toNat * 0x100000 + x.toNat * 0x1000000 + m.toNat * 0x40000000
  | .mzero k m => 0x1c9 + k.toNat * 0x400 + m.toNat * 0x40000000
  | .mrd d t f a => 0x1cb + d.toNat * 0x400 + t.toNat * 0x10000 + f.toNat * 0x100000 + opByte a * 0x1000000
  | .mwr d t f a => 0x1cd + d.toNat * 0x400 + t.toNat * 0x10000 + f.toNat * 0x100000 + opByte a * 0x1000000
  | .mstore k => 0x1d1 + k.toNat * 0x400
  | .mprogWrite a w => 0x1d3 + opByte a * 0x10000 + w.toNat * 0x1000000
  | .mprogRead d w => 0x800001d3 + d.toNat * 0x400 + w.toNat * 0x1000000
  | .entryPromotion _ _ _ _ => 0
  | .pollingRetest _ _ _ _ => 0
  | .walkStart _ => 0
  | .walkComplete _ _ => 0
  | .sectorFill _ _ => 0
  | .memoryReturnComplete _ _ _ _ => 0
  | .storeQueueDrain _ _ _ => 0
  | .storeAck _ _ _ => 0
  | .dirtyLineWriteback _ _ => 0
  | .dirtyLineAgeExpiry _ _ => 0
  | .cacheEviction _ _ => 0
  | .homeWriteback _ => 0
  | .wayReductionLine _ _ _ => 0
  | .wayReductionComplete _ => 0
  | .routerPacket _ => 0
  | .rstrelPerform _ _ _ _ => 0
  | .fabricRetryTimer _ _ => 0
  | .fabricAttemptTimeout _ _ => 0
  | .copyElementLand _ _ _ => 0
  | .copyComplete _ _ => 0
  | .cpytComplete _ _ => 0
  | .matrixOpStart _ _ => 0
  | .matrixKStep _ _ => 0
  | .matrixOpComplete _ _ => 0
  | .poolGrant _ _ => 0
  | .queueNop _ _ => 0
  | .queueLaunch _ _ => 0
  | .queueCopy _ _ _ => 0
  | .queueWaittile _ _ => 0
  | .queueWaitval _ _ => 0
  | .waitvalPoll _ _ => 0
  | .queueSignal _ _ => 0
  | .queueFencemark _ _ => 0
  | .clusterPlacement _ _ _ => 0
  | .rangeSplit _ _ => 0
  | .teamExitRelease _ _ => 0
  | .successorListRead _ _ => 0
  | .launchComplete _ => 0
  | .preemption _ => 0
  | .quiescenceReached _ => 0
  | .clusterRollback _ _ _ => 0
  | .watchdogHang _ => 0
  | .partitionReset _ _ => 0
  | .invalidationComplete _ => 0
  | .precopyRound _ => 0
  | .stopPhase _ => 0
  | .mirrorWindowExpiry _ => 0
  | .checkpointCapture _ => 0
  | .checkpointPartialTimeout _ => 0
  | .checkpointTimer _ => 0
  | .zeroLengthReadCompletion _ _ _ => 0
  | .pageReplyRetry _ _ => 0
  | .pageReplyRefuse _ _ => 0
  | .patrolScrub _ => 0
  | .linkDown _ => 0
  | .fabricRead _ => 0
  | .fabricStore _ => 0
  | .fabricAtomic _ => 0
  | .fabricRstrel _ => 0
  | .fabricRstarv _ => 0
  | .fabricReducingWrite _ => 0
  | .fabricClosePacket _ => 0
  | .fabricOk _ _ _ _ => 0
  | .fabricNack _ _ _ => 0
  | .nackMoved _ _ => 0
  | .fabricFault _ _ _ _ => 0
  | .tlbInvalidationMessage _ _ _ _ _ => 0
  | .tlbInvalidationAck _ _ => 0
  | .doorbellWrite _ _ => 0
  | .faultRecordWrite => 0
  | .teamResume _ _ => 0
  | .svcReplySeq _ _ => 0
  | .svcReplyValue _ _ => 0
  | .imageRestore _ _ _ => 0
  | .tagParityError _ _ _ => 0
  | .thermalThrottle => 0
  | .thermalShutdown => 0
  | .bringUp => 0
  | .firmwareLoad _ _ => 0
  | .attestationRequest _ _ => 0
  | .hostWindowRead _ _ _ => 0
  | .hostWindowWrite _ _ _ => 0
  | .mctpRead _ => 0
  | .registerWrite _ _ _ => 0
  | .ringSetup _ _ _ _ => 0
  | .ringReadIndexWrite _ _ _ => 0
  | .errcntClear _ _ _ => 0
  | .statusClear _ _ => 0
  | .queueUnbind _ _ => 0
  | .queueBind _ _ => 0
  | .queueSelect _ _ => 0
  | .queueRestart _ _ => 0
  | .configWrite _ _ _ _ => 0
  | .stage2Invalidate _ _ => 0
  | .gridWrite _ => 0
  | .migrateStart _ => 0
  | .migrateStop _ => 0
  | .migrateForceStop _ => 0
  | .migrateAbandon _ => 0
  | .migrateReceive _ => 0
  | .checkpointAtStep _ => 0
  | .checkpointByTimer _ => 0
  | .recordMode _ => 0
  | .replayMode _ => 0
  | .normalMode _ => 0
  | .heldRequestReplay _ => 0
  | .forwardPacket _ => 0
  | .checkpointQuery _ _ => 0
  | .checkpointQueryReply _ _ _ => 0
  | .checkpointStepSet _ _ => 0
  | .keySlotLoad _ _ _ => 0
  | .linkUp _ => 0
  | .configurationRequest _ _ => 0

/-- The bytes of an instruction. -/
def encode (i : Instr) : List Byte := leBytes (encodeWord i) (size i)

end Sys2Proof.Machine

namespace Sys2Proof

/-- The instruction that the decoder reads from bits `w`, numbered from the first halfword up; bits above `nbits` are 0. -/
def decodeTableWord (nbits w : Nat) : Option Instr :=
  match Machine.decode (Machine.leBytes (w % 2 ^ nbits) 4) with
  | .ok (i, _) => some i
  | .error _ => none

end Sys2Proof
end

