-- ==== Sys2Proof/Config.lean ====
section
/-! DEFINITION. What the LZ-640 fixes (sizes of chapter 01, 04, 06) and the free values: constants without a body,
so that no proof can know what they are. -/

namespace Sys2Proof.Config

/-- Device memory ends here (03 Table 3-1). -/
abbrev deviceEnd : Nat := 0xC000000000
/-- The host window begins here (03 Table 3-1). -/
abbrev hostBase : Nat := 0x8000000000000
/-- System physical addresses end here (03 R54). -/
abbrev spaEnd : Nat := 0x10000000000000
/-- Core-cache dirty-line FIFO entries (04 R83). -/
abbrev fifoSize : Nat := 512
/-- Ways of a core cache of 320 KiB, and lines of each (04 Table 4-1). -/
abbrev coreWays : Nat := 20
abbrev coreWayLines : Nat := 128
/-- Lines of one way of a home cache (192 MiB, 24 ways) and of a stack cache (128 MiB, 16 ways) (04 Table 4-1). -/
abbrev wayLines : Nat := 65536
/-- Markers of a core (04 R83). -/
abbrev markerMax : Nat := 64
/-- Miss slots of a core (04 R82). -/
abbrev missSlots : Nat := 256
/-- Store-queue entries of a gang (04 R81). -/
abbrev stqSize : Nat := 16
/-- Fabric requester entries of a core (05 R108). -/
abbrev requesters : Nat := 512
/-- Stream-table entries of a device (05 R120). -/
abbrev streamTable : Nat := 4096
/-- Wait-table entries of a core (07 R164). -/
abbrev waitTable : Nat := 512
/-- Entries of a die's walk queue, and its walkers (03 R72). -/
abbrev walkQueue : Nat := 1024
abbrev walkers : Nat := 32
/-- Core and die TLB entries (03 R71). -/
abbrev coreTlb : Nat := 256
abbrev dieTlb : Nat := 16384
/-- Cycles of the 2.25 GHz core clock in a microsecond (00 R2). -/
abbrev cyclesPerUs : Nat := 2250

/-- Free value: which of `k + 1` listed results hardware takes, at the n-th choice (02 R17). -/
opaque choice : Nat → Nat
/-- Free value: which result within the bound of Table 10-7 function number `f` gives for these input bits (10 R225). -/
opaque funcChoice : Nat → W64 → Nat
/-- Free value: the byte of host memory at an address, at the n-th host read (03 R55): the host is outside the machine. -/
opaque hostByte : Nat → Nat → Byte
/-- Free value: the age, in units of 125 ns, that the n-th packet to pass the router gains there (05 R109). -/
opaque transit : Nat → Nat
/-- Free values: the credits that a port holds on a channel at the n-th look (number 32 × channel + port; channels 0 minimal, 1 detour,
2 reply), and those of an idle port (05 R105, R106). -/
opaque credits : Nat → Nat → Nat
opaque portCredits : Nat
/-- Free function: whether a signature over a firmware image is the release key's (16 R360). -/
opaque firmwareSigned : List Byte → BitVec 512 → Bool
/-- Free function: the SHA-512 digest of a byte string (16 R360). -/
opaque sha512 : List Byte → BitVec 512
/-- Free function: the Ed25519 signature under the device's identity key, which cannot be read (16 R360). -/
opaque identitySign : BitVec 512 → BitVec 512
/-- Free values: readings of the sensors behind the sideband port (16 R363). -/
opaque sensor : Nat → W64

end Sys2Proof.Config
end

