-- ==== Sys2Proof/Machine/Access.lean ====
section
/-! DEFINITION. Finding and changing the parts of the device: cores, dies, functions, launches, teams, gangs, entries. -/

namespace Sys2Proof.Machine

/-! ### Cells: a list of (address, byte) pairs, strictly rising, no byte equal to 0 (03 R60) -/

/-- The byte at an address; an unlisted byte reads 0. -/
def cellGet : List Host.Cell → Nat → Byte
  | [], _ => 0
  | (a, b) :: t, x => if a = x then b else if x < a then 0 else cellGet t x

/-- Write a byte, keeping the canonical form. -/
def cellSet (m : List Host.Cell) (x : Nat) (v : Byte) : List Host.Cell :=
  match m with
  | [] => if v = 0 then [] else [(x, v)]
  | (a, b) :: t =>
    if x < a then (if v = 0 then (a, b) :: t else (x, v) :: (a, b) :: t)
    else if x = a then (if v = 0 then t else (x, v) :: t)
    else (a, b) :: cellSet t x v

/-- The canonical form of a cell list: addresses rise strictly and no listed byte is 0. -/
def cellsFrom : Nat → List Host.Cell → Bool
  | _, [] => true
  | lo, (a, b) :: t => decide (lo ≤ a) && decide (b ≠ 0) && cellsFrom (a + 1) t

/-- Is a memory in its canonical form? -/
def Memory.wf (m : List Host.Cell) : Bool := cellsFrom 0 m

/-- Write bytes from an address upward. -/
def cellPut (m : List Host.Cell) (x : Nat) : List Byte → List Host.Cell
  | [] => m
  | b :: t => cellPut (cellSet m x b) (x + 1) t

/-- Read `n` bytes from an address upward. -/
def cellRead (m : List Host.Cell) (x n : Nat) : List Byte := (rangeFrom x n).map (cellGet m)

/-! ### Units -/

def State.core (s : State) (id : Nat) : Core := (s.cores.find? (·.id == id)).getD (.reset id)
def State.setCore (s : State) (c : Core) : State := { s with cores := putBy (·.id == c.id) c s.cores }
def State.modCore (s : State) (id : Nat) (f : Core → Core) : State := s.setCore { f (s.core id) with id := id }

def State.die (s : State) (id : Nat) : Die := (s.dies.find? (·.id == id)).getD (.reset id)
def State.setDie (s : State) (d : Die) : State := { s with dies := putBy (·.id == d.id) d s.dies }
def State.modDie (s : State) (id : Nat) (f : Die → Die) : State := s.setDie { f (s.die id) with id := id }

def State.func (s : State) (id : Nat) : Func := (s.funcs.find? (·.id == id)).getD (.reset id)
def State.setFunc (s : State) (f : Func) : State := { s with funcs := putBy (·.id == f.id) f s.funcs }
def State.modFunc (s : State) (id : Nat) (f : Func → Func) : State := s.setFunc { f (s.func id) with id := id }

def State.launch? (s : State) (id : Nat) : Option Launch := s.launches.find? (·.id == id)
def State.modLaunch (s : State) (id : Nat) (f : Launch → Launch) : State :=
  { s with launches := modIf (·.id == id) f s.launches }

def State.team? (s : State) (l t : Nat) : Option Team := s.teams.find? fun x => x.launch == l && x.num == t
def State.modTeam (s : State) (l t : Nat) (f : Team → Team) : State :=
  { s with teams := modIf (fun x => x.launch == l && x.num == t) f s.teams }

def State.gang? (s : State) (l t g : Nat) : Option Gang := (s.team? l t).bind fun x => x.gangs[g]?
def State.modGang (s : State) (l t g : Nat) (f : Gang → Gang) : State :=
  s.modTeam l t fun x => { x with gangs := modAt x.gangs g f }

def Gang.entry? (g : Gang) (eid : Nat) : Option Entry := g.frontier.find? (·.eid == eid)
def Gang.modEntry (g : Gang) (eid : Nat) (f : Entry → Entry) : Gang :=
  { g with frontier := modIf (·.eid == eid) f g.frontier }
def State.modEntry (s : State) (l t g eid : Nat) (f : Entry → Entry) : State :=
  s.modGang l t g (·.modEntry eid f)

/-- Core number of a team, 0 when there is none. -/
def State.coreOf (s : State) (l t : Nat) : Nat := ((s.team? l t).map (·.core)).getD 0
/-- Function of a team. -/
def State.funcOf (s : State) (l t : Nat) : Nat := ((s.team? l t).map (·.func)).getD 0

/-- Bay of a core, die of a bay (01 R8: eight cores a bay, ten bays a die). -/
def bayOf (core : Nat) : Nat := core / 8
def dieOfCore (core : Nat) : Nat := core / 80

/-- A fresh number for an identifier. -/
def State.take (s : State) : Nat × State := (s.fresh, { s with fresh := s.fresh + 1 })

/-- Does a bay belong to the function's partition (16 Table 16-3)? -/
def Func.hasBay (f : Func) (b : Nat) : Bool := f.cfg.bays.getLsbD b

/-- Bays of a partition in increasing order. -/
def Func.bayList (f : Func) : List Nat := (rangeFrom 0 80).filter f.hasBay

/-- Physical device number of this device (05 R103). -/
def State.device (s : State) : Nat := fld s.grid.toNat 12 4 * 16 + fld s.grid.toNat 8 4
def State.gridW (s : State) : Nat := fld s.grid.toNat 0 4 + 1
def State.gridH (s : State) : Nat := fld s.grid.toNat 4 4 + 1

/-- A typed buffer of a core. -/
def Core.buf (c : Core) : Buf → BufState
  | .wb => c.wb
  | .ab => c.ab
  | .cb => c.cb
  | .sb => c.sb
def Core.setBuf (c : Core) (b : Buf) (x : BufState) : Core :=
  match b with
  | .wb => { c with wb := x }
  | .ab => { c with ab := x }
  | .cb => { c with cb := x }
  | .sb => { c with sb := x }
def Core.modBuf (c : Core) (b : Buf) (f : BufState → BufState) : Core := c.setBuf b (f (c.buf b))

/-- Tile size and size of each buffer (07 Table 7-2). -/
def tileSize : Buf → Nat
  | .cb => 65536
  | _ => 4096
def bufSize : Buf → Nat
  | .wb => 786432
  | .ab => 786432
  | .cb => 524288
  | .sb => 65536

/-- Buffers by their two-bit code (03 Table 3-7a, 07 Table 7-3). -/
def bufOf : Nat → Buf
  | 0 => .wb
  | 1 => .ab
  | 2 => .cb
  | _ => .sb
def bufCode : Buf → Nat
  | .wb => 0
  | .ab => 1
  | .cb => 2
  | .sb => 3

/-- First tile and tiles of a team's allotment in a buffer (07 R155). -/
def Team.base (t : Team) : Buf → Nat
  | .wb => t.wbBase
  | .ab => t.abBase
  | .cb => t.accBase
  | .sb => t.sbBase
def Team.tilesIn (t : Team) : Buf → Nat
  | .wb => t.wbTiles
  | .ab => t.abTiles
  | .cb => t.acc
  | .sb => t.sbTiles

end Sys2Proof.Machine
end

