-- ==== Sys2Proof/Machine/Regs.lean ====
section
/-! DEFINITION. A gang's registers: map, forms, quota, held live-ins and pools (chapter 08), and region records (13 R298). -/

namespace Sys2Proof.Machine

/-! ### Reading -/

def Gang.vreg (g : Gang) (r : Nat) : Option VReg := (g.vmap[r]?).join
/-- The 32 lanes of a vector register; an unmapped one reads zero (08 R174). -/
def Gang.lanes (g : Gang) (r : Nat) : List W32 :=
  match g.vreg r with
  | some v => v.lanes
  | none => List.replicate 32 0
/-- Tag of a vector register; NONE when unmapped (08 R174). -/
def Gang.tag (g : Gang) (r : Nat) : Tag :=
  match g.vreg r with
  | some v => v.tag
  | none => .none
/-- A uniform register; an unmapped one reads zero (08 R174). -/
def Gang.uni (g : Gang) (r : Nat) : W64 := ((g.smap[r]?).join).getD 0
/-- Predicate `p` as a mask; p0 is always true (08 R171). -/
def Gang.pred (g : Gang) (p : Nat) : Mask := if p = 0 then BitVec.allOnes 32 else g.preds.getD p 0
/-- Tile register `t` (07 R158). -/
def Gang.treg (g : Gang) (t : Nat) : BitVec 128 := g.tregs.getD t 0
/-- Completion flag `k` (02 R20). -/
def Gang.flag (g : Gang) (k : Nat) : Nat := g.flags.getD k 0

/-! ### Live-ins and what the gang holds (08 R179, 13 R298) -/

def Region.vform? (r : Region) (k : Nat) : Option Form := (r.vlive.find? (·.1 == k)).map (·.2.form)
def Region.sLive (r : Region) (k : Nat) : Bool := r.slive.any (·.1 == k)

def regs64 : List Nat := rangeFrom 0 64

/-- hv: mapped registers in full form, and those held for the region record (08 R179). -/
def Gang.hv (g : Gang) : Nat :=
  (regs64.filter fun r => ((g.vreg r).map (·.form)) == some .full).length +
  (regs64.filter fun r => g.region.heldV.getLsbD r && g.region.vform? r == some .full).length
/-- hs: mapped uniform registers, and those held for the region record (08 R179). -/
def Gang.hs (g : Gang) : Nat :=
  (regs64.filter fun r => ((g.smap[r]?).join).isSome).length +
  (regs64.filter fun r => g.region.heldS.getLsbD r).length
/-- Uniform-pool entries that vector registers in uniform form take, outside the quota (08 R177, R179). -/
def Gang.entries (g : Gang) : Nat :=
  (regs64.filter fun r => ((g.vreg r).map (·.form)) == some .uni).length +
  (regs64.filter fun r => g.region.heldV.getLsbD r && g.region.vform? r == some .uni).length

/-- Registers of a class that grants have lent to waiting writes and completions of the gang. -/
def Gang.lentOf (g : Gang) (uni : Bool) : Nat := ((g.lent.filter (·.uni == uni)).map (·.count)).sum
/-- The write or completion that waited takes up what it was lent. -/
def Gang.unlend (g : Gang) (k : ClaimKind) (ref : Nat) : Gang := { g with lent := g.lent.filter fun x => !(x.kind == k && x.ref == ref) }
/-- Is there still an entry or an operation that waits with what it was lent? -/
def Gang.wants (g : Gang) (x : Lent) : Bool :=
  match x.kind with
  | .completion => g.ops.any (·.id == x.ref)
  | _ => g.frontier.any (·.eid == x.ref)

/-- What a gang has taken from each pool. A gang that must hold more than 64 registers (a live-in overwritten with all 64
taken) takes them from the pool while qv stays 64 (log 7, DESIGN CHOICE: 08 R180 and 13 R298). -/
def Gang.takenV (g : Gang) : Nat := max g.qv g.hv + g.lentOf false
def Gang.takenS (g : Gang) : Nat := max g.qs g.hs + g.entries + g.lentOf true

/-- After a change: qv and qs rise to what is held, never past 64 (08 R180), and an odd register whose pair partner has left
the shared entry holds that entry itself. Registers lent to an entry or operation that is no more go back. -/
def Gang.settle (g : Gang) : Gang :=
  let fix := g.vmap.mapIdx fun i v =>
    match v with
    | some x =>
      if x.form == .shared then
        let mate := ((g.vreg (i - 1)).map (·.form)) == some .uni ||
          (g.region.heldV.getLsbD (i - 1) && g.region.vform? (i - 1) == some .uni)
        some (if mate then x else { x with form := .uni })
      else some x
    | none => none
  let g1 := { g with vmap := fix }
  { g1 with qv := min 64 (max g1.qv g1.hv), qs := min 64 (max g1.qs g1.hs), lent := g1.lent.filter g1.wants }

/-- A live-in that is about to be overwritten or freed keeps its recorded value's storage (13 R298). -/
def Gang.holdV (g : Gang) (r : Nat) : Gang :=
  if (g.region.vform? r).isSome && (g.vreg r).isSome then
    { g with region := { g.region with heldV := g.region.heldV ||| (1#64 <<< r) } }
  else g
def Gang.holdS (g : Gang) (r : Nat) : Gang :=
  if g.region.sLive r && ((g.smap[r]?).join).isSome then
    { g with region := { g.region with heldS := g.region.heldS ||| (1#64 <<< r) } }
  else g

/-! ### Writing -/

/-- Lanes of `new` where the mask is set, lanes of `old` elsewhere (08 R173). -/
def mergeLanes (m : Mask) (old new : List W32) : List W32 :=
  lanes32.map fun i => if m.getLsbD i then new.getD i 0 else old.getD i 0

/-- Write lanes of a vector register in full form: maps it if unmapped, expands uniform form (08 R173, R174, R178). -/
def Gang.putV (g : Gang) (r : Nat) (m : Mask) (vals : List W32) (tag : Tag) : Gang :=
  { g.holdV r with vmap := setAt g.vmap r (some ⟨mergeLanes m (g.lanes r) vals, tag, .full⟩) }

/-- Write a vector register in uniform form (08 R177): every one of the gang's `n` lanes reads `v`. An odd half that shared the old
entry keeps it. -/
def Gang.putUniform (g : Gang) (r n : Nat) (v : W32) (tag : Tag) (form : Form) : Gang :=
  { g.holdV r with
    vmap := modAt (setAt g.vmap r (some ⟨lanes32.map fun i => if i < n then v else 0, tag, form⟩)) (r + 1) fun y =>
      y.map fun x => if x.form == .shared then { x with form := .uni } else x }

/-- Write a uniform register. -/
def Gang.putS (g : Gang) (r : Nat) (v : W64) : Gang := { g.holdS r with smap := setAt g.smap r (some v) }

/-- Write predicate lanes; a write to p0 is ignored (08 R171). -/
def Gang.putP (g : Gang) (p : Nat) (m v : Mask) : Gang :=
  if p = 0 then g else { g with preds := setAt g.preds p ((g.preds.getD p 0 &&& ~~~ m) ||| (v &&& m)) }

/-- Unmap a register (08 R175, R189). Freeing an unmapped register is ignored. -/
def Gang.freeV (g : Gang) (r : Nat) : Gang :=
  if (g.vreg r).isSome then { g.holdV r with vmap := setAt g.vmap r none } else g
def Gang.freeS (g : Gang) (r : Nat) : Gang :=
  if ((g.smap[r]?).join).isSome then { g.holdS r with smap := setAt g.smap r none } else g

/-- Count a flag up or down; 15 names none (02 R20). -/
def Gang.flagUp (g : Gang) (k : Nat) : Gang :=
  if k < 12 then { g with flags := modAt g.flags k (· + 1) } else g
def Gang.flagDown (g : Gang) (k : Nat) : Gang :=
  if k < 12 then { g with flags := modAt g.flags k (· - 1) } else g
/-- Would a count-up pass 63? -/
def Gang.flagFull (g : Gang) (k : Nat) : Bool := decide (k < 12) && decide (63 ≤ g.flag k)

/-! ### Regions (02 R39, 13 R298) -/

/-- An entry as a region record keeps it. -/
def Entry.record (e : Entry) : RecEntry := ⟨e.pc, e.mask, e.prio, e.st, e.setA, e.setB⟩

def allRegs : BitVec 64 := BitVec.allOnes 64

/-- Begin a region: the frontier as it stands, the live-ins, predicates, tile registers, patterns, rounding mode and step. A live-in
that is not mapped enters the record when a pending write maps it. -/
def Gang.beginRegion (g : Gang) (mv ms : BitVec 64) : Gang :=
  let vs := regs64.filterMap fun r => if mv.getLsbD r then (g.vreg r).map fun v => (r, v) else none
  let ss := regs64.filterMap fun r => if ms.getLsbD r then ((g.smap[r]?).join).map fun v => (r, v) else none
  ({ g with
      region := { num := g.region.num + 1
                  entries := g.frontier.map Entry.record
                  vmask := mv
                  smask := ms
                  vlive := vs
                  slive := ss
                  heldV := 0
                  heldS := 0
                  preds := g.preds
                  tregs := g.tregs
                  lpa := g.lpa
                  lpb := g.lpb
                  round := g.round
                  step := g.step
                  draws := [] }
      replay := [] }).settle

/-! ### Pools (08 R179 to R181) -/

/-- Can the core give the gang what it takes on going from `g` to `g'`? An older claim on the pool comes first (R181). -/
inductive Room where
  | ok
  | wait (uni : Bool) (n : Nat)
deriving DecidableEq, Repr

def Core.room (c : Core) (g g' : Gang) : Room :=
  let nv := g'.takenV - g.takenV
  let ns := g'.takenS - g.takenS
  if nv ≠ 0 && (decide (c.poolV < nv) || c.claims.any (fun x => !x.uni)) then .wait false nv
  else if ns ≠ 0 && (decide (c.poolS < ns) || c.claims.any (fun x => x.uni)) then .wait true ns
  else .ok

/-- Replace a gang and account for what it takes or returns. -/
def State.putGang (s : State) (l t gi : Nat) (g' : Gang) : State :=
  match s.gang? l t gi with
  | none => s
  | some g =>
    let core := s.coreOf l t
    (s.modGang l t gi fun _ => g').modCore core fun c =>
      { c with poolV := c.poolV + g.takenV - g'.takenV, poolS := c.poolS + g.takenS - g'.takenS }

/-- Begin to wait for registers (08 R181): one claim for each waiting entry or operation. -/
def Core.claim (c : Core) (x : Claim) : Core :=
  if c.claims.any fun y => y.launch == x.launch && y.team == x.team && y.gang == x.gang && y.ref == x.ref && y.kind == x.kind
  then c else { c with claims := c.claims ++ [x] }

/-- SR_QUOTA and SR_POOL words (08 Table 8-6). -/
def Gang.quotaWord (g : Gang) : W32 := BitVec.ofNat 32 (g.qv + g.qs * 256 + g.hv * 65536 + g.hs * 16777216)
def Core.poolWord (c : Core) : W32 := BitVec.ofNat 32 (c.poolV % 65536 + c.poolS % 65536 * 65536)

end Sys2Proof.Machine
end

