-- ==== Sys2Proof/Machine/Memory.lean ====
section
/-! DEFINITION. Device memory, poison and check bits, the stack, home and core caches (chapters 03 and 04). -/

namespace Sys2Proof.Machine

/-! ### Placement (03 R56) -/

/-- Stack that holds a device-memory address. -/
def stackOf (a : Nat) : Nat := fld a 8 4 ^^^ fld a 12 4
/-- Byte within the stack. -/
def stackByte (a : Nat) : Nat := fld a 12 28 * 256 + fld a 0 8
/-- Die whose home cache owns the address. -/
def homeDie (a : Nat) : Nat := stackOf a / 2

def sectorOf (a : Nat) : Nat := a / 32
def lineOf (a : Nat) : Nat := a / 128
def granuleOf (a : Nat) : Nat := a / 4096

/-! ### Error counters (14 R339) -/

/-- A half of a counter counts up to all ones. -/
def satInc (n : Nat) : Nat := if n + 1 < 2 ^ 32 then n + 1 else 2 ^ 32 - 1

/-- Count an error attributed to a function. -/
def State.countErr (s : State) (f idx : Nat) : State :=
  s.modFunc f fun x => { x with errcnt := modAt x.errcnt idx fun c => (satInc c.1, c.2) }

/-- Count an error of shared origin in the functions that satisfy `p`. -/
def State.countShared (s : State) (p : Func → Bool) (idx : Nat) : State :=
  { s with funcs := modIf p (fun x => { x with errcnt := modAt x.errcnt idx fun c => (c.1, satInc c.2) }) s.funcs }

/-! ### Sectors and their codewords (03 R57 to R59) -/

/-- Count an error that a stack met: in the function charged, or shared by every function that holds a partition. -/
def State.countStack (s : State) (who : Option Nat) (idx : Nat) : State :=
  match who with
  | some f => s.countErr f idx
  | none => s.countShared (fun f => f.cfg.bays != 0) idx
def State.modStackCnt (s : State) (sec : Nat) (f : StackCnt → StackCnt) : State :=
  { s with stackCnt := modAt s.stackCnt (stackOf (sec * 32)) f }

/-- The stack's own on-die correction, which acts before the controller checks the sector (R58). -/
def State.onDie (s : State) (sec : Nat) (who : Option Nat) : State :=
  if s.dieFlips.contains sec then
    (({ s with dieFlips := s.dieFlips.filter (· != sec) }).modStackCnt sec fun c => { c with onDie := c.onDie + 1 }).countStack who 0
  else s

/-- A read of a sector by its controller: no flip, one flip corrected, or more marked poisoned (Table 3-3). `who` is the
function charged, none for a scrub. A corrected flip of the poison bit (position 256) changes nothing stored, since
`poison` is the codeword's poison bit as written. -/
def State.readSector (s : State) (sec : Nat) (who : Option Nat) : State :=
  let s0 := s.onDie sec who
  match s0.flips.filter (·.1 == sec) with
  | [] => s0
  | [_] =>
    (({ s0 with flips := s0.flips.filter (·.1 != sec) }).modStackCnt sec fun c =>
      { c with corrected := c.corrected + 1 }).countStack who 1
  | _ =>
    -- the rewrite of a poisoned sector sets its granule's dirty bit (15 R340)
    (({ s0 with flips := s0.flips.filter (·.1 != sec)
                poison := insertNat sec s0.poison
                bitmap := insertNat (granuleOf (sec * 32)) s0.bitmap }).modStackCnt sec fun c =>
      { c with uncorrectable := c.uncorrectable + 1 }).countStack who 2

/-! ### Lines -/

def Line.byte (l : Line) (off : Nat) : Byte := l.data.extractLsb' (8 * off) 8
def Line.setByte (l : Line) (off : Nat) (b : Byte) (dirty : Bool) : Line :=
  let clear := ~~~ (255#1024 <<< (8 * off))
  { l with data := (l.data &&& clear) ||| ((b.setWidth 1024) <<< (8 * off))
           valid := l.valid ||| (1#128 <<< off)
           dirty := if dirty then l.dirty ||| (1#128 <<< off) else l.dirty }
def Line.putBytes (l : Line) (off : Nat) (dirty : Bool) : List Byte → Line
  | [] => l
  | b :: t => (l.setByte off b dirty).putBytes (off + 1) dirty t

/-- Byte mask of sector k of a line. -/
def sectorMask (k : Nat) : BitVec 128 := (0xFFFFFFFF#128) <<< (32 * k)
def Line.sectorPoison (l : Line) (k : Nat) : Bool := l.poison.getLsbD k
def Line.setPoison (l : Line) (k : Nat) (v : Bool) : Line :=
  { l with poison := if v then l.poison ||| (1#4 <<< k) else l.poison &&& ~~~ (1#4 <<< k) }
def Line.empty (addr way func : Nat) : Line :=
  ⟨addr, 0, 0, 0, 0, way, func, 0, [none, none, none, none], 0⟩

def findLine (ls : List Line) (addr : Nat) : Option Line := ls.find? (·.addr == addr)
def putLine (ls : List Line) (l : Line) : List Line := putBy (·.addr == l.addr) l ls
def dropLine (ls : List Line) (addr : Nat) : List Line := ls.filter (·.addr != addr)

/-! ### What lies below the homes -/

/-- Byte of an address as the stack cache over the stack holds it. -/
def State.stackGet (s : State) (a : Nat) : Byte :=
  match findLine s.stack (lineOf a) with
  | some l => if l.valid.getLsbD (a % 128) then l.byte (a % 128) else cellGet s.mem a
  | none => cellGet s.mem a
def State.stackPoison (s : State) (sec : Nat) : Bool :=
  match findLine s.stack (sec / 4) with
  | some l => if l.valid.getLsbD (32 * (sec % 4)) then l.sectorPoison (sec % 4) else s.poison.contains sec
  | none => s.poison.contains sec

/-- Byte of an address as its home serves it: the latest write performed there (04 R78). -/
def State.homeGet (s : State) (a : Nat) : Byte :=
  match findLine s.home (lineOf a) with
  | some l => if l.valid.getLsbD (a % 128) then l.byte (a % 128) else s.stackGet a
  | none => s.stackGet a
def State.homePoison (s : State) (sec : Nat) : Bool :=
  match findLine s.home (sec / 4) with
  | some l => if l.valid.getLsbD (32 * (sec % 4)) then l.sectorPoison (sec % 4) else s.stackPoison sec
  | none => s.stackPoison sec
def State.homeRead (s : State) (a n : Nat) : List Byte := (rangeFrom a n).map s.homeGet
/-- Does any byte of the range lie in a poisoned sector? -/
def State.homePoisoned (s : State) (a n : Nat) : Bool :=
  (rangeFrom (sectorOf a) (sectorOf (a + n - 1) + 1 - sectorOf a)).any s.homePoison

/-- Sector content as a number, for the history of R17. -/
def State.sectorData (s : State) (sec : Nat) : BitVec 256 := BitVec.ofNat 256 (leNat (s.homeRead (sec * 32) 32))

/-! ### Ways (04 Table 4-1, R85)

Each way of a home or stack cache holds 65,536 lines of its die or stack (192 MiB in 24 ways, 128 MiB in 16), and each way of a
core cache 128 (320 KiB in 20 ways). A new line takes the lowest way of the tenant's mask that has room; when none has, it takes
the place of the line that has been in those ways longest. Replacement within the mask changes only timing (R85; log 19). -/

/-- The first of the given ways that holds fewer than `cap` of the lines. -/
def freeWay (ls : List Line) (ways : List Nat) (cap : Nat) : Option Nat :=
  ways.find? fun w => decide ((ls.filter (·.way == w)).length < cap)
def waysOf (mask n : Nat) : List Nat := (rangeFrom 0 n).filter mask.testBit
/-- Way of a new line of a core cache. -/
def Core.way (c : Core) : Nat := (freeWay c.cache (rangeFrom 0 Config.coreWays) Config.coreWayLines).getD (Config.coreWays - 1)

/-! ### Stack caches (04 R77, 15 R340) -/

/-- Write a stack line's dirty sectors into the DRAM and drop the line. -/
def State.writeStackLine (s : State) (addr : Nat) : State :=
  match findLine s.stack addr with
  | none => s
  | some l =>
    let secs := (rangeFrom 0 4).filter fun k => l.dirty &&& sectorMask k != 0
    let s1 := secs.foldl (fun s k =>
      let sec := addr * 4 + k
      { s with mem := cellPut s.mem (sec * 32) ((rangeFrom (sec * 32) 32).map s.stackGet)
               poison := if l.sectorPoison k then insertNat sec s.poison else s.poison.filter (· != sec)
               flips := s.flips.filter (·.1 != sec)
               bitmap := insertNat (granuleOf (sec * 32)) s.bitmap }) s
    { s1 with stack := dropLine s1.stack addr }

/-- The way for a new line of a stack cache, and the state once that way has room. -/
def State.stackRoom (s : State) (addr func : Nat) : Nat × State :=
  let ways := waysOf (s.func func).cfg.sways.toNat 16
  let mine := s.stack.filter fun l => stackOf (l.addr * 128) == stackOf (addr * 128)
  match freeWay mine ways Config.wayLines with
  | some w => (w, s)
  | none =>
    match mine.find? (fun l => ways.contains l.way) with
    | some l => (l.way, s.writeStackLine l.addr)
    | none => (ways.headD 0, s)

/-- The stack cache's line of an address, or a new one. -/
def State.stackLine (s : State) (addr func : Nat) : Line × State :=
  match findLine s.stack addr with
  | some l => (l, s)
  | none => let (w, s1) := s.stackRoom addr func; (Line.empty addr w func, s1)

/-- A read of a sector that reaches a stack passes through the stack's cache, which takes the sector in (R77). -/
def State.stackFill (s : State) (sec func : Nat) : State :=
  let (l, s0) := s.stackLine (sec / 4) func
  if l.valid.getLsbD (32 * (sec % 4)) then s
  else
    let s1 := s0.readSector sec (some func)
    { s1 with stack := putLine s1.stack ((l.putBytes (32 * (sec % 4)) false (cellRead s1.mem (sec * 32) 32)).setPoison (sec % 4)
                (s1.poison.contains sec)) }

/-- Write a home line's dirty sectors into its stack cache; the dirty bits of the granule are set. -/
def State.writeHomeLine (s : State) (addr : Nat) : State :=
  match findLine s.home addr with
  | none => s
  | some l =>
    let s0 := s.modDie (homeDie (addr * 128)) fun d => { d with fifo := d.fifo.filter (· != addr) }
    if l.dirty = 0 then s0
    else
      let (st, s1) := s0.stackLine addr l.func
      let secs := (rangeFrom 0 4).filter fun k => l.dirty &&& sectorMask k != 0
      let st1 := secs.foldl (fun x k =>
        ((x.putBytes (32 * k) true ((rangeFrom (addr * 128 + 32 * k) 32).map s.homeGet)).setPoison k (l.sectorPoison k))) st
      { s1 with stack := putLine s1.stack st1
                home := putLine s1.home { l with dirty := 0 }
                bitmap := insertNat (granuleOf (addr * 128)) s1.bitmap }

/-- The home's dirty lines leave in FIFO order: those ahead of a line, and then the line (04 R78). -/
def State.homeOut (s : State) (addr : Nat) : State :=
  let q := (s.die (homeDie (addr * 128))).fifo
  if q.contains addr then (q.takeWhile (· != addr) ++ [addr]).foldl (fun s a => s.writeHomeLine a) s else s

/-! ### Home cache -/

/-- An open reduction entry of the sector closes when any other access to it is performed (05 R117). -/
def State.closeRed (s : State) (sec : Nat) : State := { s with reds := s.reds.filter (·.sector != sec) }

/-- Invalidate copies of a line in the named bays of the home's die: clean bytes lose their valid bits (04 R78, R79). -/
def State.invalidateCopies (s : State) (addr : Nat) (bays : BitVec 10) (keep : Option Nat) : State :=
  let d := homeDie (addr * 128)
  { s with cores := s.cores.map fun c =>
      if dieOfCore c.id = d && bays.getLsbD (bayOf c.id % 10) && keep != some c.id then
        { c with cache := modIf (·.addr == addr) (fun l => { l with valid := l.valid &&& l.dirty }) c.cache }
      else c }

/-- Drop a line of a home cache: the copies that its vector names lose their clean bytes with it. -/
def State.dropHome (s : State) (line : Nat) : State :=
  match findLine s.home line with
  | none => s
  | some l =>
    let s1 := s.invalidateCopies line l.bays none
    { s1.modDie (homeDie (line * 128)) fun d => { d with fifo := d.fifo.filter (· != line) } with home := dropLine s1.home line }

/-- The way for a new line of a home cache, and the state once that way has room. Lines of open reduction entries are never
evicted (05 R117). -/
def State.homeRoom (s : State) (addr func : Nat) : Nat × State :=
  let ways := waysOf (s.func func).cfg.hways.toNat 24
  let mine := s.home.filter fun l => homeDie (l.addr * 128) == homeDie (addr * 128)
  match freeWay mine ways Config.wayLines with
  | some w => (w, s)
  | none =>
    match mine.find? (fun l => ways.contains l.way && !s.reds.any fun r => r.sector / 4 == l.addr) with
    | some l => (l.way, (s.homeOut l.addr).dropHome l.addr)
    | none => (ways.headD 0, s)

/-- The home's line, filled in sector k from below if that sector is not valid (the controller then reads it, R58). -/
def State.homeLine (s : State) (addr k func : Nat) : Line × State :=
  let sec := addr * 4 + k
  match findLine s.home addr with
  | some l =>
    if l.valid.getLsbD (32 * k) then (l, s)
    else
      let s1 := s.stackFill sec func
      (((l.putBytes (32 * k) false ((rangeFrom (sec * 32) 32).map s1.stackGet)).setPoison k (s1.stackPoison sec)), s1)
  | none =>
    let (w, s0) := s.homeRoom addr func
    let s1 := s0.stackFill sec func
    (((Line.empty addr w func).putBytes (32 * k) false ((rangeFrom (sec * 32) 32).map s1.stackGet)).setPoison k (s1.stackPoison sec), s1)

/-- A read of a sector at the home: fills the home line; `bay` joins the line's vector when it lies on the home's die. -/
def State.homeFill (s : State) (sec func : Nat) (bay : Option Nat) : State :=
  let (l, s1) := (s.closeRed sec).homeLine (sec / 4) (sec % 4) func
  let l1 := match bay with
    | some b => if b / 10 = homeDie (sec * 32) then { l with bays := l.bays ||| (1#10 <<< (b % 10)) } else l
    | none => l
  { s1 with home := putLine s1.home l1 }

/-- A read of bytes at their homes: every sector is filled, and an open reduction entry of it closes. Also: does any of them lie
in a poisoned sector? -/
def State.homeLoad (s : State) (a n func : Nat) : List Byte × Bool × State :=
  let s1 := (rangeFrom (sectorOf a) (sectorOf (a + n - 1) + 1 - sectorOf a)).foldl (fun s k => s.homeFill k func none) s
  (s1.homeRead a n, s1.homePoisoned a n, s1)

/-- Perform at the home a write of bytes that lie in one sector. `keep` is the core whose copy stays (a write-back), and
`bad` says that the data is poisoned. The merge rule is that of 03 R59. -/
def State.homeWriteSector (s : State) (a func : Nat) (bytes : List Byte) (bad : Bool) (keep : Option Nat) : State :=
  match bytes with
  | [] => s
  | _ =>
    let sec := sectorOf a
    let addr := lineOf a
    let k := sec % 4
    let s0 := s.closeRed sec
    let s0 := if s0.launches.isEmpty then s0
      else { s0 with oldCode := s0.oldCode ++ [⟨sec, s0.sectorData sec, s0.stamp⟩], stamp := s0.stamp + 1 }
    let (l, s1) := s0.homeLine addr k func
    let s2 := s1.invalidateCopies addr l.bays keep
    let was := l.sectorPoison k
    let l1 := (l.putBytes (a % 128) true bytes).setPoison k (bad || (was && bytes.length < 32))
    let l2 := match keep with
      | some c => { l1 with bays := if dieOfCore c = homeDie a then 1#10 <<< (bayOf c % 10) else 0 }
      | none => { l1 with bays := 0 }
    let s3 := { s2 with home := putLine s2.home l2 }
    s3.modDie (homeDie a) fun d => { d with fifo := if d.fifo.contains addr then d.fifo else d.fifo ++ [addr] }

/-- Split a run of bytes at sector edges: (address, bytes) pieces. -/
def splitSectors (a : Nat) : List Byte → List (Nat × List Byte)
  | [] => []
  | b :: t =>
    match splitSectors (a + 1) t with
    | [] => [(a, [b])]
    | (x, bs) :: r => if sectorOf x = sectorOf a then (a, b :: bs) :: r else (a, [b]) :: (x, bs) :: r

/-- Perform at the home a write of any number of bytes. -/
def State.homeWrite (s : State) (a func : Nat) (bytes : List Byte) (bad : Bool) (keep : Option Nat := none) : State :=
  (splitSectors a bytes).foldl (fun s p => s.homeWriteSector p.1 func p.2 bad keep) s

/-! ### Core caches (04 R79, R83, R84) -/

/-- Mark a team committed (04 R84). -/
def State.commit (s : State) (l t : Nat) : State := s.modTeam l t fun x => { x with committed := true }

/-- A line leaves the dirty-line FIFO, and every marker that waits for it. -/
def Core.unqueue (c : Core) (addr : Nat) : Core :=
  { c with fifo := c.fifo.filter (·.line != addr)
           markers := (c.markers.map fun m => { m with lines := m.lines.filter (· != addr) }).filter (!·.lines.isEmpty) }

/-- The line once the dirty bytes of a mask have been written back: they stay valid and clean. -/
def Line.cleaned (l : Line) (m : BitVec 128) : Line :=
  { l with dirty := l.dirty &&& ~~~ m
           priv := l.priv &&& ~~~ m
           owner := (rangeFrom 0 4).map fun k =>
             if l.dirty &&& ~~~ m &&& sectorMask k = 0 then none else (l.owner[k]?).join }

/-- Write the dirty bytes of a core line that lie in a mask back to their home. The teams whose uncommitted sectors they are
commit (04 R84), and the line leaves the FIFO once it holds no dirty byte of a REL store. -/
def State.writeBackOf (s : State) (core addr : Nat) (m : BitVec 128) : State :=
  match findLine (s.core core).cache addr with
  | none => s.modCore core (·.unqueue addr)
  | some l =>
    let d := l.dirty &&& m
    let s1 := (rangeFrom 0 4).foldl (fun s k =>
      match (l.owner[k]?).join with
      | some o => if d &&& sectorMask k = 0 then s else s.commit o.1 o.2
      | none => s) s
    let dirtyOffs := (rangeFrom 0 128).filter fun i => d.getLsbD i
    let runs := dirtyOffs.foldr (fun o acc =>
      match acc with
      | (x, bs) :: r => if x = o + 1 && sectorOf x = sectorOf o then (o, l.byte o :: bs) :: r else (o, [l.byte o]) :: acc
      | [] => [(o, [l.byte o])]) ([] : List (Nat × List Byte))
    let s2 := runs.foldl (fun s p => s.homeWriteSector (addr * 128 + p.1) l.func p.2 (l.sectorPoison (p.1 / 32)) (some core)) s1
    s2.modCore core fun c =>
      let c1 := { c with cache := modIf (·.addr == addr) (·.cleaned m) c.cache }
      if l.dirty &&& ~~~ m &&& ~~~ l.priv = 0 then c1.unqueue addr else c1

/-- Write back all of a line: capacity and maintenance (04 R83), PRIV bytes included. -/
def State.writeBack (s : State) (core addr : Nat) : State := s.writeBackOf core addr (BitVec.allOnes 128)

/-- Write back a line for a marker, an overflow or its age: PRIV bytes stay (04 R83, 12 R264). -/
def State.drainLine (s : State) (core addr : Nat) : State :=
  s.writeBackOf core addr (~~~ (((findLine (s.core core).cache addr).map (·.priv)).getD 0))

/-- Write back and drop a line (eviction, `CINV`). -/
def State.evict (s : State) (core addr : Nat) : State :=
  (s.writeBack core addr).modCore core fun c => { c with cache := dropLine c.cache addr }

/-- Write back and drop one sector of a line before an access performed at the home (04 Table 4-2, R95). -/
def State.dropSector (s : State) (core a : Nat) : State :=
  match findLine (s.core core).cache (lineOf a) with
  | none => s
  | some l =>
    let m := sectorMask (sectorOf a % 4)
    let s1 := if l.dirty &&& m != 0 then s.writeBackOf core l.addr m else s
    s1.modCore core fun c => { c with cache := modIf (·.addr == l.addr) (fun l => { l with valid := l.valid &&& ~~~ m }) c.cache }

/-- Are all the bytes valid in the core cache? -/
def Core.holds (c : Core) (a n : Nat) : Bool :=
  match findLine c.cache (lineOf a) with
  | none => false
  | some l => (rangeFrom (a % 128) n).all fun i => l.valid.getLsbD i
def Core.cacheRead (c : Core) (a n : Nat) : List Byte :=
  match findLine c.cache (lineOf a) with
  | none => List.replicate n 0
  | some l => (rangeFrom (a % 128) n).map l.byte
def Core.cachePoison (c : Core) (a : Nat) : Bool :=
  match findLine c.cache (lineOf a) with
  | none => false
  | some l => l.sectorPoison (sectorOf a % 4)

/-- A sector holding another team's uncommitted stores is written back first (04 R84, 14 R332). -/
def State.yieldSector (s : State) (core a : Nat) (me : Option (Nat × Nat)) : State :=
  match findLine (s.core core).cache (lineOf a) with
  | none => s
  | some l =>
    match (l.owner[sectorOf a % 4]?).join with
    | none => s
    | some o => if me = some o then s else s.writeBackOf core l.addr (sectorMask (sectorOf a % 4))

/-- The core cache's line of an address, or a new one. -/
def Core.line (c : Core) (addr func : Nat) : Line := (findLine c.cache addr).getD (Line.empty addr c.way func)

/-- Room for a line in a core cache: when every way is full, the line longest there is evicted (04 Table 4-1; log 19). -/
def State.coreRoom (s : State) (core addr : Nat) : State :=
  let c := s.core core
  if (findLine c.cache addr).isSome || (freeWay c.cache (rangeFrom 0 Config.coreWays) Config.coreWayLines).isSome then s
  else
    match c.cache with
    | [] => s
    | l :: _ => s.evict core l.addr

/-- A fill of a sector from its home under the valid mask (04 R79): a written byte is never overwritten. -/
def State.coreFill (s : State) (core sec func : Nat) : State :=
  let s1 := (s.coreRoom core (sec / 4)).homeFill sec func (some (bayOf core))
  let k := sec % 4
  let c := s1.core core
  let l := c.line (sec / 4) func
  let l1 := (rangeFrom (32 * k) 32).foldl (fun l o =>
    if l.valid.getLsbD o then l else l.setByte o (s1.homeGet (sec / 4 * 128 + o)) false) l
  let l2 := if s1.homePoison sec then l1.setPoison k true else if l.valid &&& sectorMask k = 0 then l1.setPoison k false else l1
  s1.setCore { c with cache := putLine c.cache l2 }

/-- Bytes `off .. off + n - 1` of a line. -/
def bytesMask (off n : Nat) : BitVec 128 := (BitVec.ofNat 128 (2 ^ n - 1)) <<< off

/-- A store of bytes within one sector written into the core cache, dirty, without a fetch (04 R79). A REL line enters the
FIFO; a full FIFO writes its oldest line back first (04 R83). -/
def State.coreStore (s : State) (core a func : Nat) (me : Nat × Nat) (ty : PType) (bytes : List Byte) : State :=
  let s0 := (s.yieldSector core a (some me)).coreRoom core (lineOf a)
  let addr := lineOf a
  let k := sectorOf a % 4
  let enters := ty == .rel && !(s0.core core).fifo.any (·.line == addr)
  let s1 := if enters && Config.fifoSize ≤ (s0.core core).fifo.length then
      (match (s0.core core).fifo with
       | [] => s0
       | f :: _ => s0.drainLine core f.line)
    else s0
  let c := s1.core core
  let l1 := (c.line addr func).putBytes (a % 128) true bytes
  let m := bytesMask (a % 128) bytes.length
  let l2 := { l1 with owner := setAt l1.owner k (some me), func := func
                      priv := if ty == .priv then l1.priv ||| m else l1.priv &&& ~~~ m }
  let l3 := if l2.dirty &&& sectorMask k = sectorMask k then l2.setPoison k false else l2
  s1.setCore { c with cache := putLine c.cache l3
                      fifo := if enters then c.fifo ++ [⟨addr, s1.now⟩] else c.fifo }

/-- The acquire action of 04 R93 and 12 R277: the non-home lines lose their clean bytes. A cache holds system addresses, so a sector
may belong to a REL or ONCE page whichever mapping filled it; to drop a clean copy is otherwise an eviction (log 73). Reads already
under way to a peer serve no later load. -/
def State.acquire (s : State) (core : Nat) : State :=
  s.modCore core fun c =>
    { c with cache := (c.cache.map fun l =>
        if homeDie (l.addr * 128) = dieOfCore core then l else { l with valid := l.valid &&& l.dirty }).filter (·.valid != 0)
             slots := c.slots.map fun x => if x.peer.isSome then { x with shut := true } else x }

/-- A successor that starts in its predecessor's slots takes over the predecessor's dirty sectors (12 R274). -/
def Core.ownSectors (c : Core) (old new : Nat × Nat) : Core :=
  { c with cache := c.cache.map fun l => { l with owner := l.owner.map fun o => if o = some old then some new else o } }

/-- Insert a release marker behind the lines now in the FIFO (04 R83). No marker is needed when the FIFO is empty. -/
def State.insertMarker (s : State) (core l t : Nat) : Option Nat × State :=
  let c := s.core core
  if c.fifo.isEmpty then (none, s)
  else
    let (id, s1) := s.take
    (some id, s1.modCore core fun c => { c with markers := c.markers ++ [⟨id, l, t, c.fifo.map (·.line)⟩] })

end Sys2Proof.Machine
end

