-- ==== Sys2Proof/Machine/Translate.lean ====
section
/-! DEFINITION. Two-stage translation: tables, swizzles, walks and TLBs (chapter 03). -/

namespace Sys2Proof.Machine

/-- A fault that a translation or a check raises: its code and detail. -/
structure Flt where
  code : FaultCode
  detail : Nat
deriving DecidableEq, Repr

/-- What a stage-2 walk ends in (03 R68, R70). -/
inductive Leaf2 where
  | leaf (e : W64) (lvl : Nat)
  | fault (f : Flt)
deriving DecidableEq, Repr

/-- What a whole walk ends in. A fault of `table` was met before the stage-1 leaf and falls on every sharer; S1_MISS names
each sharer's own address. After a stage-1 leaf each sharer is judged by its own need. -/
inductive WalkEnd where
  | table (f : Flt)
  | s1miss
  | leaf (e1 : W64) (lvl1 : Nat) (r : Leaf2)
deriving DecidableEq, Repr

/-- Kind of access, for 03 R67 and the host-window limits of R55. -/
inductive Access where
  | thread (size : Nat)
  | atomic
  | copy
  | fetch
deriving DecidableEq, Repr

/-! ### Addresses -/

/-- Bits 63..55 equal to bit 54 (03 R54). -/
def addrOk (a : W64) : Bool := a.extractLsb' 54 10 == 0 || a.extractLsb' 54 10 == 0x3FF
/-- The 55 bits that translation uses. -/
def gvaOf (a : W64) : Nat := a.toNat % 2 ^ 55

/-- Width and distance of a sector permutation (03 Table 3-9). -/
def swizzleRow : Nat → Nat × Nat
  | 1 => (2, 7)
  | 2 => (3, 8)
  | 3 => (3, 9)
  | 4 => (3, 10)
  | 5 => (4, 9)
  | 6 => (4, 10)
  | 7 => (4, 11)
  | _ => (0, 0)

/-- Swizzle `z` of a page offset (03 R66). Where R66 gives bit 8 two values (z of 14 and 15), the later clause, the stack
spread, stands (log 11, DESIGN CHOICE). -/
def swizzle (z o : Nat) : Nat :=
  let k := z % 8
  let (w, l) := swizzleRow k
  let o1 := o ^^^ (fld o l w * 32)
  if z < 8 then o1
  else
    let spread := fld o 8 4 ^^^ fld o 12 4
    o1 - fld o1 8 4 * 256 + spread * 256

/-- Index fields of 03 Table 3-4. -/
def index1 (gva lvl : Nat) : Nat := fld gva (42 - 13 * lvl) 13
def index2 (g lvl : Nat) : Nat := fld g (42 - 13 * lvl) (if lvl = 0 then 10 else 13)
/-- Size of a leaf in bits of offset (03 Table 3-4). -/
def leafBits (lvl : Nat) : Nat := if lvl = 1 then 29 else 16

/-! ### Entries -/

def present (e : W64) : Bool := e.getLsbD 0
def isLeaf (e : W64) : Bool := e.getLsbD 1
/-- Next node of a pointer (03 Table 3-5). -/
def nodeOf (e : W64) : Nat := fld e.toNat 16 36 * 65536

/-- Malformed entries (03 R65) of stage 1. -/
def malformed1 (e : W64) (lvl : Nat) : Bool :=
  let x := e.toNat
  if isLeaf e then
    lvl == 0 || !zeroBits x 52 12 || !zeroBits x 15 1 || decide (12 < fld x 11 4) || (lvl == 1 && !zeroBits x 16 13)
  else lvl == 2 || !zeroBits x 52 12 || !zeroBits x 2 14

/-- Malformed entries (03 R65) of stage 2. -/
def malformed2 (e : W64) (lvl : Nat) : Bool :=
  let x := e.toNat
  if isLeaf e then
    let kind := fld x 4 2
    lvl == 0 || !zeroBits x 6 10 || (lvl == 1 && kind != 0) ||
    (match kind with
     | 0 => !zeroBits x 52 12 || (lvl == 1 && !zeroBits x 16 13)
     | 1 => !zeroBits x 62 2
     | 2 => !zeroBits x 28 36
     | _ => !zeroBits x 32 32 || decide (79 < fld x 16 7))
  else lvl == 2 || !zeroBits x 52 12 || !zeroBits x 2 14

/-- Permissions of a stage-1 leaf (03 R68). -/
def permits1 (e : W64) : Need → Bool
  | .read => e.getLsbD 2
  | .write => e.getLsbD 3
  | .rw => e.getLsbD 2 && e.getLsbD 3
  | .fetch => e.getLsbD 4
/-- Permissions of a stage-2 leaf (03 R68). -/
def permits2 (e : W64) : Need → Bool
  | .read => e.getLsbD 2
  | .write => e.getLsbD 3
  | .rw => e.getLsbD 2 && e.getLsbD 3
  | .fetch => e.getLsbD 2

/-- Is a system physical address in device memory (03 Table 3-1)? -/
def inDevice (a : Nat) : Bool := decide (a < Config.deviceEnd)
def inHost (a : Nat) : Bool := decide (Config.hostBase ≤ a ∧ a < Config.spaEnd)

/-! ### Walk reads -/

/-- Read an entry at its home (03 R70): a hole faults PERM 6, the host window PERM 5, a poisoned sector UNCORR_DATA. -/
def State.readEntry (s : State) (a func : Nat) : Except Flt W64 × State :=
  if inHost a then (.error ⟨.perm, 5⟩, s)
  else if !inDevice a then (.error ⟨.perm, 6⟩, s)
  else
    let s1 := s.homeFill (sectorOf a) func none
    if s1.homePoison (sectorOf a) then (.error ⟨.uncorrData, a⟩, s1)
    else (.ok (BitVec.ofNat 64 (leNat (s1.homeRead a 8))), s1)

/-- The levels of a stage-2 walk of `g` from `lvl` (03 R68). The permission for the final access is judged by the caller. -/
def State.stage2From (s : State) (func g : Nat) : Nat → Nat → Nat → Leaf2 × State
  | 0, _, _ => (.fault ⟨.s2Miss, g⟩, s)
  | fuel + 1, lvl, node =>
    match s.readEntry (node + 8 * index2 g lvl) func with
    | (.error f, s1) => (.fault f, s1)
    | (.ok e, s1) =>
      if !present e then (.fault ⟨.s2Miss, g⟩, s1)
      else if malformed2 e lvl then (.fault ⟨.perm, 4⟩, s1)
      else if isLeaf e then (.leaf e lvl, s1)
      else s1.stage2From func g fuel (lvl + 1) (nodeOf e)

/-- A stage-2 walk of a guest physical address. -/
def State.stage2 (s : State) (func g : Nat) : Leaf2 × State :=
  s.stage2From func g 3 0 (fld (s.func func).s2root.toNat 16 36 * 65536)

/-- System physical address of a local stage-2 leaf, the offset below the leaf size copied from the input. -/
def localTarget (e : W64) (lvl g : Nat) : Nat := fld e.toNat 16 36 * 65536 + g % 2 ^ leafBits lvl

/-- Where a stage-2 leaf leads (03 Table 3-7a). -/
def targetOf (e : W64) (lvl g : Nat) : Tgt :=
  let x := e.toNat
  match fld x 4 2 with
  | 0 => let a := localTarget e lvl g
         if inHost a then .host a else .mem a
  | 1 => .peer (fld x 52 10) (fld x 16 36 * 65536 + g % 65536)
  | 2 => .notify (fld x 16 12 + fld g 12 4) (g % 4096)
  | _ => .buf (fld x 16 7 * 8 + fld x 23 3) (bufOf (fld x 26 2)) (fld x 28 4 * 65536 + g % 65536) (fld x 28 4 * 65536 + 65536)

/-- Guest physical address that a stage-1 leaf gives (03 R66, R68). -/
def gpaOf (e : W64) (lvl gva : Nat) : Nat :=
  let frame := fld e.toNat 16 36 * 65536
  let mid := if lvl = 1 then fld gva 16 13 * 65536 else 0
  frame + mid + swizzle (fld e.toNat 7 4) (gva % 65536)

/-- The levels of a stage-1 walk from `lvl` (03 R68). `needs` are those of its sharers: where the stage-1 leaf permits none of them,
each faults PERM 1 and the walk ends there. -/
def State.walkFrom (s : State) (func gva : Nat) (needs : List Need) : Nat → Nat → Nat → WalkEnd × State
  | 0, _, _ => (.s1miss, s)
  | fuel + 1, lvl, node =>
    match s.stage2 func node with
    | (.fault f, s1) => (.table f, s1)
    | (.leaf t tl, s1) =>
      if !permits2 t .read then (.table ⟨.perm, 2⟩, s1)
      else if fld t.toNat 4 2 ≠ 0 then (.table ⟨.perm, 5⟩, s1)
      else
        match s1.readEntry (localTarget t tl node + 8 * index1 gva lvl) func with
        | (.error f, s2) => (.table f, s2)
        | (.ok e, s2) =>
          if !present e then (.s1miss, s2)
          else if malformed1 e lvl then (.table ⟨.perm, 3⟩, s2)
          else if isLeaf e then
            if !needs.any (permits1 e) then (.leaf e lvl (.fault ⟨.perm, 1⟩), s2) else
            let (r, s3) := s2.stage2 func (gpaOf e lvl gva)
            (.leaf e lvl r, s3)
          else s2.walkFrom func gva needs fuel (lvl + 1) (nodeOf e)

/-- A walk of a guest virtual address (03 R68). Its reads of entries are all made in one step (log 20). -/
def State.walk (s : State) (func gva : Nat) (needs : List Need) : WalkEnd × State :=
  s.walkFrom func gva needs 3 0 (fld (s.func func).s1root.toNat 16 36 * 65536)

/-! ### Judging an access by the leaves -/

/-- Is the access allowed through the target (03 R67, R55)? -/
def kindAllows (t : Tgt) : Access → Bool
  | .thread n => match t with
    | .notify _ _ => n == 4 || n == 8
    | _ => true
  | .atomic => match t with
    | .mem _ => true
    | .peer _ _ => true
    | _ => false
  | .copy => match t with
    | .notify _ _ => false
    | _ => true
  | .fetch => match t with
    | .mem _ => true
    | _ => false

/-- Ordering type of a stage-1 leaf (03 Table 3-6). -/
def typeOf (e : W64) : PType :=
  match fld e.toNat 5 2 with
  | 0 => .rel
  | 1 => .seq
  | 2 => .once
  | _ => .priv

/-- The checks of a completed translation, in the order of 03 R68: stage-1 permission, stage-2 permission, kind, hole. A
notify window serves stores only (R67). -/
def judge (e1 : W64) (lvl1 : Nat) (r : Leaf2) (gva : Nat) (need : Need) (acc : Access) : Except Flt Trans :=
  if !permits1 e1 need then .error ⟨.perm, 1⟩
  else
    let g := gpaOf e1 lvl1 gva
    match r with
    | .fault ⟨.s2Miss, _⟩ => .error ⟨.s2Miss, g⟩
    | .fault f => .error f
    | .leaf e2 lvl2 =>
      if !permits2 e2 need then .error ⟨.perm, 2⟩
      else
        let t := targetOf e2 lvl2 g
        let notifyRead := match t with
          | .notify _ _ => need != .write
          | _ => false
        if !kindAllows t acc || notifyRead then .error ⟨.perm, 5⟩
        else
          match t with
          | .mem a => if inDevice a then .ok ⟨g, t, typeOf e1, fld e1.toNat 11 4⟩ else .error ⟨.perm, 6⟩
          | _ => .ok ⟨g, t, typeOf e1, fld e1.toNat 11 4⟩

/-- What a walk's end gives an access. -/
def judgeEnd (w : WalkEnd) (gva : Nat) (need : Need) (acc : Access) : Except Flt Trans :=
  match w with
  | .table f => .error f
  | .s1miss => .error ⟨.s1Miss, gva⟩
  | .leaf e1 l1 r => judge e1 l1 r gva need acc

/-! ### TLBs (03 R71) -/

def TlbEntry.serves (e : TlbEntry) (func gva : Nat) : Bool :=
  e.func == func && (if e.big then gva / 2 ^ 29 == e.base else gva / 65536 == e.base)

/-- A completed translation as a TLB holds it: the smaller of the two leaf sizes. -/
def tlbEntryOf (func gva : Nat) (e1 : W64) (l1 : Nat) (e2 : W64) (l2 : Nat) : TlbEntry :=
  let big := l1 == 1 && l2 == 1
  ⟨func, if big then gva / 2 ^ 29 else gva / 65536, big, e1, l1, e2, l2⟩

/-- The core's TLB, then its die's. -/
def State.tlbFind (s : State) (core func gva : Nat) : Option TlbEntry :=
  match (s.core core).tlb.find? (·.serves func gva) with
  | some e => some e
  | none => (s.die (dieOfCore core)).tlb.find? (·.serves func gva)

/-- Put an entry into a TLB of `n` entries; the oldest leaves a full one (which one changes only timing). -/
def tlbPut (n : Nat) (e : TlbEntry) (l : List TlbEntry) : List TlbEntry :=
  let l1 := l.filter fun x => !(x.func == e.func && x.base == e.base && x.big == e.big)
  (if n ≤ l1.length then l1.drop 1 else l1) ++ [e]

/-- Install a translation in a core's TLB and its die's. -/
def State.install (s : State) (core : Nat) (e : TlbEntry) : State :=
  (s.modCore core fun c => { c with tlb := tlbPut Config.coreTlb e c.tlb }).modDie (dieOfCore core) fun d =>
    { d with tlb := tlbPut Config.dieTlb e d.tlb }

/-- A lookup: none when a walk is needed. An entry that a store has made stale goes on serving until it is dropped (log 75). -/
def State.lookup (s : State) (core func gva : Nat) (need : Need) (acc : Access) : Option (Except Flt Trans) :=
  (s.tlbFind core func gva).map fun e => judge e.leaf1 e.lvl1 (.leaf e.leaf2 e.lvl2) gva need acc

/-- A translation made in one event by an agent that keeps no TLB entry (queue scheduler, successor list, host). -/
def State.translate (s : State) (func gva : Nat) (need : Need) (acc : Access) : Except Flt Trans × State :=
  let (w, s1) := s.walk func gva [need]
  (judgeEnd w gva need acc, s1)

/-! ### The walk queue (03 R72) -/

/-- Is an entry of the die's walk queue free? A walk that a walker has taken keeps its entry until it ends (log 76). -/
def State.walkRoom (s : State) (core : Nat) : Bool := decide ((s.die (dieOfCore core)).walks.length < Config.walkQueue)

/-- Queue a walk for an access, or share one of the same function and 64 KiB page. -/
def State.queueWalk (s : State) (core func gva : Nat) (sh : Sharer) : State :=
  let d := s.die (dieOfCore core)
  if d.walks.any (fun w => w.func == func && w.page == gva / 65536) then
    s.setDie { d with walks := modIf (fun w => w.func == func && w.page == gva / 65536)
                                (fun w => { w with sharers := w.sharers ++ [sh] }) d.walks }
  else
    let (id, s1) := s.take
    s1.setDie { d with walks := d.walks ++ [⟨id, func, gva / 65536, false, false, 0, [sh]⟩] }

/-- Would a walk of this page need a new queue entry that is not there? -/
def State.walkFull (s : State) (core func gva : Nat) : Bool :=
  !(s.walkRoom core) && !(s.die (dieOfCore core)).walks.any fun w => w.func == func && w.page == gva / 65536

/-- Round-robin choice of the next walk to start (03 R72): first-in first-out within a function, the functions in turn from
the one after the last served; a function whose oldest walk was passed 63 times goes first. -/
def Die.nextWalk (d : Die) : Option Walk :=
  let waiting := d.walks.filter (!·.started)
  match waiting.find? (fun w => decide (63 ≤ w.passed)) with
  | some w => some w
  | none =>
    match (rangeFrom (d.lastFunc + 1) 64).findSome? (fun f => waiting.find? (fun w => w.func == f % 64)) with
    | some w => some w
    | none => none

end Sys2Proof.Machine
end

