-- ==== Sys2Proof/Machine/Ops.lean ====
section
/-! DEFINITION. The shared operations of every meaning: the issuing bundle, frontier entries, taking an exception and the
returns from one (chapters 13 and 14). -/

namespace Sys2Proof.Machine

abbrev Out := Host.Outcome State Fault Refusal

/-! ### The issuing bundle -/

/-- Run a meaning for the bundle in `cur`. A device whose `cur` names no gang stops: no instruction is issuing. -/
def State.withCur (s : State) (f : Cur → Team → Gang → State) : Out :=
  match s.cur with
  | none => .fault .noIssuer
  | some c =>
    match s.team? c.launch c.team with
    | none => .fault .noIssuer
    | some t =>
      match t.gangs[c.gang]? with
      | none => .fault .noIssuer
      | some g => .next (f c t g)

/-- The address after the instruction. -/
def Cur.nextPc (c : Cur) : Nat := (c.pc + c.len) % 2 ^ 55

/-- The entry of the bundle moves past its instruction and is ready. -/
def Gang.advance (g : Gang) (c : Cur) : Gang :=
  g.modEntry c.eid fun e => { e with pc := c.nextPc, st := .ready, resume := .none, progress := 0, since := 0 }
def State.advance (s : State) (c : Cur) : State := s.modGang c.launch c.team c.gang (·.advance c)

/-- The entry stalls at its bundle (at the PRED prefix when there is one, 02 R34); a stalled entry keeps no promotion
(13 R290). -/
def State.stall (s : State) (c : Cur) (r : Stall) : State :=
  s.modEntry c.launch c.team c.gang c.eid fun e => { e with pc := c.ppc, st := .stalled r, promoted := none }

/-- The entry takes another state at its bundle. -/
def State.hold (s : State) (c : Cur) (st : ESt) : State :=
  s.modEntry c.launch c.team c.gang c.eid fun e => { e with pc := c.ppc, st := st, promoted := none }

/-- An instruction with no active lanes is ignored (02 R35). -/
def State.withActive (s : State) (f : Cur → Team → Gang → State) : Out :=
  s.withCur fun c t g => if c.mask = 0 then s.advance c else f c t g

/-- Wait for registers: the claim joins the core's list and the entry stalls (08 R180, R181). -/
def State.waitRegs (s : State) (c : Cur) (uni : Bool) (n : Nat) : State :=
  (s.stall c .regs).modCore (s.coreOf c.launch c.team) fun k =>
    k.claim ⟨c.launch, c.team, c.gang, c.eid, uni, n, .write⟩

/-- The gang that a write of entry `eid` leaves when `g` becomes `g'`: what a grant had lent to the write (08 R181) is used up. -/
def Gang.spend (g g' : Gang) (eid : Nat) : Gang := ({ g' with lent := (g.unlend .write eid).lent } : Gang).settle

/-- The effect of an instruction on its gang alone: `g'` replaces the gang when the pools can give it what it takes beyond what a grant
has lent to this write (08 R181), and `k` says how its entry goes on; else the entry waits for registers (08 R180). -/
def State.commitWith (s : State) (c : Cur) (g g' : Gang) (k : Gang → Gang) : State :=
  let g1 := g.spend g' c.eid
  match (s.core (s.coreOf c.launch c.team)).room g g1 with
  | .ok => s.putGang c.launch c.team c.gang (k g1)
  | .wait uni n => s.waitRegs c uni n

/-- As `commitWith`; the entry moves past its instruction. -/
def State.commitGang (s : State) (c : Cur) (g g' : Gang) : State := s.commitWith c g g' (·.advance c)

/-- As `commitGang`; a new region then begins with every mapped register live-in (02 R39). -/
def State.commitRegion (s : State) (c : Cur) (g g' : Gang) : State :=
  s.commitWith c g g' fun x => (x.advance c).beginRegion allRegs allRegs

/-- Begin a region of the gang with every mapped register live-in. -/
def State.newRegion (s : State) (l t gi : Nat) : State :=
  match s.gang? l t gi with
  | none => s
  | some g => s.putGang l t gi (g.beginRegion allRegs allRegs)

/-- Move past a region-ending instruction. -/
def State.advanceRegion (s : State) (c : Cur) : State := (s.advance c).newRegion c.launch c.team c.gang

/-! ### Completion conditions of a gang -/

/-- Is any memory-return or engine instruction of the gang still to complete? -/
def State.gangBusy (s : State) (l t gi : Nat) : Bool :=
  match s.gang? l t gi with
  | none => false
  | some g =>
    let k := s.core (s.coreOf l t)
    !g.ops.isEmpty ||
    k.copies.any (fun x => x.owner == .gang l t gi) ||
    k.cpyts.any (fun x => x.launch == l && x.team == t && x.gang == gi) ||
    k.engine.any (fun x => x.launch == l && x.team == t && x.signers.any (fun y => y.gang == gi && y.matrix)) ||
    ((s.team? l t).map fun x => x.cv.any fun v => v.signers.any fun y => y.gang == gi && y.matrix).getD false

/-! ### Barriers and gang end (13 R300, R303) -/

/-- A phase with M arrivals and no remaining bytes completes; the next begins. -/
def Bar.check (b : Bar) : Bar :=
  if b.set && decide (0 < b.m) && decide (b.m ≤ maskCount b.arrived) && b.b == 0 then
    { b with arrived := 0, b := b.e, counted := false, phase := b.phase + 1, m := b.m - b.lower, lower := 0 }
  else b

/-- Bytes land on a barrier (13 R300): the remaining bytes fall, never below zero. -/
def Bar.land (b : Bar) (n : Nat) : Bar := if b.set then { b with b := b.b - n, counted := true }.check else b

/-- A gang ends: every set-up barrier lowers M by 1 (13 R303). -/
def Bar.gangEnds (gi : Nat) (b : Bar) : Bar :=
  if !b.set then b
  else if b.arrived.getLsbD gi then { b with lower := b.lower + 1 }
  else { b with m := b.m - 1 }.check

/-- Requests that still wait for a core's baton, in request order (13 R305). -/
def State.batonWaiting (s : State) (core : Nat) : List BatonReq :=
  (s.core core).batonQ.filter fun q =>
    (((s.gang? q.launch q.team q.gang).bind (·.entry? q.eid)).map (·.st == ESt.baton)).getD false

/-- May an entry of a gang take the core's baton now (13 R305)? -/
def State.batonFor (s : State) (core l t gi eid : Nat) (byTeam : Bool) : Bool :=
  match (s.core core).baton with
  | .free => match s.batonWaiting core with
    | [] => true
    | q :: _ => q.launch == l && q.team == t && q.gang == gi && q.eid == eid
  | .gang l' t' g' => l' == l && t' == t && (g' == gi || byTeam)
  | .team l' t' => l' == l && t' == t

/-- The baton frees when its holder satisfies `p`. -/
def State.freeBaton (s : State) (core : Nat) (p : Baton → Bool) : State :=
  if p (s.core core).baton then s.modCore core fun c => { c with baton := .free } else s

def Gang.mapEntries (g : Gang) (f : Entry → Entry) : Gang := { g with frontier := g.frontier.map f }

/-- A gang whose last lane has exited ends once its long-latency instructions are complete (13 R306); when it is the team's
last, the team ends (R307, Table 13-7). -/
def State.endGang (s : State) (l t gi : Nat) : State :=
  match s.gang? l t gi with
  | none => s
  | some g =>
    if g.ended || !g.frontier.isEmpty || s.gangBusy l t gi then s
    else
      let core := s.coreOf l t
      let s1 := (s.modGang l t gi fun g => { g with ended := true }).modTeam l t fun x =>
        { x with bars := x.bars.map (Bar.gangEnds gi) }
      let s2 := s1.freeBaton core (· == .gang l t gi)
      match s2.team? l t with
      | some x =>
        if x.gangs.all (·.ended) && x.st == .running then
          (s2.freeBaton core (· == .team l t)).modTeam l t fun x => { x with st := .ending }
        else s2
      | none => s2

/-- Lanes end: they leave every entry of the frontier and take no further effect (13 R306, 14 R317). -/
def Gang.endLanes (g : Gang) (m : Mask) : Gang :=
  { g with frontier := (g.frontier.map fun e => { e with mask := e.mask &&& ~~~ m }).filter (·.mask != 0)
           exited := g.exited ||| m }
/-- Does an element wait for its lane to issue the instruction again, or for an event of the core? One that a miss slot or a fabric
request serves runs to its end. -/
def ElSt.waits : ElSt → Bool
  | .todo => true
  | .walking => true
  | .pending => true
  | .parked _ _ => true
  | _ => false
def MemOp.mapElems (o : MemOp) (f : Elem → Elem) : MemOp := { o with elems := o.elems.map f }

/-- The lanes that an element stands for. -/
def MemOp.lanesOf (o : MemOp) (e : Elem) : Mask := if o.once = 0 then 1#32 <<< e.lane else o.once
/-- Does an element go on when the lanes that it stands for have ended? An `RFENCE` that waits to send its flag sends it all the same
(05 R126). -/
def MemOp.outlives (o : MemOp) (e : Elem) : Bool :=
  match o.kind, e.st with
  | .rfence _ _ _, .pending => true
  | _, _ => false

/-- Lanes that end count as done for every instruction in flight (02 R22): an element ends with the last lane that it stands for. -/
def Gang.endElems (g : Gang) (m : Mask) : Gang :=
  { g with ops := g.ops.map fun o => o.mapElems fun e =>
             if !o.outlives e && e.st.waits && decide (o.lanesOf e &&& ~~~(g.exited ||| m) = 0) then { e with st := .ended } else e }
def State.endLanes (s : State) (l t gi : Nat) (m : Mask) : State :=
  (s.modGang l t gi fun g => (g.endLanes m).endElems m).endGang l t gi

/-! ### Taking an exception (14 R311 to R320) -/

/-- Classes of Table 0-2. -/
inductive FClass where
  | terminal | retryable | rollback | stop | call | queue | partition
deriving DecidableEq, Repr

def classOf : FaultCode → FClass
  | .s1Miss => .retryable
  | .s2Miss => .retryable
  | .uncorrData => .rollback
  | .checkFail => .rollback
  | .bkpt => .stop
  | .trap => .stop
  | .svc => .call
  | .queueFmt => .queue
  | .resource => .queue
  | .hang => .partition
  | _ => .terminal

/-- The 8-bit code (00 Table 0-2). -/
def codeByte : FaultCode → Nat
  | .illEnc => 1 | .tagMismatch => 2 | .misalign => 3 | .s1Miss => 4 | .s2Miss => 5 | .perm => 6 | .typeOp => 7
  | .rangeLock => 8 | .bufBound => 9 | .bufRights => 10 | .claimDeadlock => 11 | .vdnInvalid => 12 | .fabricTimeout => 13
  | .uncorrData => 14 | .checkFail => 15 | .bkpt => 16 | .trap => 17 | .svc => 18 | .queueFmt => 19 | .hang => 20
  | .resource => 21

/-- Post a record for the reporting port (14 R314). -/
def State.post (s : State) (r : Record) : State := s.modFunc r.func fun f => { f with pend := f.pend ++ [r] }

/-- A record of Table 14-2 about a gang's work, with its launch and the queue of its root packet (14 R317). -/
def State.record (s : State) (l t gi : Nat) (ring : Nat) (code : FaultCode) (lanes : Mask) (word : W32) (pc detail extra : Nat)
    (unit flags : Nat) : Record :=
  { ring := ring, code := code, flags := flags, func := s.funcOf l t, launch := l, team := t, gang := gi, unit := unit
    lanes := lanes, word := word, pc := pc, detail := BitVec.ofNat 64 detail, extra := BitVec.ofNat 64 extra, reqId := 0
    need := .read, waited := false, queue := (s.launch? l).bind (·.root), seqOf := none, corrupt := false }

/-- Is a cluster of teams one that may be rolled back (14 R330)? -/
def State.mayRollBack (s : State) (l cl : Nat) : Bool :=
  s.teams.all fun t => !(t.launch == l && t.cluster == cl) ||
    (!t.committed && !t.wroteOut && !t.fedFromOut && !t.inPlace && !t.didSvc && decide (t.rollbacks < 3))

/-- A rollback-class fault (14 R330, R333): the records, then the rollback or the reset of the partition as the next event. -/
def State.rollback (s : State) (l t : Nat) (r : Record) : State :=
  match s.team? l t with
  | none => s
  | some x =>
    let ok := s.mayRollBack l x.cluster
    let r1 := { r with ring := 1, extra := if ok then 0 else 1 }
    let s1 := (s.post r1).modFunc 0 fun f => { f with pend := f.pend ++ [{ r1 with ring := 3 }] }
    let s2 := if r.code == .checkFail then
        (s1.countErr x.func 6).modCore x.core fun c => { c with outOfUse := true }
      else s1
    let ev := if ok then Act.event (.clusterRollback l x.cluster (bayOf x.core)) else Act.event (.partitionReset x.func 1)
    -- faults of one step lead to one rollback or reset
    if s2.agenda.contains ev then s2
    else { (if ok then s2.countErr x.func 9 else s2) with agenda := ev :: s2.agenda }

/-- Lanes of a gang take a terminal or rollback fault (14 R311, R317): the record is posted; for a terminal fault the lanes
end and the team launches no successor. -/
def State.raiseAt (s : State) (l t gi : Nat) (lanes : Mask) (code : FaultCode) (detail : Nat) (pc : Nat) (word : W32)
    (unit : Nat := 255) (flags : Nat := 0) (extra : Nat := 0) : State :=
  let r := s.record l t gi 1 code lanes word pc detail extra unit flags
  match classOf code with
  | .rollback => s.rollback l t r
  | _ => ((s.post r).modTeam l t fun x => { x with faulted := true }).endLanes l t gi lanes

/-- The bundle's lanes `m` take a fault of their instruction. -/
def State.raise (s : State) (c : Cur) (m : Mask) (f : Flt) : State :=
  s.raiseAt c.launch c.team c.gang m f.code f.detail c.pc c.word

/-- Every active lane faults; the entry's other lanes fall through (02 R32). A rollback leaves the entry where it is. -/
def State.raiseAll (s : State) (c : Cur) (f : Flt) : State :=
  match classOf f.code with
  | .rollback => s.raise c c.mask f
  | _ => (s.raise c c.mask f).advance c

/-- Lanes that fault with their lane, gathered by fault in order of first lane. -/
def gather (fs : List (Nat × Flt)) : List (Flt × Mask) :=
  fs.foldl (fun acc x =>
    if acc.any (·.1 == x.2) then acc.map fun y => if y.1 == x.2 then (y.1, y.2 ||| (1#32 <<< x.1)) else y
    else acc ++ [(x.2, 1#32 <<< x.1)]) []

/-- Lanes of the bundle take faults of their own; one record for each distinct fault. -/
def State.raiseLanes (s : State) (c : Cur) (fs : List (Nat × Flt)) : State :=
  (gather fs).foldl (fun s x => s.raise c x.2 x.1) s

/-- ILL_ENC of decoding, fields or placement: every lane of the entry ends (02 R38). -/
def State.illEnc (s : State) (l t gi eid : Nat) (detail pc : Nat) (word : W32) : State :=
  match (s.gang? l t gi).bind (·.entry? eid) with
  | none => s
  | some e => s.raiseAt l t gi e.mask .illEnc detail pc word

/-- An ILL_ENC field check of the issuing instruction (02 R28, R38). -/
def State.illField (s : State) (c : Cur) (detail : Nat := 0) : State :=
  s.illEnc c.launch c.team c.gang c.eid detail c.pc c.word

/-- An ILL_ENC that a check of a register's value or tag finds: it falls on the active lanes (02 R32, log 14). -/
def State.illValue (s : State) (c : Cur) (detail : Nat := 0) : State := s.raiseAll c ⟨.illEnc, detail⟩

/-- `BKPT` and `TRAP` (14 R319): the fault information, the stop of the team, the record, the new region and the stall. -/
def State.stopTeam (s : State) (c : Cur) (code : FaultCode) (detail : W64) (imm : Nat) : State :=
  let s1 := s.modTeam c.launch c.team fun x =>
    { x with finfo := BitVec.ofNat 32 (codeByte code), fdetail := detail, stopped := true }
  let s2 := s1.post (s1.record c.launch c.team c.gang 1 code c.mask c.word c.pc detail.toNat imm 255 0)
  let s3 := s2.modEntry c.launch c.team c.gang c.eid fun e =>
    { e with pc := c.nextPc, st := .stalled .resume, resume := .none, progress := 0, since := 0, promoted := none }
  s3.newRegion c.launch c.team c.gang

/-- The resume command (14 R319): every gang of the team issues again and the stopping entries go on. -/
def State.resumeTeam (s : State) (l t : Nat) : State :=
  s.modTeam l t fun x =>
    { x with stopped := false
             gangs := x.gangs.map fun g => g.mapEntries fun e =>
                        if e.st == ESt.stalled .resume then { e with st := .ready } else e }

/-! ### Page requests (14 R315, R316) -/

/-- Join or open the request of a retryable fault of function `func`. The function that owns the ring is `func` itself for
S1_MISS and the physical function for S2_MISS. -/
def State.pageMiss (s : State) (func : Nat) (f : Flt) (sh : Sharer) : (Nat × Nat) × State :=
  let owner := if f.code == .s1Miss then func else 0
  match s.pageReqs.find? (fun p => p.code == f.code && p.func == func && p.addr / 65536 == f.detail / 65536) with
  | some p =>
    ((p.owner, p.id), { s with
      pageReqs := modIf (fun q => q.owner == p.owner && q.id == p.id) (fun q => { q with sharers := q.sharers ++ [sh] }) s.pageReqs })
  | none =>
    let id := s.nextReq % 2 ^ 32
    let r : Record := { ring := 0, code := f.code, flags := 0, func := func, launch := 0, team := 0, gang := 0, unit := 0
                        lanes := 0, word := 0, pc := 0, detail := BitVec.ofNat 64 f.detail, extra := 0, reqId := id
                        need := sh.need, waited := false, queue := none, seqOf := none, corrupt := false }
    let s1 := { s with pageReqs := s.pageReqs ++ [PageReq.mk owner id f.code func f.detail sh.need false [sh]]
                       nextReq := s.nextReq + 1 }
    ((owner, id), s1.modFunc owner fun x => { x with pend := x.pend ++ [r] })

/-- Lanes of an instruction in flight leave the entries they stand in and park on a request at the instruction, or at its PRED: they
join the entry that is parked there on that request for the same instruction, or form one with the priority and flag fields of the
instruction's clause (04 R101, 19 R376). -/
def State.parkOp (s : State) (l t gi : Nat) (o : MemOp) (m : Mask) (req : Nat × Nat) : State :=
  match s.gang? l t gi with
  | none => s
  | some g =>
    let there := (g.frontier.map (·.mask)).foldl (· ||| ·) 0 &&& m
    let mate (x : Entry) : Bool := x.st == .parked req.1 req.2 && x.resume == .op o.id
    if there = 0 then s
    else
      let (nid, s1) := s.take
      s1.modGang l t gi fun g =>
        let rest := (g.frontier.map fun x => { x with mask := x.mask &&& ~~~ m }).filter fun x => x.mask != 0 || mate x
        { g with frontier :=
            if rest.any mate then modIf mate (fun x => { x with mask := x.mask ||| there }) rest
            else rest ++
              [{ eid := nid, prio := o.prio, pc := o.ppc, mask := there, age := 0, promoted := none, yielded := [], setA := o.setA
                 setB := o.setB, resume := .op o.id, progress := 0, since := 0, st := .parked req.1 req.2 }] }

/-- Lanes of an entry leave it and park at `pc` on a request (04 R101, 19 R376): they join an entry already parked there on
the same request for the same instruction, or form a new one with the same priority. -/
def State.park (s : State) (l t gi eid : Nat) (m : Mask) (pc : Nat) (req : Nat × Nat) (res : Resume) : State :=
  match (s.gang? l t gi).bind (·.entry? eid) with
  | none => s
  | some e =>
    let (nid, s1) := s.take
    s1.modGang l t gi fun g =>
      let rest := (g.frontier.map fun x => if x.eid == eid then { x with mask := x.mask &&& ~~~ m } else x).filter (·.mask != 0)
      if rest.any fun x => x.st == .parked req.1 req.2 && x.pc == pc && x.resume == res then
        { g with
          frontier := modIf (fun x => x.st == .parked req.1 req.2 && x.pc == pc && x.resume == res)
            (fun x => { x with mask := x.mask ||| m }) rest }
      else
        { g with
          frontier := rest ++ [{ e with
            eid := nid, mask := m, pc := pc, st := .parked req.1 req.2, resume := res, promoted := none, yielded := [] }] }

/-! ### Presence records (07 R161 to R168) -/

def BufState.presence (b : BufState) (t : Nat) : Presence := ((b.pres.find? (·.1 == t)).map (·.2)).getD .disarmed
def BufState.setPresence (b : BufState) (t : Nat) (p : Presence) : BufState :=
  { b with pres := if p = .disarmed then b.pres.filter (·.1 != t) else putBy (·.1 == t) (t, p) b.pres }

/-! ### Tag codes (07 Table 7-1) -/

def Tag.code : Tag → Nat
  | .none => 0 | .i32 => 1 | .u32 => 2 | .i16x2 => 3 | .i8x4 => 4 | .u8x4 => 5 | .f32 => 6 | .f16x2 => 7 | .bf16x2 => 8
  | .t8x4 => 9 | .t6x4 => 10 | .i64 => 11 | .f64 => 12 | .poison => 15
def tagOf : Nat → Tag
  | 1 => .i32 | 2 => .u32 | 3 => .i16x2 | 4 => .i8x4 | 5 => .u8x4 | 6 => .f32 | 7 => .f16x2 | 8 => .bf16x2
  | 9 => .t8x4 | 10 => .t6x4 | 11 => .i64 | 12 => .f64 | 15 => .poison | _ => .none

end Sys2Proof.Machine
end

