-- ==== Sys2Proof/Machine/Operands.lean ====
section
/-! DEFINITION. Operand forms: vector sources through the prism, pairs, uniform sources, last uses, tag checks, slots, and
writing results (02 R26 to R27, chapter 08, 10 R217 to R219). -/

namespace Sys2Proof.Machine

def Opnd.num (o : Opnd) : Nat := o.reg.toNat

/-- Why an instruction does not take its effect: a field that faults ILL_ENC, or a fault on the active lanes. -/
inductive Stop where
  | ill (detail : Nat)
  | flt (f : Flt)
deriving DecidableEq, Repr

/-! ### The prism (08 R183, R184) -/

/-- Is a lane pattern one of Table 8-2? -/
def patternOk (p : BitVec 16) : Bool :=
  let x := p.toNat
  let kind := fld x 13 3
  let k := fld x 0 5
  decide (kind ≤ 4) && zeroBits x 5 8 && (kind != 0 || k == 0) && (kind != 4 || (decide (1 ≤ k) && decide (k ≤ 5)))

/-- Source lane of lane `i` (08 Table 8-3). -/
def prismLane (p : BitVec 16) (i : Nat) : Nat :=
  let k := fld p.toNat 0 5
  match fld p.toNat 13 3 with
  | 1 => (i + k) % 32
  | 2 => k
  | 3 => i ^^^ k
  | 4 => i ^^^ (2 ^ k - 1)
  | _ => i

def prism (p : BitVec 16) (l : List W32) : List W32 := lanes32.map fun i => l.getD (prismLane p i) 0

/-! ### Sources -/

/-- A vector source as read: its register, its tag, its lanes. -/
structure Src where
  reg : Nat
  tag : Tag
  lanes : List W32
deriving DecidableEq, Repr

/-- Operand a passes through the prism under lpa, operand b under lpb (08 R184). -/
def Gang.srcA (g : Gang) (o : Opnd) : Src :=
  let r := o.reg.toNat
  ⟨r, g.tag r, if o.prism then prism g.lpa (g.lanes r) else g.lanes r⟩
def Gang.srcB (g : Gang) (o : Opnd) : Src :=
  let r := o.reg.toNat
  ⟨r, g.tag r, if o.prism then prism g.lpb (g.lanes r) else g.lanes r⟩
/-- The odd register of a pair operand. -/
def Gang.srcA1 (g : Gang) (o : Opnd) : Src :=
  let r := o.reg.toNat + 1
  ⟨r, g.tag r, if o.prism then prism g.lpa (g.lanes r) else g.lanes r⟩
def Gang.srcB1 (g : Gang) (o : Opnd) : Src :=
  let r := o.reg.toNat + 1
  ⟨r, g.tag r, if o.prism then prism g.lpb (g.lanes r) else g.lanes r⟩
/-- A register read without a prism: d as a source. -/
def Gang.srcD (g : Gang) (r : Nat) : Src := ⟨r, g.tag r, g.lanes r⟩

/-- Lane `i` of a source as a number. -/
def Src.val (x : Src) (i : Nat) : Nat := (x.lanes.getD i 0).toNat
/-- Lane `i` of a pair as a 64-bit number. -/
def pairVal (lo hi : Src) (i : Nat) : Nat := lo.val i + hi.val i * 2 ^ 32

/-- Uniform operand. -/
def Gang.uniOp (g : Gang) (o : Opnd) : W64 := g.uni o.reg.toNat

/-! ### Last uses (02 R27): registers marked L are freed after the reads, but for those the instruction writes -/

def Gang.freeLast (g : Gang) (os : List Opnd) (written : List Nat) : Gang :=
  os.foldl (fun g o => if o.last && !written.contains o.reg.toNat then g.freeV o.reg.toNat else g) g
/-- A pair operand marked L frees both of its registers. -/
def Gang.freePair (g : Gang) (o : Opnd) (written : List Nat) : Gang :=
  if o.last then
    let g1 := if written.contains o.reg.toNat then g else g.freeV o.reg.toNat
    if written.contains (o.reg.toNat + 1) then g1 else g1.freeV (o.reg.toNat + 1)
  else g
def Gang.freeLastS (g : Gang) (o : Opnd) (written : List Nat) : Gang :=
  if o.last && !written.contains o.reg.toNat then g.freeS o.reg.toNat else g

/-! ### Tag checks (08 R172, 10 R217, R218, 14 R380) -/

/-- The first POISON source faults UNCORR_DATA with its register number. -/
def poisonCheck (ss : List Src) : Option Stop :=
  (ss.find? (·.tag == .poison)).map fun x => .flt ⟨.uncorrData, x.reg⟩

/-- TAG_MISMATCH of a source (14 R380). -/
def mismatch (x : Src) : Stop := .flt ⟨.tagMismatch, x.reg + x.tag.code * 256⟩
/-- TAG_MISMATCH of a tile register or an accumulator (14 R380). -/
def mismatchTile (n : Nat) (t : Tag) : Stop := .flt ⟨.tagMismatch, n + t.code * 256 + 4096⟩

/-- Every source carries an accepted tag. -/
def accept (ok : List Tag) (ss : List Src) : Option Stop :=
  (ss.find? fun x => !ok.contains x.tag).map mismatch

def isPairTag (t : Tag) : Bool := t == .i64 || t == .f64

/-- The registers that a source is read from: the odd half too where the source is a pair (`p`) in an even register. Every POISON
comes before any tag (08 R172). -/
def halves (p : Bool) (x : Src × Src) : List Src := if p && x.1.reg % 2 == 0 then [x.1, x.2] else [x.1]

/-- The operation tag of typed sources, each with its odd half (10 R217): for an integer instruction NONE matches any tag. The first
source, in their order, that disagrees or is not in the group is refused, or whose two halves differ where it is a pair. -/
def opTag (float : Bool) (group : List Tag) (ss : List (Src × Src)) : Except Stop Tag :=
  match ss.filter fun p => float || p.1.tag != .none with
  | [] => if group.contains .none then .ok .none
          else match ss with
            | x :: _ => .error (mismatch x.1)
            | [] => .ok .none
  | x :: _ =>
    match ss.findSome? fun p =>
        if (float || p.1.tag != .none) && (!group.contains p.1.tag || p.1.tag != x.1.tag) then some (mismatch p.1)
        else if isPairTag x.1.tag && p.1.reg % 2 == 0 && p.2.tag != p.1.tag then some (mismatch p.2)
        else none with
    | some e => .error e
    | none => .ok x.1.tag

/-- The odd half of a pair source must be unpoisoned and carry the same tag (08 R172). -/
def pairCheck (lo hi : Src) : Option Stop :=
  if hi.tag == .poison then some (.flt ⟨.uncorrData, hi.reg⟩)
  else if hi.tag != lo.tag then some (mismatch hi)
  else none

/-- Pair operands in the order of 10 R219: the tags of both halves of those in even registers, then that every register of
`ss`, and `d` where it is given, is even (08 R172, 10 R218; log 14). -/
def pairsCheck (ss : List (Src × Src)) (d : Option Nat) : Option Stop :=
  match (ss.filter fun x => x.1.reg % 2 == 0).findSome? fun x => pairCheck x.1 x.2 with
  | some e => some e
  | none => if ss.any (fun x => x.1.reg % 2 == 1) || (d.map (· % 2 == 1)).getD false then some (.ill 0) else none

/-! ### Slots (09 R191, 10 R219) -/

/-- Width and number of the elements of a lane under a tag. -/
def slotsOf : Tag → Nat × Nat
  | .i16x2 => (16, 2)
  | .f16x2 => (16, 2)
  | .bf16x2 => (16, 2)
  | .i8x4 => (8, 4)
  | .u8x4 => (8, 4)
  | .t8x4 => (8, 4)
  | .t6x4 => (8, 4)
  | .i64 => (64, 1)
  | .f64 => (64, 1)
  | _ => (32, 1)

/-- Apply an operation to each element of a lane; results wrap to the element width. -/
def mapSlots (w : Nat) (f : List Nat → Nat) (xs : List Nat) : Nat → Nat
  | 0 => 0
  | k + 1 => mapSlots w f xs k + (f (xs.map fun x => fld x (w * k) w) % 2 ^ w) * 2 ^ (w * k)

/-- A vector result: its tag, whether it is a pair, whether the sources were read as pairs, and the value of each of the
32 lanes. -/
structure VRes where
  tag : Tag
  pair : Bool
  srcPair : Bool
  vals : List Nat
deriving DecidableEq, Repr

def VRes.regs (r : VRes) (d : Nat) : List Nat := if r.pair then [d, d + 1] else [d]
def lowWords (l : List Nat) : List W32 := l.map (BitVec.ofNat 32)
def highWords (l : List Nat) : List W32 := l.map fun x => BitVec.ofNat 32 (x / 2 ^ 32)

/-- Write a result to the active lanes of d, and of d+1 for a pair (08 R173). -/
def Gang.putRes (g : Gang) (m : Mask) (d : Nat) (r : VRes) : Gang :=
  let g1 := g.putV d m (lowWords r.vals) r.tag
  if r.pair then g1.putV (d + 1) m (highWords r.vals) r.tag else g1

/-! ### Reflection checking (10 R210 to R213) -/

/-- Beat and slot of a lane: the active lanes are packed in increasing order into slots 0 to 7 of successive beats (R210). -/
def beatOf (m : Mask) (i : Nat) : Nat × Nat :=
  let r := maskCount (m &&& lowMask i)
  (r / 8, r % 8)
/-- Slot in which a lane packed into slot j runs in a pass: j in the first, (j + 1) mod 8 in the second (R212). -/
def slotIn (pass j : Nat) : Nat := (j + pass % 2) % 8
/-- The bits that a lane gives in a pass, under the upsets of its pipe; `x` is what an upset does to them. -/
def passVal (us : List PipeUpset) (x : PipeUpset → Nat) (m : Mask) (vals : List Nat) (pass i : Nat) : Nat :=
  let (b, j) := beatOf m i
  us.foldl (fun v u => if u.beat == b && u.pass == pass && u.slot == slotIn pass j then v ^^^ x u else v) (vals.getD i 0)

/-- What a bundle writes back: the lanes' bits, the beats that a retry corrected, and whether a beat's retry differed too. -/
structure Checked where
  vals : List Nat
  corrected : Nat
  failed : Bool

/-- The passes of every beat and their comparison, bit for bit (R212, R213). With checking off each beat runs once (R214). -/
def reflect (check : Bool) (us : List PipeUpset) (x : PipeUpset → Nat) (m : Mask) (vals : List Nat) : Checked :=
  let run := passVal us x m vals
  let agree (p b : Nat) : Bool := (lanesOf m).all fun i => (beatOf m i).1 != b || run p i == run (p + 1) i
  let redo (b : Nat) : Bool := check && !agree 0 b
  ⟨lanes32.map fun i => run (if redo (beatOf m i).1 then 2 else 0) i,
   ((rangeFrom 0 4).filter fun b => redo b && agree 2 b).length,
   (rangeFrom 0 4).any fun b => redo b && !agree 2 b⟩

/-- The checked write-back of a bundle (R219): `k` goes on with the lanes' bits, none where they stand as computed. A corrected
mismatch counts; one that the retry repeats faults CHECK_FAIL on every active lane and writes none. -/
def State.reflected (s : State) (c : Cur) (t : Team) (x : PipeUpset → Nat) (vals : List Nat) (k : State → Option (List Nat) → State) :
    State :=
  match (s.core t.core).upsets.filter (·.quarter == c.gang % 4) with
  | [] => k s none
  | us =>
    let o := reflect t.check us x c.mask vals
    let s1 := s.modCore t.core fun e => { e with upsets := e.upsets.filter (·.quarter != c.gang % 4) }
    let s2 := (rangeFrom 0 o.corrected).foldl (fun s _ => s.countErr t.func 5) s1
    if o.failed then s2.raiseAll c ⟨.checkFail, 0⟩ else k s2 (some o.vals)

/-- An instruction that reads vector registers and writes lanes of d: `f` gives the result or why there is none. -/
def State.vecOp (s : State) (os : List Opnd) (d : Nat) (f : Team → Gang → Mask → Except Stop VRes) : Out :=
  s.withActive fun c t g =>
    match f t g c.mask with
    | .error (.ill x) => s.illValue c x
    | .error (.flt x) => s.raiseAll c x
    | .ok r => s.reflected c t (·.bits.toNat) r.vals fun s vals =>
        s.commitGang c g ((g.freeLast os (r.regs d)).putRes c.mask d { r with vals := vals.getD r.vals })

/-- As `vecOp`, where the operands `os` are freed whole when they were read as pairs. -/
def State.vecOpP (s : State) (os : List Opnd) (singles : List Opnd) (d : Nat)
    (f : Team → Gang → Mask → Except Stop VRes) : Out :=
  s.withActive fun c t g =>
    match f t g c.mask with
    | .error (.ill x) => s.illValue c x
    | .error (.flt x) => s.raiseAll c x
    | .ok r => s.reflected c t (·.bits.toNat) r.vals fun s vals =>
      let g1 := (if r.srcPair then os.foldl (fun g o => g.freePair o (r.regs d)) g else g.freeLast os (r.regs d)).freeLast
        singles (r.regs d)
      s.commitGang c g (g1.putRes c.mask d { r with vals := vals.getD r.vals })

/-- An instruction that writes lanes of a predicate. -/
def State.predOp (s : State) (os : List Opnd) (p : Nat) (f : Gang → Except Stop (Bool × Mask)) : Out :=
  s.withActive fun c t g =>
    match f g with
    | .error (.ill x) => s.illValue c x
    | .error (.flt x) => s.raiseAll c x
    | .ok (pair, v) => s.reflected c t (·.pred.toNat) (lanes32.map fun i => (v.getLsbD i).toNat) fun s vals =>
      let g1 := if pair then os.foldl (fun g o => g.freePair o []) g else g.freeLast os []
      s.commitGang c g (g1.putP p c.mask ((vals.map fun l => maskOf (lanes32.filter fun i => l.getD i 0 == 1)).getD v))

/-- An instruction that acts once for the gang on its registers. -/
def State.gangOp (s : State) (f : Team → Gang → Except Stop Gang) : Out :=
  s.withActive fun c t g =>
    match f t g with
    | .error (.ill x) => s.illValue c x
    | .error (.flt x) => s.raiseAll c x
    | .ok g' => s.commitGang c g g'

end Sys2Proof.Machine
end

