-- ==== Sys2Proof/Machine/Code.lean ====
section
/-! DEFINITION. Reading code (02 R14 to R17) without and with the faults of a fetch. -/

namespace Sys2Proof.Machine

/-- Contents that a fetch of a code sector may return for a launch dispatched at `stamp` (02 R17): the content now, and every
content that a later store replaced. -/
def State.codeContents (s : State) (sec stamp : Nat) : List (BitVec 256) :=
  s.sectorData sec :: ((s.oldCode.filter fun o => o.sector == sec && decide (stamp ≤ o.stamp)).map (·.data))

/-- Distinct members, the first kept. -/
def distinct (l : List (BitVec 256)) : List (BitVec 256) := l.foldl (fun a x => if a.contains x then a else a ++ [x]) []

/-- A halfword of code at a device-memory address, for a launch: a free choice when the sector was stored to since. -/
def State.codeHalf (s : State) (a stamp : Nat) : W16 × State :=
  let half (x : BitVec 256) : W16 := (x >>> (8 * (a % 32))).setWidth 16
  match distinct (s.codeContents (sectorOf a) stamp) with
  | [] => (0, s)
  | [x] => (half x, s)
  | x :: rest => (half ((x :: rest).getD (Config.choice s.free % (rest.length + 1)) x), { s with free := s.free + 1 })

/-- What a fetch ends in (02 R16, R59): a halfword, a walk to wait for, or a fault. -/
inductive Fetched where
  | half (h : W16)
  | walk
  | fault (f : Flt)
deriving DecidableEq, Repr

/-- Fetch a halfword at a guest virtual address for a gang on a core. -/
def State.fetch (s : State) (core func stamp pc : Nat) : Fetched × State :=
  match s.lookup core func pc .fetch .fetch with
  | none => (.walk, s)
  | some (.error f) => (.fault f, s)
  | some (.ok t) =>
    match t.tgt with
    | .mem a =>
      let s1 := s.homeFill (sectorOf a) func none
      if s1.homePoison (sectorOf a) then (.fault ⟨.uncorrData, 0⟩, s1)
      else
        let (h, s2) := s1.codeHalf a stamp
        (.half h, s2)
    | _ => (.fault ⟨.perm, 5⟩, s)

/-- The halfword that stands at an address, if the tables give one now. Nothing changes. -/
def State.peek (s : State) (core func pc : Nat) : Option W16 :=
  let t := match s.lookup core func pc .fetch .fetch with
    | some r => r
    | none => (s.translate func pc .fetch .fetch).1
  match t with
  | .ok ⟨_, .mem a, _, _⟩ => some (BitVec.ofNat 16 (leNat (s.homeRead a 2)))
  | _ => none

/-- Does a clause header stand at an address (02 R18)? -/
def State.headerAt (s : State) (core func pc : Nat) : Bool :=
  match s.peek core func pc with
  | some h => h.toNat % 16 == 15
  | none => false

/-- Is a halfword a PRED (02 R33)? -/
def isPred (h : W16) : Bool := h.toNat % 64 == 0x20

/-- The address and the word of the instruction at which an entry stands: past a PRED prefix (14 R380). -/
def State.instrAt (s : State) (core func pc : Nat) : Nat × W32 :=
  let a := match s.peek core func pc with
    | some h => if isPred h then pc + 2 else pc
    | none => pc
  match s.peek core func a with
  | none => (a, 0)
  | some lo =>
    if lo.toNat % 2 = 0 then (a, lo.setWidth 32)
    else (a, ((s.peek core func (a + 2)).getD 0).setWidth 32 <<< 16 ||| lo.setWidth 32)

end Sys2Proof.Machine
end

