-- ==== Sys2Proof/Machine/Records.lean ====
section
/-! DEFINITION. Faults of queues (06 R152, R382) and the record-replay log (15 R354 to R356). -/

namespace Sys2Proof.Machine

/-! ### Queue faults -/

def Func.queue? (f : Func) (page : Nat) : Option Queue := f.queues.find? (·.page == page)
def State.queue? (s : State) (func page : Nat) : Option Queue := (s.func func).queue? page
def State.modQueue (s : State) (func page : Nat) (g : Queue → Queue) : State :=
  s.modFunc func fun f => { f with queues := modIf (·.page == page) g f.queues }

/-- Detail of QUEUE_FMT (06 Table 6-15). -/
def queueDetail (origin low : Nat) : Nat := origin * 2 ^ 56 + low
/-- The low field of origins 0, 1 and 3. -/
def queueLow (fcode offset : Nat) : Nat := fcode * 256 + offset

/-- A record of a queue or of the scheduler (06 R152): flags bit 0, the header address in pc, the slot in extra. -/
def queueRecord (func header slot : Nat) (code : FaultCode) (detail : Nat) (launch : Nat := 0) : Record :=
  { ring := 1, code := code, flags := 1, func := func, launch := launch, team := 0, gang := 0xFF, unit := 0xFF, lanes := 0
    word := 0, pc := header, detail := BitVec.ofNat 64 detail, extra := BitVec.ofNat 64 slot, reqId := 0, need := .read
    waited := false, queue := none, seqOf := none, corrupt := false }

/-- A queue stops at its rd with a record (06 R152). A restart takes the slot at rd again from the start. -/
def State.queueFault (s : State) (func page slot : Nat) (code : FaultCode) (detail : Nat) : State :=
  match s.queue? func page with
  | none => s
  | some q =>
    let s1 := (s.post (queueRecord func q.header slot code detail)).modQueue func page fun q => { q with stopped := true, readable := false }
    if slot ≠ q.lastRd then s1
    else
      { s1.modQueue func page fun q => { q with wrote := 0 } with
        fetched := s1.fetched.filter fun x => x.who != .queue func page }

/-- A doorbell write (16 R359, 06 R149): the scheduler may read the queue; a stopped queue reads again only after a restart
(16 R367). -/
def State.ringBell (s : State) (func page : Nat) : State :=
  s.modQueue func page fun q =>
    if q.stopped && !q.restarted then q else { q with stopped := false, restarted := false, readable := true }

/-- A store of `n` bytes at an offset of a doorbell page: only a 32- or 64-bit store at offset 0 is a doorbell write (16 R359). -/
def State.bellStore (s : State) (func page off n : Nat) : State :=
  if off = 0 && (n = 4 || n = 8) && decide (page ≤ 4095) then s.ringBell func page else s

/-- A packet that has started completes. -/
def State.packetDone (s : State) (func page slot : Nat) : State :=
  s.modQueue func page fun q => { q with running := q.running.filter fun p => !(p.slot == slot) }

/-! ### The log (15 R354) -/

/-- A 32-byte log entry (15 Table 15-3). -/
def logLine (kind lane launch a b : Nat) : List Byte :=
  leBytes kind 4 ++ leBytes lane 4 ++ leBytes launch 8 ++ leBytes a 8 ++ leBytes b 8

/-- In record mode, append to the log. An entry that finds no room stops the function's queues, with origin 4 (15 R354). -/
def State.logWrite (s : State) (func : Nat) (bytes : List Byte) : State :=
  match (s.func func).recmode with
  | none => s
  | some r =>
    if r.replaying || r.full then s
    else if r.pos + bytes.length ≤ r.size then
      (s.homeWrite (r.log + r.pos) func bytes false).modFunc func fun f =>
        { f with recmode := some { r with pos := r.pos + bytes.length } }
    else
      let s1 := s.modFunc func fun f => { f with recmode := some { r with full := true } }
      ((s1.func func).queues.map (·.page)).foldl
        (fun s p => s.queueFault func p (((s.queue? func p).map (·.lastRd)).getD 0) .queueFmt (queueDetail 4 0)) s1

/-- Bytes that an entry of the log takes, its packet or snapshot included (15 R354, R355). -/
def logLength (l : List Byte) : Nat :=
  match leField l 0 1 with
  | 1 => 96
  | 2 => 32 + ceilDiv (leField l 24 8) 32 * 32
  | _ => 32

/-- The log's entries from an offset: offset and first 32 bytes of each. -/
def State.logFrom (s : State) (r : RecMode) : Nat → Nat → List (Nat × List Byte)
  | 0, _ => []
  | fuel + 1, pos =>
    if r.size < pos + 32 then []
    else
      let l := s.homeRead (r.log + pos) 32
      if leField l 0 1 = 0 || decide (4 < leField l 0 1) then [] else (pos, l) :: s.logFrom r fuel (pos + logLength l)
def State.logEntries (s : State) (r : RecMode) : List (Nat × List Byte) := s.logFrom r (r.size / 32) 0

/-- In replay mode, the first log entry not yet taken that satisfies `p`; its offset and bytes. -/
def State.logFind (s : State) (r : RecMode) (p : List Byte → Bool) : Option (Nat × List Byte) :=
  (s.logEntries r).find? fun x => !r.used.contains x.1 && p x.2

/-- Take the logged value of a lane's atomic or of a draw: field at `off` of the entry that satisfies `p`. -/
def State.logTake (s : State) (func : Nat) (p : List Byte → Bool) (off : Nat) : Option Nat × State :=
  match (s.func func).recmode with
  | none => (none, s)
  | some r =>
    if !r.replaying then (none, s)
    else
      match s.logFind r p with
      | none => (none, s)
      | some (k, l) => (some (leField l off 8), s.modFunc func fun f => { f with recmode := some { r with used := r.used ++ [k] } })

/-- The value that a lane's `ATOM` or `CAS` returns (15 R355, R356): recorded in record mode; in replay mode the logged value,
with a divergence counted when memory held another. -/
def State.loggedAtomic (s : State) (func launch gi lane va old : Nat) : Nat × State :=
  match (s.func func).recmode with
  | none => (old, s)
  | some r =>
    if !r.replaying then (old, s.logWrite func (logLine 3 (lane + gi * 256) launch va old))
    else
      match s.logTake func (fun l => leField l 0 4 == 3 && leField l 4 4 == lane + gi * 256 && leField l 16 8 == va) 24 with
      | (none, s1) => (old, s1)
      | (some v, s1) => (v, if v = old then s1 else s1.modFunc func fun f => { f with diverge := f.diverge + 1 })

/-- Is the function in record or replay mode? -/
def Func.fixedOrder (f : Func) : Bool := f.recmode.isSome

end Sys2Proof.Machine
end

