-- ==== Sys2Proof/Machine/Eligible.lean ====
section
/-! DEFINITION. Which entries may issue (13 R287, R288): the conditions under which each state holds an entry back; and what a
fetch that does not answer does to its entry (02 R16). -/

namespace Sys2Proof.Machine

/-! ### Counts that stalls look at -/

def Elem.open_ (e : Elem) : Bool := e.st != .done && e.st != .ended
/-- Is an element an access to a SEQ page that is not yet performed? -/
def Elem.seqOpen (e : Elem) : Bool :=
  e.open_ && (match e.trans with
    | some t => t.ty == .seq
    | none => false)

/-- The gang that a request serves. -/
def FabReq.gang? (r : FabReq) : Option (Nat × Nat × Nat) :=
  match r.owner with
  | .op l t g _ _ => some (l, t, g)
  | .store l t g _ _ _ => some (l, t, g)
  | .fill _ _ _ => some (r.pkt.launch, r.pkt.team, r.pkt.gang)
  | _ => none
/-- Is a request a fabric store of R118: a store, an atomic, a release, an arrival or the flag store of `RFENCE`? -/
def PktKind.isStore : PktKind → Bool
  | .read => false
  | .copyRead => false
  | .copyWrite => false
  | .reduce => false
  | .close => false
  | _ => true
def FabReq.storeOf (r : FabReq) (l t gi : Nat) : Bool := Sys2Proof.Machine.PktKind.isStore r.pkt.kind && r.gang? == some (l, t, gi)

/-- SEQ accesses of a gang issued before `since` and not yet performed, its copies that touch a SEQ page and its stores under way to
a peer among them (12 R262, 06 R135). -/
def State.seqPending (s : State) (l t gi : Nat) (g : Gang) (since : Nat) : Bool :=
  (s.core (s.coreOf l t)).copies.any (fun x => x.seq && x.owner == .gang l t gi && decide (x.id < since)) ||
  (s.core (s.coreOf l t)).cpyts.any (fun x => x.seq && x.launch == l && x.team == t && x.gang == gi && decide (x.id < since)) ||
  g.ops.any (fun o => o.elems.any fun e => decide (e.seq < since) && e.seqOpen) ||
  g.stq.any (fun x => x.elems.any fun e => decide (e.seq < since) && e.seqOpen) ||
  (s.core (s.coreOf l t)).reqs.any (fun r => r.storeOf l t gi && r.ty == .seq && decide (r.issue < since))

/-- Instructions of the memory-return class (02 Table 2-2). -/
def OpKind.isReturn : OpKind → Bool
  | .maint _ => false
  | .store _ => false
  | .rfence _ _ _ => false
  | _ => true

def OpKind.isLoad : OpKind → Bool
  | .ld _ => true
  | .ldacq _ => true
  | .sld _ => true
  | _ => false

/-- Is a load that issued before `since` still to be performed for one of these lanes (12 R260)? -/
def Gang.olderOpen (g : Gang) (since : Nat) (m : Mask) : Bool :=
  g.ops.any fun o => o.kind.isLoad && decide (o.seq < since) && o.elems.any fun e => e.open_ && o.lanesOf e &&& m != 0

/-- Does an entry hold lanes of a load whose translation, slot or turn is still to come? They stay in it, and it goes no further
than a clause header (04 R82, R101, 19 R376; log 40). -/
def Gang.held (g : Gang) (e : Entry) : Bool :=
  g.ops.any fun o => o.kind.isLoad && o.elems.any fun x => (x.st == .walking || x.st == .pending) && o.lanesOf x &&& e.mask != 0

/-- Fabric stores of a gang that are not acknowledged. -/
def State.fabricOpen (s : State) (l t gi : Nat) : Bool := (s.core (s.coreOf l t)).reqs.any (·.storeOf l t gi)

/-- Those to SEQ and ONCE pages, and the lanes of `ATOMR` (04 R93, 12 R277). -/
def State.orderedOpen (s : State) (l t gi : Nat) : Bool :=
  (s.core (s.coreOf l t)).reqs.any fun r =>
    r.storeOf l t gi && (r.ty == .seq || r.ty == .once || r.pkt.kind == .atomr)

/-- Frontier entries of a core that stalled for a reason before `since`: a stalled gang holds its place in issue order (06 R127). -/
def State.ahead (s : State) (core since : Nat) (why : Stall) : Nat :=
  ((s.teams.filter fun t => t.core == core && !t.stopped).map fun t => (t.gangs.map fun g => (g.frontier.filter fun e =>
    e.st == .stalled why && e.since != 0 && decide (e.since < since)).length).sum).sum
/-- Is a copy slot, or a range-lock entry, there for an instruction that issued at `since`, older ones served first? -/
def State.copySlotFree (s : State) (core since : Nat) : Bool :=
  decide ((s.core core).copies.length + s.ahead core since .copySlot < 16)
def State.lockFree (s : State) (core since n : Nat) : Bool :=
  decide (n = 0) || (decide ((s.core core).locks.length + n ≤ 64) && s.ahead core since .rangeLock == 0)
/-- Is a `CPYT` record of the gang there? -/
def State.cpytFree (s : State) (l t gi : Nat) (g : Gang) (since : Nat) : Bool :=
  decide (((s.core (s.coreOf l t)).cpyts.filter fun x => x.launch == l && x.team == t && x.gang == gi).length +
    (g.frontier.filter fun e => e.st == .stalled .cpytRecord && e.since != 0 && decide (e.since < since)).length < 8)

/-- Free slots of a ring, records that wait for it counted in. -/
def Func.ringRoom (f : Func) (k : Nat) : Bool :=
  match f.rings[k]? with
  | none => false
  | some r => r.set && decide ((r.wr + 2 ^ 32 - r.rd) % 2 ^ 32 + (f.pend.filter (·.ring == k)).length < 2 ^ r.k)

/-- Terminal-ring records that the reporting port holds for a function (14 R313). -/
def Func.portCount (f : Func) : Nat := (f.pend.filter fun r => r.ring == 1 || r.ring == 3).length
/-- Is there room at the port for less than a record of each lane of a gang? -/
def Func.portShort (f : Func) : Bool := decide (32 < f.portCount)
/-- Does a step leave more records at a function's port than it can hold? -/
def State.overfills (s s1 : State) : Bool :=
  s1.funcs.any fun f => decide (64 < f.portCount) && decide ((s.func f.id).portCount < f.portCount)

/-- Home-cache misses that a tenant may hold in a bay (14 R337): the share's cap, or the governor's lower one. -/
def Func.missCap (f : Func) : Nat :=
  let c := max 8 (2048 * f.cfg.share / 1000)
  match f.capNow with
  | some n => min c n
  | none => c

/-- Elements of loads on a core that issued before `since` and still wait to start. -/
def State.waitingLoads (s : State) (core since : Nat) : Nat :=
  ((s.teams.filter (·.core == core)).map fun t => (t.gangs.map fun g => ((g.ops.filter fun o =>
    o.kind.isLoad && decide (o.seq < since)).map fun o => (o.elems.filter (·.st == .pending)).length).sum).sum).sum
/-- Is a miss slot free for an access of a function that issued at `since`, loads that wait longer served first (04 R82, 14 R337)? -/
def State.slotFree (s : State) (core func since : Nat) : Bool :=
  let n := s.waitingLoads core since
  decide ((s.core core).slots.length + n < Config.missSlots) &&
  decide (((s.cores.filter fun c => bayOf c.id == bayOf core).foldl
    (fun n c => n + (c.slots.filter (·.func == func)).length) 0) + n < (s.func func).missCap)

/-- A matrix operation of a team on an accumulator, issued before `since` and not complete (11 R241, R249). -/
def Core.opsOn (c : Core) (l t acc since : Nat) : Bool :=
  c.engine.any fun o => o.launch == l && o.team == t && fld o.word.toNat 10 3 == acc && decide (o.id < since)
/-- An `MSTORE` of a team on an accumulator, issued before `since`, with elements still to read (11 R253). -/
def Core.storesOn (c : Core) (l t acc since : Nat) : Bool :=
  c.copies.any fun x =>
    decide (x.id < since) &&
    (match x.owner, x.store with
     | .gang l' t' _, some m => l' == l && t' == t && m.acc == acc && x.chunks.any fun k => k.st != .done && k.st != .fault
     | _, _ => false)
/-- Does work on an accumulator hold back an instruction of the team that would issue now: any matrix operation that has issued and is
not complete, and for `stores` any `MSTORE` that has still to read (11 R249, R251)? -/
def State.accBusy (s : State) (t : Team) (acc : Nat) (stores : Bool) : Bool :=
  (s.core t.core).opsOn t.launch t.num acc (s.fresh + 1) ||
    (stores && (s.core t.core).storesOn t.launch t.num acc (s.fresh + 1))

/-- Is a tile EMPTY in the sense of 07 R161: armed and not FULL? -/
def Presence.empty (p : Presence) : Bool := p.armed && !p.full
def State.tileEmpty (s : State) (core : Nat) (b : Buf) (t : Nat) : Bool := (((s.core core).buf b).presence t).empty

/-- Do walks of a core's die still wait for this entry's lanes (04 R101)? -/
def State.walking (s : State) (l t gi : Nat) (e : Entry) : Bool :=
  (s.die (dieOfCore (s.coreOf l t))).walks.any fun w => w.sharers.any fun x =>
    match x.who with
    | .op l' t' g' _ lane => l' == l && t' == t && g' == gi && e.mask.getLsbD lane
    | .entry l' t' g' eid => l' == l && t' == t && g' == gi && eid == e.eid
    | _ => false

/-- Is an access that used a dropped translation still to be performed (03 R74)? -/
def State.opOpen (s : State) (l t gi id : Nat) : Bool :=
  match s.gang? l t gi with
  | none => false
  | some g =>
    g.ops.any (fun o => o.id == id && o.elems.any fun e => e.open_ && e.trans.isSome) || g.stq.any fun x => x.id == id

/-- Does an invalidation still wait? -/
def State.fenceOpen (s : State) (f : TFence) : Bool :=
  !f.waiting.isEmpty || f.ops.any (fun x => s.opOpen x.1 x.2.1 x.2.2.1 x.2.2.2) ||
  f.reqs.any (fun x => (s.core x.1).reqs.any fun r => r.id == x.2) ||
  f.marks.any fun x => (s.core x.1).markers.any fun m => m.id == x.2

/-! ### Stalls -/

/-- Does the reason of a stall still hold? The entry tests its instruction again when it reissues. -/
def State.blocked (s : State) (l t gi : Nat) (g : Gang) (e : Entry) : Stall → Bool
  | .flags m => (rangeFrom 0 12).any fun k => m.getLsbD k && g.flag k != 0
  | .flagFull k => g.flagFull k
  | .stqFull => decide (Config.stqSize ≤ g.stq.length)
  | .stqEmpty => g.stq.any fun x => decide (x.seq < e.since)
  | .memReturn => g.ops.any fun x => decide (x.seq < e.since) && x.kind.isReturn
  | .seqAccess => s.seqPending l t gi g e.since
  | .copySlot => !(s.copySlotFree (s.coreOf l t) e.since)
  | .cpytRecord => !(s.cpytFree l t gi g e.since)
  | .rangeLock => !(s.lockFree (s.coreOf l t) e.since 1)
  | .tagFull k => decide (255 ≤ g.ctags.getD k 0)
  | .tags m => (rangeFrom 0 8).any fun k => m.getLsbD k && g.ctags.getD k 0 != 0
  | .regs => (s.core (s.coreOf l t)).claims.any fun x =>
      x.launch == l && x.team == t && x.gang == gi && x.ref == e.eid && x.kind == .write
  | .handler => !((s.func (s.funcOf l t)).ringRoom 2)
  | .markers => decide (Config.markerMax ≤ (s.core (s.coreOf l t)).markers.length)
  | .marker id => (s.core (s.coreOf l t)).markers.any (·.id == id)
  | .acks all => if all then s.fabricOpen l t gi else s.orderedOpen l t gi
  | .svc seq => !((s.func (s.funcOf l t)).svcGot.any (·.1 == seq))
  | .resume => true
  | .engineFull => decide (16 ≤ (s.core (s.coreOf l t)).engine.length)
  | .accBusy acc stores => ((s.team? l t).map fun x => s.accBusy x acc stores).getD false
  | .gangDone => s.gangBusy l t gi
  | .walk => s.walking l t gi e || g.held e
  | .walkFull => !(s.walkRoom (s.coreOf l t))
  | .requester => decide (Config.requesters ≤ (s.core (s.coreOf l t)).reqs.length)
  | .tfence id => s.tfences.any fun f => f.id == id && s.fenceOpen f
  | .hostRead => g.hostWrote
  | .ldacq => g.ops.any fun x => decide (x.seq < e.since) && (match x.kind with
      | .ldacq _ => true
      | _ => false)
  | .older => g.olderOpen e.since e.mask
  | .stepHold => (match (s.func (s.funcOf l t)).checkpoint with
      | some k => (k.hold.map fun h => decide (h.toNat < (g.step + 1).toNat)).getD false
      | none => false)
  | .barArrive k => (match (s.team? l t).bind (·.bars[k]?) with
      | some b => b.arrived.getLsbD gi
      | none => false)
  | .checkpoint => g.reachedStep
  | .queueRoom => false
  | .port => (s.func (s.funcOf l t)).portShort

/-- May an entry issue (13 R287)? A polling entry waits for its retest (07 R164). -/
def State.eligible (s : State) (l t gi : Nat) (g : Gang) (e : Entry) : Bool :=
  match e.st with
  | .ready => true
  | .stalled r => !(s.blocked l t gi g e r)
  | .parked _ _ => false
  | .tile core b n => !(s.tileEmpty core b n)
  | .polling _ _ _ _ => false
  | .reconv => g.frontier.all fun x => x.eid == e.eid || decide (e.pc ≤ x.pc)
  | .barrier k phase => (match (s.team? l t).bind (·.bars[k]?) with
      | some b => decide (phase < b.phase)
      | none => true)
  | .baton => s.batonFor (s.coreOf l t) l t gi e.eid false ||
      (match (s.core (s.coreOf l t)).baton, (s.batonWaiting (s.coreOf l t)).find? (fun q =>
          q.launch == l && q.team == t && q.gang == gi && q.eid == e.eid) with
       | .gang l' t' _, some q => q.byTeam && l' == l && t' == t
       | _, _ => false)
  | .claim _ _ => false

/-! ### A fetch that does not answer (02 R16) -/

/-- The fetch of the halfword at `a` waits for a walk: the whole entry stalls, or waits for room in the walk queue. -/
def State.fetchWalk (s : State) (l t gi eid a : Nat) : State :=
  let core := s.coreOf l t
  let func := s.funcOf l t
  if s.walkFull core func a then
    s.modEntry l t gi eid fun e => { e with st := .stalled .walkFull, promoted := none }
  else
    (s.queueWalk core func a ⟨.entry l t gi eid, .fetch, a⟩).modEntry l t gi eid
      fun e => { e with st := .stalled .walk, promoted := none }

/-- A fetch fault: a missing translation parks the whole entry; any other falls on every lane of the entry, and its record
names the halfword. -/
def State.fetchFault (s : State) (l t gi eid a : Nat) (f : Flt) : State :=
  match classOf f.code with
  | .retryable =>
    let (req, s1) := s.pageMiss (s.funcOf l t) f ⟨.entry l t gi eid, .fetch, a⟩
    s1.modEntry l t gi eid fun e => { e with st := .parked req.1 req.2, promoted := none }
  | _ =>
    match (s.gang? l t gi).bind (·.entry? eid) with
    | none => s
    | some e => s.raiseAt l t gi e.mask f.code f.detail a 0

end Sys2Proof.Machine
end

