-- ==== Sys2Proof/Machine/Num.lean ====
section
/-! DEFINITION. Number formats (chapter 09): exact values, the IEEE formats, T8 and T6, UE5M3 scales, rounding, exact sums and
products, and the bounded functions of 10 R225. -/

namespace Sys2Proof.Machine

/-- An exact rational n / d × 2^e. -/
structure Q where
  n : Int
  d : Nat
  e : Int
deriving DecidableEq, Repr

/-- An exact value: a NaN or NaR, an infinity, or a rational with the sign that a zero carries. -/
inductive Val where
  | nan
  | inf (neg : Bool)
  | fin (neg : Bool) (q : Q)
deriving DecidableEq, Repr

/-- Rounding modes by SR_ROUND code (00 Table 0-3). -/
inductive RMode where
  | rne | rtz | rup | rdn
deriving DecidableEq, Repr

def rmodeOf : Nat → RMode
  | 1 => .rtz
  | 2 => .rup
  | 3 => .rdn
  | _ => .rne

/-- An IEEE format by exponent and fraction bits (09 Table 9-2). -/
structure Fmt where
  eb : Nat
  fb : Nat
deriving DecidableEq, Repr

def fF16 : Fmt := ⟨5, 10⟩
def fBF16 : Fmt := ⟨8, 7⟩
def fF32 : Fmt := ⟨8, 23⟩
def fF64 : Fmt := ⟨11, 52⟩

def Fmt.bias (f : Fmt) : Nat := 2 ^ (f.eb - 1) - 1
def Fmt.width (f : Fmt) : Nat := 1 + f.eb + f.fb
def Fmt.infBits (f : Fmt) : Nat := (2 ^ f.eb - 1) * 2 ^ f.fb
/-- The canonical quiet NaN. -/
def Fmt.nan (f : Fmt) : Nat := f.infBits + 2 ^ (f.fb - 1)
def Fmt.signBit (f : Fmt) (neg : Bool) : Nat := if neg then 2 ^ (f.eb + f.fb) else 0
def Fmt.inf (f : Fmt) (neg : Bool) : Nat := f.infBits + f.signBit neg

/-- The exact value of a pattern. -/
def Fmt.val (f : Fmt) (x : Nat) : Val :=
  let neg := x.testBit (f.eb + f.fb)
  let ex := fld x f.fb f.eb
  let fr := fld x 0 f.fb
  let sg : Int := if neg then -1 else 1
  if ex = 2 ^ f.eb - 1 then (if fr = 0 then .inf neg else .nan)
  else if ex = 0 then .fin neg ⟨sg * (fr : Int), 1, 1 - (f.bias : Int) - f.fb⟩
  else .fin neg ⟨sg * ((fr + 2 ^ f.fb : Nat) : Int), 1, (ex : Int) - f.bias - f.fb⟩

/-- x × 2^k for an integer k, as numerator and denominator. -/
def scaleUp (x : Nat) (k : Int) : Nat := if 0 ≤ k then x * 2 ^ k.toNat else x
def scaleDown (x : Nat) (k : Int) : Nat := if 0 ≤ k then x else x * 2 ^ (-k).toNat

/-- ⌊log2⌋ of the positive rational a / d × 2^e. -/
def log2Floor (a d : Nat) (e : Int) : Int :=
  let l : Int := (Nat.log2 a : Int) - Nat.log2 d
  -- a / d lies in (2^(l-1), 2^(l+1))
  if d * 2 ^ l.toNat ≤ a * 2 ^ (-l).toNat then l + e else l - 1 + e

/-- Round the quotient N / D to an integer under a mode; `neg` is the sign of the value rounded. -/
def roundQuot (mode : RMode) (neg : Bool) (n d : Nat) : Nat :=
  let q := n / d
  let r := n % d
  if r = 0 then q
  else match mode with
    | .rtz => q
    | .rup => if neg then q else q + 1
    | .rdn => if neg then q + 1 else q
    | .rne => if 2 * r < d then q else if d < 2 * r then q + 1 else q + q % 2

/-- Round a nonzero magnitude a / d × 2^e to the format: its pattern without the sign. -/
def Fmt.roundMag (f : Fmt) (mode : RMode) (neg : Bool) (a d : Nat) (e : Int) : Nat :=
  let ex := log2Floor a d e
  let emin : Int := 1 - (f.bias : Int)
  let u : Int := (if ex < emin then emin else ex) - f.fb
  let q := roundQuot mode neg (scaleUp a (e - u)) (scaleDown d (e - u))
  let be : Int := u + f.fb + f.bias
  let bits := (be - 1).toNat * 2 ^ f.fb + q
  if f.infBits ≤ bits then
    (match mode with
     | .rne => f.infBits
     | .rtz => f.infBits - 1
     | .rup => if neg then f.infBits - 1 else f.infBits
     | .rdn => if neg then f.infBits else f.infBits - 1)
  else bits

/-- Round an exact value (09 R193, R203): NaN gives the canonical NaN, a zero keeps its sign. -/
def Fmt.round (f : Fmt) (mode : RMode) : Val → Nat
  | .nan => f.nan
  | .inf neg => f.inf neg
  | .fin neg q =>
    if q.n = 0 then f.signBit neg
    else
      let s := decide (q.n < 0)
      f.signBit s + f.roundMag mode s q.n.natAbs q.d q.e

/-! ### Exact arithmetic -/

def Q.neg (q : Q) : Q := { q with n := -q.n }
def Q.mul (x y : Q) : Q := ⟨x.n * y.n, x.d * y.d, x.e + y.e⟩
def Q.add (x y : Q) : Q :=
  let e := min x.e y.e
  let xn := x.n * (2 ^ (x.e - e).toNat : Nat) * (y.d : Int)
  let yn := y.n * (2 ^ (y.e - e).toNat : Nat) * (x.d : Int)
  ⟨xn + yn, x.d * y.d, e⟩
def Q.ofInt (n : Int) : Q := ⟨n, 1, 0⟩
/-- Comparison of exact values. -/
def Q.cmp (x y : Q) : Ordering := compare (Q.add x y.neg).n 0

def Val.ofInt (n : Int) : Val := .fin (decide (n < 0)) (.ofInt n)
def Val.isNeg : Val → Bool
  | .nan => false
  | .inf n => n
  | .fin n q => if q.n = 0 then n else decide (q.n < 0)
def Val.isZero : Val → Bool
  | .fin _ q => q.n == 0
  | _ => false
def Val.neg : Val → Val
  | .nan => .nan
  | .inf n => .inf (!n)
  | .fin n q => .fin (!n) q.neg

/-- Exact product: ∞ × 0 and NaN give NaN (10 R224). -/
def Val.mul (x y : Val) : Val :=
  match x, y with
  | .nan, _ => .nan
  | _, .nan => .nan
  | .inf a, v => if v.isZero then .nan else .inf (a != v.isNeg)
  | v, .inf a => if v.isZero then .nan else .inf (a != v.isNeg)
  | .fin a p, .fin b q => .fin (a != b) (p.mul q)

/-- The sum of exact terms (10 R224): NaN, ∞ and −∞ together give NaN; an exact zero is +0, but −0 under RDN and when every
term is −0. -/
def Val.sum (mode : RMode) (ts : List Val) : Val :=
  if ts.any (· == .nan) then .nan
  else
    let pinf := ts.any (· == .inf false)
    let ninf := ts.any (· == .inf true)
    if pinf && ninf then .nan
    else if pinf then .inf false
    else if ninf then .inf true
    else
      let q := ts.foldl (fun a t => match t with
        | .fin _ q => a.add q
        | _ => a) (Q.ofInt 0)
      if q.n = 0 then
        let allNeg := ts.all fun t => t.isZero && t.isNeg
        .fin (allNeg || (mode == .rdn && !(ts.all fun t => t.isZero && !t.isNeg))) ⟨0, 1, 0⟩
      else .fin (decide (q.n < 0)) q

/-- Numeric comparison of two non-NaN values. -/
def Val.cmp (x y : Val) : Ordering :=
  match x, y with
  | .inf a, .inf b => if a = b then .eq else if a then .lt else .gt
  | .inf a, _ => if a then .lt else .gt
  | _, .inf b => if b then .gt else .lt
  | .fin _ p, .fin _ q => p.cmp q
  | _, _ => .eq

/-- FMIN and FMAX patterns (10 R224, 04 R97): a NaN beside a number gives the number, two NaNs the canonical NaN, and −0
orders below +0. -/
def Fmt.minmax (f : Fmt) (mx : Bool) (x y : Nat) : Nat :=
  match f.val x, f.val y with
  | .nan, .nan => f.nan
  | .nan, _ => y
  | _, .nan => x
  | a, b =>
    let lt := match a.cmp b with
      | .lt => true
      | .gt => false
      | .eq => a.isNeg && !b.isNeg
    if lt != mx then x else y

/-! ### Integers -/

/-- Round an exact value to an integer under a mode. -/
def Q.toInt (mode : RMode) (q : Q) : Int :=
  let neg := decide (q.n < 0)
  let m := roundQuot mode neg (scaleUp q.n.natAbs q.e) (scaleDown q.d q.e)
  if neg then -(m : Int) else m

def clampInt (lo hi x : Int) : Int := if x < lo then lo else if hi < x then hi else x

/-- Convert to an integer format: NaN and NaR give 0, others round then saturate (09 R203). -/
def Val.toIntFmt (mode : RMode) (lo hi : Int) : Val → Int
  | .nan => 0
  | .inf neg => if neg then lo else hi
  | .fin _ q => clampInt lo hi (q.toInt mode)

/-! ### T8 and T6 (09 R194 to R196) -/

/-- Length of the run of bits equal to `r` downward from bit `i` of `m`. -/
def runLen (m : Nat) (r : Bool) : Nat → Nat
  | 0 => 0
  | i + 1 => if m.testBit i == r then 1 + runLen m r i else 0

/-- Exponent and 4-bit fraction of a positive T8 magnitude code (09 R194). -/
def t8Mag (m : Nat) : Int × Nat :=
  let r := m.testBit 6
  let k := runLen m r 7
  -- the terminating bit stands at 6 - k; below it e, then the fraction
  let reg : Int := if r then (k : Int) - 1 else -(k : Int)
  let left := 6 - k            -- bits below the terminating bit
  let e := if left = 0 then 0 else fld m (left - 1) 1
  let fw := left - 1
  let f := fld m 0 fw * 2 ^ (4 - fw)
  (2 * reg + e, f)

/-- DecodeT8. -/
def t8Val (c : Nat) : Val :=
  let c := c % 256
  if c = 0 then .fin false (.ofInt 0)
  else if c = 0x80 then .nan
  else
    let neg := c.testBit 7
    let (x, f) := t8Mag (c % 128)
    .fin neg ⟨(if neg then -1 else 1) * ((16 + f : Nat) : Int), 1, x - 4⟩
/-- A T6x4 slot is read with bits 1..0 as zero (09 R195). -/
def t6Val (c : Nat) : Val := t8Val (c % 256 / 4 * 4)

/-- Largest magnitude code at most the magnitude q, by binary search downward over the code's bits: `val` is the value of a
code. -/
def searchCode (val : Nat → Q) (q : Q) : Nat → Nat → Nat
  | 0, c => c
  | k + 1, c =>
    let c' := c + 2 ^ k
    if (val c').cmp q == .gt then searchCode val q k c else searchCode val q k c'

/-- EncodeT8 and EncodeT6 (09 R196): `top` and `low` are the largest and smallest magnitudes as powers of two, `bits` the width
of the magnitude code. -/
def encodeT (bits : Nat) (top low : Int) (val : Nat → Q) : Val → Nat
  | .nan => 2 ^ bits
  | .inf _ => 2 ^ bits
  | .fin _ q =>
    if q.n = 0 then 0
    else
      let s := if q.n < 0 then 2 ^ bits else 0
      let a : Q := ⟨q.n.natAbs, q.d, q.e⟩
      if a.cmp ⟨1, 1, top⟩ != .lt then s + (2 ^ bits - 1)
      else if a.cmp ⟨1, 1, low - 1⟩ == .lt then 0
      else if a.cmp ⟨1, 1, low⟩ != .gt then s + 1
      else
        let c := searchCode val a bits 0
        let below := a.add (val c).neg
        let above := (val (c + 1)).add a.neg
        match below.cmp above with
        | .gt => s + c + 1
        | .lt => s + c
        | .eq => s + c + c % 2

def t8CodeQ (m : Nat) : Q :=
  if m = 0 then .ofInt 0 else match t8Val m with
    | .fin _ q => q
    | _ => .ofInt 0
def encodeT8 (v : Val) : Nat := encodeT 7 12 (-12) t8CodeQ v
/-- The T6 code shifted into its slot. -/
def encodeT6 (v : Val) : Nat := encodeT 5 8 (-8) (fun m => t8CodeQ (m * 4)) v * 4

/-! ### Scales (09 R197) -/

/-- Value of a UE5M3 scale; 0xFF is reserved (NaN). -/
def scaleVal (s : Nat) : Val :=
  let s := s % 256
  let e := s / 8
  let m := s % 8
  if s = 0xFF then .nan
  else if e = 0 then .fin false ⟨m, 1, -17⟩
  else .fin false ⟨8 + m, 1, (e : Int) - 18⟩

/-! ### Integer square root -/

/-- ⌊√n⌋ for n below 4^k, bit by bit. -/
def isqrt (n : Nat) : Nat → Nat → Nat
  | 0, r => r
  | k + 1, r => let c := r + 2 ^ k
                if c * c ≤ n then isqrt n k c else isqrt n k r
def natSqrt (n : Nat) : Nat := isqrt n (bitLen n / 2 + 1) 0

/-- FSQRT of a positive value, correctly rounded (10 R225). -/
def Fmt.sqrt (f : Fmt) (mode : RMode) (q : Q) : Nat :=
  let a := q.n.natAbs
  let odd := q.e % 2
  let a1 := if odd = 0 then a else 2 * a
  let e1 := q.e - odd
  let k := f.fb + 4
  let x := a1 * 4 ^ k
  let r := natSqrt x
  let n := 2 * r + (if r * r = x then 0 else 1)
  f.roundMag mode false n 1 (e1 / 2 - (k : Int) - 1)

/-! ### Bounded functions (10 R225, Table 10-7): an enclosure of the exact value, then a free choice within the bound -/

/-- Finite patterns in numeric order. -/
def Fmt.ord (f : Fmt) (x : Nat) : Int :=
  if x.testBit (f.eb + f.fb) then -((x % 2 ^ (f.eb + f.fb) : Nat) : Int) else (x : Int)
def Fmt.unord (f : Fmt) (i : Int) : Nat := if i < 0 then f.signBit true + i.natAbs else i.toNat

/-- The last place of a value in the format. -/
def Fmt.ulp (f : Fmt) (q : Q) : Q :=
  let emin : Int := 1 - (f.bias : Int)
  let ex := if q.n = 0 then emin else log2Floor q.n.natAbs q.d q.e
  ⟨1, 1, (if ex < emin then emin else ex) - f.fb⟩

/-- The free choice among the patterns within `b` of a value that lies between lo and hi. `floor` bounds it below. -/
def Fmt.choose (f : Fmt) (fn : Nat) (x : Nat) (lo hi b : Q) (floor : Option Int) : Nat :=
  let l0 := f.ord (f.round .rup (.fin false (lo.add b.neg)))
  let l := match floor with
    | some z => if l0 < z then z else l0
    | none => l0
  let h := f.ord (f.round .rdn (.fin false (hi.add b)))
  f.unord (l + ((Config.funcChoice fn (BitVec.ofNat 64 x) % ((h - l).toNat + 1) : Nat) : Int))

/-- Fixed-point precision of the enclosures. -/
abbrev prec : Nat := 320
def one : Nat := 2 ^ prec

/-- Σ over i < k of the alternating arctangent series of 1/m, from the term `t` = ±2^prec / m^(2i+1). -/
def atanInv (m2 : Nat) : Nat → Nat → Nat → Bool → Int
  | 0, _, _, _ => 0
  | k + 1, t, i, neg => (if neg then -((t / (2 * i + 1) : Nat) : Int) else ((t / (2 * i + 1) : Nat) : Int)) +
      atanInv m2 k (t / m2) (i + 1) (!neg)
/-- π × 2^prec by Machin's formula, within 2^12 units. -/
def piFix : Nat := (16 * atanInv 25 150 (one / 5) 0 false - 4 * atanInv 57121 50 (one / 239) 0 false).toNat
/-- ln 2 × 2^prec = Σ 2^prec / (k 2^k), within 2^10 units. -/
def ln2From : Nat → Nat → Nat
  | 0, _ => 0
  | j + 1, k => one / (k * 2 ^ k) + ln2From j (k + 1)
def ln2Fix : Nat := ln2From 330 1

/-- Σ t^i / i! for a fixed-point t below 2, from the current term; alternating when `alt`. -/
def expSeries (t : Nat) (alt : Bool) : Nat → Nat → Nat → Bool → Int
  | 0, _, _, _ => 0
  | k + 1, term, i, neg =>
    (if neg then -(term : Int) else (term : Int)) +
      expSeries t alt k (term * t / one / (i + 1)) (i + 1) (if alt then !neg else false)
def expFix (t : Nat) : Nat := (expSeries t false 100 one 0 false).toNat
/-- e^(−t) for a fixed-point t below 2^8: the series at t / 256, squared eight times. -/
def squareFix : Nat → Nat → Nat
  | 0, x => x
  | k + 1, x => squareFix k (x * x / one)
def expNegFix (t : Nat) : Nat := squareFix 8 (expSeries (t / 256) true 100 one 0 false).toNat

/-- Sine and cosine series of a fixed-point angle below 2: terms t^i / i!, i of one parity, with alternating sign. -/
def trigSeries (t2 : Nat) : Nat → Nat → Nat → Bool → Int
  | 0, _, _, _ => 0
  | k + 1, term, i, neg =>
    (if neg then -(term : Int) else (term : Int)) +
      trigSeries t2 k (term * t2 / one / ((i + 1) * (i + 2))) (i + 2) (!neg)
def sinFix (t : Nat) : Int := trigSeries (t * t / one) 60 t 1 false
def cosFix (t : Nat) : Int := trigSeries (t * t / one) 60 one 0 false

/-- Error allowed for in every fixed-point enclosure, in units of 2^−prec. -/
def slack : Int := 2 ^ 150

/-- The enclosure of a fixed-point value. -/
def fixLo (x : Int) : Q := ⟨x - slack, 1, -(prec : Int)⟩
def fixHi (x : Int) : Q := ⟨x + slack, 1, -(prec : Int)⟩

/-- Magnitude of a dyadic value as fixed point. -/
def toFix (q : Q) : Nat :=
  scaleUp q.n.natAbs (q.e + prec) / scaleDown q.d (q.e + prec)

/-- sin (cos when `c`) of a finite value after exact reduction modulo 2π. -/
def trigFix (c : Bool) (q : Q) : Int :=
  let x := toFix q
  let half := piFix / 2
  let k := x / half
  let r := x % half
  let s := match (if c then (k + 1) % 4 else k % 4) with
    | 0 => sinFix r
    | 1 => cosFix r
    | 2 => -(sinFix r)
    | _ => -(cosFix r)
  if !c && decide (q.n < 0) then -s else s

/-- Bits of log2 of a fixed-point y in [1, 2), by repeated squaring. -/
def log2Bits : Nat → Nat → Nat → Nat
  | 0, _, acc => acc
  | k + 1, y, acc =>
    let y2 := y * y / one
    if 2 * one ≤ y2 then log2Bits k (y2 / 2) (2 * acc + 1) else log2Bits k y2 (2 * acc)
/-- log2 of a positive value, fixed point, within the slack: 150 bits below the point. -/
def log2Fix (q : Q) : Int :=
  let ex := log2Floor q.n.natAbs q.d q.e
  let m := toFix ⟨q.n, q.d, q.e - ex⟩
  ex * (one : Int) + ((log2Bits 150 m 0 * 2 ^ (prec - 150) : Nat) : Int)

def isPow2 (n : Nat) : Bool := n != 0 && n == 2 ^ Nat.log2 n

/-- Function numbers of 10 Table 10-7. -/
inductive MFun where
  | rcp | rsq | sqrt | exp2 | log2 | sin | cos | tanh
deriving DecidableEq, Repr

def MFun.num : MFun → Nat
  | .rcp => 0 | .rsq => 1 | .sqrt => 2 | .exp2 => 3 | .log2 => 4 | .sin => 5 | .cos => 6 | .tanh => 7

/-- Free values of F64 forms are numbered apart from those of F32. -/
def MFun.id (m : MFun) (f : Fmt) : Nat := m.num + (if f.fb = 52 then 8 else 0)

/-- The result of a function of 10 Table 10-7 on a pattern (R225): the special values and exact cases as the table gives them,
any other result a free choice within the bound. -/
def Fmt.func (f : Fmt) (m : MFun) (mode : RMode) (x : Nat) : Nat :=
  match m, f.val x with
  | _, .nan => f.nan
  | .rcp, .inf n => f.signBit n
  | .rcp, .fin n q =>
    if q.n = 0 then f.inf n
    else
      let a := q.n.natAbs
      let v : Q := ⟨if n then -1 else 1, a, -q.e⟩
      if (log2Floor 1 a (-q.e)) > (f.bias : Int) then f.inf n
      else if isPow2 a then f.round .rne (.fin n v)
      else f.choose (m.id f) x v v (f.ulp v) none
  | .rsq, .inf n => if n then f.nan else 0
  | .rsq, .fin n q =>
    if q.n = 0 then f.inf n
    else if n then f.nan
    else
      let odd := q.e % 2
      let a := if odd = 0 then q.n.natAbs else 2 * q.n.natAbs
      let e1 := q.e - odd
      let k : Nat := 160
      let r := natSqrt (4 ^ k / a)
      let lo : Q := ⟨r, 1, -(k : Int) - e1 / 2⟩
      let hi : Q := ⟨r + 1, 1, -(k : Int) - e1 / 2⟩
      f.choose (m.id f) x lo hi (f.ulp lo) none
  | .sqrt, .inf n => if n then f.nan else f.inf false
  | .sqrt, .fin n q => if q.n = 0 then f.signBit n else if n then f.nan else f.sqrt mode q
  | .exp2, .inf n => if n then 0 else f.inf false
  | .exp2, .fin n q =>
    let i := q.toInt .rdn
    if i ≥ (f.bias : Int) + 1 then f.inf false
    else
      let fr := q.add (Q.ofInt (-i))
      if fr.n = 0 && decide (i ≥ 1 - (f.bias : Int) - f.fb) then f.round .rne (.fin n ⟨1, 1, i⟩)
      else if i < -200 then f.choose (m.id f) x ⟨0, 1, 0⟩ ⟨1, 1, -200⟩ ⟨2, 1, 1 - (f.bias : Int) - f.fb⟩ (some 0)
      else
        let y := expFix (toFix fr * ln2Fix / one)
        let lo : Q := ⟨(y : Int) - slack, 1, i - (prec : Int)⟩
        let hi : Q := ⟨(y : Int) + slack, 1, i - (prec : Int)⟩
        f.choose (m.id f) x lo hi ((f.ulp hi).mul (Q.ofInt 2)) (some 0)
  | .log2, .inf n => if n then f.nan else f.inf false
  | .log2, .fin n q =>
    if q.n = 0 then f.inf true
    else if n then f.nan
    else if isPow2 q.n.natAbs then f.round .rne (Val.ofInt (log2Floor q.n.natAbs 1 q.e))
    else
      let y := log2Fix q
      let inside := q.cmp ⟨1, 1, -1⟩ != .lt && q.cmp ⟨1, 1, 1⟩ != .gt
      let b := if inside then (⟨1, 1, -22⟩ : Q) else (f.ulp (fixLo y)).mul (Q.ofInt 2)
      f.choose (m.id f) x (fixLo y) (fixHi y) b none
  | .sin, .inf _ => f.nan
  | .sin, .fin n q =>
    if q.n = 0 then f.signBit n
    else let y := trigFix false q
         f.choose (m.id f) x (fixLo y) (fixHi y) ⟨1, 1, -22⟩ none
  | .cos, .inf _ => f.nan
  | .cos, .fin _ q =>
    if q.n = 0 then f.round .rne (Val.ofInt 1)
    else let y := trigFix true q
         f.choose (m.id f) x (fixLo y) (fixHi y) ⟨1, 1, -22⟩ none
  | .tanh, .inf n => f.round .rne (Val.ofInt (if n then -1 else 1))
  | .tanh, .fin n q =>
    if q.n = 0 then f.signBit n
    else
      let a : Q := ⟨q.n.natAbs, q.d, q.e⟩
      let y : Nat := if a.cmp ⟨100, 1, 0⟩ == .gt then one
        else let t := expNegFix (2 * toFix a)
             (one - t) * one / (one + t)
      let v : Int := if n then -(y : Int) else (y : Int)
      let u := (f.ulp (fixHi y)).mul (Q.ofInt 2)
      let b := if u.cmp ⟨1, 1, -24⟩ == .gt then u else (⟨1, 1, -24⟩ : Q)
      f.choose (m.id f) x (fixLo v) (fixHi v) b none

/-! ### FRND and FCLASS (10 R226) -/

def Fmt.rnd (f : Fmt) (mode : RMode) (x : Nat) : Nat :=
  match f.val x with
  | .nan => f.nan
  | .inf _ => x
  | .fin n q => if q.n = 0 then x else f.round .rne (.fin n (.ofInt (q.toInt mode)))

def Fmt.class (f : Fmt) (x : Nat) : Nat :=
  let neg := x.testBit (f.eb + f.fb)
  let ex := fld x f.fb f.eb
  let fr := fld x 0 f.fb
  let k : Nat :=
    if ex = 2 ^ f.eb - 1 then (if fr = 0 then (if neg then 0 else 7) else if fr.testBit (f.fb - 1) then 9 else 8)
    else if ex = 0 then (if fr = 0 then (if neg then 3 else 4) else if neg then 2 else 5)
    else if neg then 1 else 6
  2 ^ k

end Sys2Proof.Machine
end

