-- ==== Sys2Proof/Machine/Flags.lean ====
section
/-! DEFINITION. Every condition that a compare or a vote writes into a predicate or a mask (10 R222, R230), and the completion
flags' tests (02 R19, R20). -/

namespace Sys2Proof.Machine

/-- PSET conditions on two elements of width w (10 Table 10-5). -/
def psetCond (c : Nat) (signed : Bool) (w x y : Nat) : Bool :=
  let a : Int := if signed then sext x w else (x : Int)
  let b : Int := if signed then sext y w else (y : Int)
  match c with
  | 0 => decide (a = b)
  | 1 => decide (a ≠ b)
  | 2 => decide (a < b)
  | 3 => decide (a ≤ b)
  | 4 => decide (b < a)
  | 5 => decide (b ≤ a)
  | 6 => x &&& y != 0
  | _ => x &&& y == 0

/-- FSET conditions on two values (10 Table 10-5). -/
def fsetCond (c : Nat) (x y : Val) : Bool :=
  let uno := x == .nan || y == .nan
  let o := x.cmp y
  match c with
  | 0 => !uno && o == .eq
  | 1 => uno || o != .eq
  | 2 => !uno && o == .lt
  | 3 => !uno && o != .gt
  | 4 => !uno && o == .gt
  | 5 => !uno && o != .lt
  | 6 => !uno
  | _ => uno

/-- The mask of lanes where a test holds. -/
def laneMask (p : Nat → Bool) : Mask := maskOf (lanes32.filter p)

/-- The value VOTE writes (10 R230): `m` the active lanes, `v` the votes. -/
def voteVal (mode : Nat) (m v : Mask) : Nat :=
  let y := v &&& m
  match mode with
  | 0 => if y = m then 1 else 0
  | 1 => if y ≠ 0 then 1 else 0
  | 2 => y.toNat
  | _ => if y = m || y = 0 then 1 else 0

/-- Do all flags named by a mask read zero (02 R19, 13 R296)? -/
def Gang.flagsZero (g : Gang) (m : BitVec 12) : Bool := (rangeFrom 0 12).all fun k => !m.getLsbD k || g.flag k == 0

end Sys2Proof.Machine
end

