-- ==== Sys2Proof/Machine/Integer.lean ====
section
/-! DEFINITION. Integer, logic, shift, bit-field and compare instructions (10 R220 to R222), in 32-bit and compact form (02 R31). -/

namespace Sys2Proof.Machine

/-! ### Groups (10 Table 10-2) -/

def INT : List Tag := [.i32, .u32, .none, .i16x2, .i8x4, .u8x4, .i64]
def INT1 : List Tag := [.i32, .u32, .none, .i64]
def W32T : List Tag := [.i32, .u32, .none]

/-- Tags whose elements are signed. -/
def isSigned (t : Tag) : Bool := t == .i32 || t == .i16x2 || t == .i8x4 || t == .i64

/-- An operand byte of the compact form: no P, no L. -/
def plain (r : BitVec 5) : Opnd := ⟨false, false, r.setWidth 6⟩
def wide (r : BitVec 5) : BitVec 6 := r.setWidth 6

/-! ### Typed element-wise operations -/

/-- Typed sources (10 R217, R218): the operation tag and, for each lane, the operands at the tag's width. `d` is the register
written at the pair width. -/
def typed (float : Bool) (group : List Tag) (ss : List (Src × Src)) (d : Option Nat) : Except Stop (Tag × (Nat → List Nat)) :=
  let p := ss.any fun x => isPairTag x.1.tag
  match poisonCheck (ss.flatMap fun x => halves (p && (isPairTag x.1.tag || x.1.tag == .none)) x) with
  | some e => .error e
  | none =>
    match opTag float group ss with
    | .error e => .error e
    | .ok t =>
      if isPairTag t then
        match pairsCheck ss d with
        | some e => .error e
        | none => .ok (t, fun i => ss.map fun x => pairVal x.1 x.2 i)
      else .ok (t, fun i => ss.map fun x => x.1.val i)

/-- An element-wise integer result: `f` takes the element width, the signedness and the elements. -/
def intRes (t : Tag) (rt : Tag) (vals : Nat → List Nat) (f : Nat → Bool → List Nat → Int) : VRes :=
  let (w, n) := slotsOf t
  ⟨rt, isPairTag t, isPairTag t, lanes32.map fun i => mapSlots w (fun xs => (f w (isSigned t) xs % (2 ^ w : Nat)).toNat) (vals i) n⟩

def arg (xs : List Nat) (k : Nat) : Nat := xs.getD k 0
/-- An element as a signed or unsigned integer. -/
def elemInt (signed : Bool) (w x : Nat) : Int := if signed then sext x w else (x : Int)

/-- Two typed sources a and b of group `grp`. -/
def State.int2 (s : State) (grp : List Tag) (d : BitVec 6) (a b : Opnd) (rt : Tag → Tag)
    (f : Nat → Bool → List Nat → Int) : Out :=
  s.vecOpP [a, b] [] d.toNat fun _ g _ =>
    match typed false grp [(g.srcA a, g.srcA1 a), (g.srcB b, g.srcB1 b)] (some d.toNat) with
    | .error e => .error e
    | .ok (t, vals) => .ok (intRes t (rt t) vals f)

/-- One typed source. -/
def State.int1 (s : State) (grp : List Tag) (d : BitVec 6) (a : Opnd) (rt : Tag → Tag)
    (f : Nat → Bool → List Nat → Int) : Out :=
  s.vecOpP [a] [] d.toNat fun _ g _ =>
    match typed false grp [(g.srcA a, g.srcA1 a)] (some d.toNat) with
    | .error e => .error e
    | .ok (t, vals) => .ok (intRes t (rt t) vals f)

def sameTag (t : Tag) : Tag := t
/-- Result tag of ISET and ISETI (10 R221). -/
def isetTag : Tag → Tag
  | .u32 => .i32
  | .none => .i32
  | .u8x4 => .i8x4
  | t => t

/-! Element results of 10 Table 10-3. -/

def opAdd (_ : Nat) (_ : Bool) (xs : List Nat) : Int := arg xs 0 + arg xs 1
def opSub (_ : Nat) (_ : Bool) (xs : List Nat) : Int := (arg xs 0 : Int) - arg xs 1
def opMul (_ : Nat) (_ : Bool) (xs : List Nat) : Int := (arg xs 0 : Int) * arg xs 1
def opMulHi (w : Nat) (sg : Bool) (xs : List Nat) : Int := elemInt sg w (arg xs 0) * elemInt sg w (arg xs 1) / (2 ^ w : Nat)
def opMad (_ : Nat) (_ : Bool) (xs : List Nat) : Int := (arg xs 0 : Int) * arg xs 1 + arg xs 2
def opMin (w : Nat) (_ : Bool) (xs : List Nat) : Int := min (sext (arg xs 0) w) (sext (arg xs 1) w)
def opMax (w : Nat) (_ : Bool) (xs : List Nat) : Int := max (sext (arg xs 0) w) (sext (arg xs 1) w)
def opUMin (_ : Nat) (_ : Bool) (xs : List Nat) : Int := (min (arg xs 0) (arg xs 1) : Nat)
def opUMax (_ : Nat) (_ : Bool) (xs : List Nat) : Int := (max (arg xs 0) (arg xs 1) : Nat)
/-- −1, 0 or +1. -/
def opSet (w : Nat) (sg : Bool) (x y : Nat) : Int :=
  let a := elemInt sg w x
  let b := elemInt sg w y
  if a < b then -1 else if b < a then 1 else 0

def execIadd (d : BitVec 6) (a b : Opnd) (s : State) : Out := s.int2 INT d a b sameTag opAdd
def execIsub (d : BitVec 6) (a b : Opnd) (s : State) : Out := s.int2 INT d a b sameTag opSub
def execImul (d : BitVec 6) (a b : Opnd) (s : State) : Out := s.int2 INT d a b sameTag opMul
def execImulhi (d : BitVec 6) (a b : Opnd) (s : State) : Out := s.int2 INT1 d a b sameTag opMulHi
def execImin (d : BitVec 6) (a b : Opnd) (s : State) : Out := s.int2 INT d a b sameTag opMin
def execImax (d : BitVec 6) (a b : Opnd) (s : State) : Out := s.int2 INT d a b sameTag opMax
def execUmin (d : BitVec 6) (a b : Opnd) (s : State) : Out := s.int2 INT d a b sameTag opUMin
def execUmax (d : BitVec 6) (a b : Opnd) (s : State) : Out := s.int2 INT d a b sameTag opUMax
def execIset (d : BitVec 6) (a b : Opnd) (s : State) : Out :=
  s.int2 INT d a b isetTag fun w sg xs => opSet w sg (arg xs 0) (arg xs 1)

def execImad (d : BitVec 6) (a b : Opnd) (s : State) : Out :=
  s.vecOpP [a, b] [] d.toNat fun _ g _ =>
    match typed false INT [(g.srcA a, g.srcA1 a), (g.srcB b, g.srcB1 b), (g.srcD d.toNat, g.srcD (d.toNat + 1))]
        (some d.toNat) with
    | .error e => .error e
    | .ok (t, vals) => .ok (intRes t t vals opMad)

def execIaddi (d : BitVec 6) (a : Opnd) (i : BitVec 8) (s : State) : Out :=
  s.int1 INT d a sameTag fun _ _ xs => arg xs 0 + sext i.toNat 8
def execIseti (d : BitVec 6) (a : Opnd) (i : BitVec 8) (s : State) : Out :=
  s.int1 INT d a isetTag fun w sg xs => opSet w sg (arg xs 0) (sext i.toNat 8 % (2 ^ w : Nat)).toNat
def execIneg (d : BitVec 6) (a : Opnd) (s : State) : Out := s.int1 INT d a sameTag fun _ _ xs => -(arg xs 0 : Int)
def execIabs (d : BitVec 6) (a : Opnd) (s : State) : Out :=
  s.int1 [.i32, .i16x2, .i8x4, .i64] d a sameTag fun w _ xs => (sext (arg xs 0) w).natAbs

/-- A 32-bit result from single registers. -/
def single (t : Tag) (f : Nat → Nat) : VRes := ⟨t, false, false, lanes32.map f⟩

/-- IADDC and ISUBB (10 R220): the carry or borrow of a limb; d single, only bit 0 read. -/
def State.carryOp (s : State) (d : BitVec 6) (a b : Opnd) (f : Nat → Nat → Nat → Nat) : Out :=
  s.vecOp [a, b] d.toNat fun _ g _ =>
    let z := g.srcD d.toNat
    match poisonCheck [g.srcA a, g.srcB b, z] with
    | some e => .error e
    | none =>
      match opTag false W32T [(g.srcA a, g.srcA a), (g.srcB b, g.srcB b)] with
      | .error e => .error e
      | .ok _ => .ok (single .u32 fun i => f ((g.srcA a).val i) ((g.srcB b).val i) (z.val i % 2))
def execIaddc (d : BitVec 6) (a b : Opnd) (s : State) : Out := s.carryOp d a b fun x y z => (x + y + z) / 2 ^ 32
def execIsubb (d : BitVec 6) (a b : Opnd) (s : State) : Out := s.carryOp d a b fun x y z => if x < y + z then 1 else 0

/-! ### Untyped logic and shifts (08 R172, 10 R221) -/

/-- Logic of two sources, read as pairs when a carries I64 or F64. -/
def State.logic2 (s : State) (d : BitVec 6) (a b : Opnd) (f : Nat → Nat → Nat) : Out :=
  s.vecOpP [a, b] [] d.toNat fun _ g _ =>
    let x := g.srcA a
    let y := g.srcB b
    let p := isPairTag x.tag
    match poisonCheck (halves p (x, g.srcA1 a) ++ halves p (y, g.srcB1 b)) with
    | some e => .error e
    | none =>
      let rt := if x.tag = y.tag then x.tag else .none
      if p then
        match pairsCheck [(x, g.srcA1 a), (y, g.srcB1 b)] (some d.toNat) with
        | some e => .error e
        | none => .ok ⟨rt, true, true, lanes32.map fun i => f (pairVal x (g.srcA1 a) i) (pairVal y (g.srcB1 b) i)⟩
      else .ok (single rt fun i => f (x.val i) (y.val i))

/-- An untyped source a, a pair when it carries I64 or F64, with a count or second word from `cnt`. The result keeps a's tag
unless `rt` gives one; `dPair` says whether d is a pair with a. -/
def State.unary1 (s : State) (d : BitVec 6) (a : Opnd) (singles : List Opnd) (rt : Option Tag)
    (cnt : Gang → Except Stop (Nat → Nat)) (f : Nat → Nat → Nat → Nat) : Out :=
  s.vecOpP [a] singles d.toNat fun _ g _ =>
    let x := g.srcA a
    match poisonCheck (halves (isPairTag x.tag) (x, g.srcA1 a) ++ singles.map g.srcB) with
    | some e => .error e
    | none =>
      match cnt g with
      | .error e => .error e
      | .ok c =>
        if isPairTag x.tag then
          match pairsCheck [(x, g.srcA1 a)] (if rt.isNone then some d.toNat else none) with
          | some e => .error e
          | none => .ok ⟨rt.getD x.tag, rt.isNone, true, lanes32.map fun i => f 64 (pairVal x (g.srcA1 a) i) (c i)⟩
        else .ok (single (rt.getD x.tag) fun i => f 32 (x.val i) (c i))

def notBits (w x : Nat) : Nat := 2 ^ w - 1 - x % 2 ^ w

def execAnd (d : BitVec 6) (a b : Opnd) (s : State) : Out := s.logic2 d a b fun x y => x &&& y
def execOr (d : BitVec 6) (a b : Opnd) (s : State) : Out := s.logic2 d a b fun x y => x ||| y
def execXor (d : BitVec 6) (a b : Opnd) (s : State) : Out := s.logic2 d a b fun x y => x ^^^ y
def execAndn (d : BitVec 6) (a b : Opnd) (s : State) : Out := s.logic2 d a b fun x y => x &&& notBits 64 y

/-- Shifts of a w-bit value by c (10 R221). -/
def shlW (w x c : Nat) : Nat := if c < w then x * 2 ^ c % 2 ^ w else 0
def shrW (w x c : Nat) : Nat := if c < w then x / 2 ^ c else 0
def sarW (w x c : Nat) : Nat := (sext x w / (2 ^ (if c < w then c else w - 1) : Nat) % (2 ^ w : Nat)).toNat
def rotlW (w x c : Nat) : Nat := (x * 2 ^ (c % w) % 2 ^ w) ||| (x / 2 ^ (w - c % w))

/-- The count of a shift: the low 32 bits of b, unsigned. -/
def shiftCount (b : Opnd) (g : Gang) : Except Stop (Nat → Nat) := .ok (g.srcB b).val
/-- An immediate count. -/
def immCount (i : BitVec 8) (_ : Gang) : Except Stop (Nat → Nat) := .ok fun _ => i.toNat

def execShl (d : BitVec 6) (a b : Opnd) (s : State) : Out := s.unary1 d a [b] none (shiftCount b) shlW
def execShr (d : BitVec 6) (a b : Opnd) (s : State) : Out := s.unary1 d a [b] none (shiftCount b) shrW
def execSar (d : BitVec 6) (a b : Opnd) (s : State) : Out := s.unary1 d a [b] none (shiftCount b) sarW
def execRotl (d : BitVec 6) (a b : Opnd) (s : State) : Out := s.unary1 d a [b] none (shiftCount b) rotlW
def execShli (d : BitVec 6) (a : Opnd) (i : BitVec 8) (s : State) : Out := s.unary1 d a [] none (immCount i) shlW
def execShri (d : BitVec 6) (a : Opnd) (i : BitVec 8) (s : State) : Out := s.unary1 d a [] none (immCount i) shrW
def execNot (d : BitVec 6) (a : Opnd) (s : State) : Out := s.unary1 d a [] none (immCount 0) fun w x _ => notBits w x
def execPopc (d : BitVec 6) (a : Opnd) (s : State) : Out := s.unary1 d a [] (some .u32) (immCount 0) fun w x _ => popcount x w
def execClz (d : BitVec 6) (a : Opnd) (s : State) : Out := s.unary1 d a [] (some .u32) (immCount 0) fun w x _ => leadingZeros x w
def execBrev (d : BitVec 6) (a : Opnd) (s : State) : Out := s.unary1 d a [] none (immCount 0) fun w x _ => reverseBits x w

/-! ### Bit fields, address, select, dot product -/

/-- Position and length of a bit field (10 R221). -/
def fieldOf (y : Nat) : Nat × Nat :=
  let pos := fld y 0 5
  (pos, min (fld y 8 6) (32 - pos))

def execBfe (d : BitVec 6) (a b : Opnd) (s : State) : Out :=
  s.vecOp [a, b] d.toNat fun _ g _ =>
    let x := g.srcA a
    let y := g.srcB b
    match (poisonCheck [x, y]).orElse fun _ => accept W32T [x, y] with
    | some e => .error e
    | none => .ok (single x.tag fun i =>
        let (pos, len) := fieldOf (y.val i)
        let v := fld (x.val i) pos len
        if x.tag == .i32 && len != 0 then (sext v len % (2 ^ 32 : Nat)).toNat else v)

def execBfi (d : BitVec 6) (a b : Opnd) (s : State) : Out :=
  s.vecOp [a, b] d.toNat fun _ g _ =>
    let x := g.srcA a
    let y := g.srcB b
    let z := g.srcD d.toNat
    match (poisonCheck [x, y, z]).orElse fun _ => accept W32T [x, y] with
    | some e => .error e
    | none =>
      match opTag false W32T [(x, x), (z, z)] with
      | .error e => .error e
      | .ok _ => .ok (single z.tag fun i =>
          let (pos, len) := fieldOf (y.val i)
          z.val i - fld (z.val i) pos len * 2 ^ pos + fld (x.val i) 0 len * 2 ^ pos)

def execLea (d : BitVec 6) (a b : Opnd) (s : State) : Out :=
  s.vecOpP [a] [b] d.toNat fun _ g _ =>
    let x := g.srcA a
    let x1 := g.srcA1 a
    let y := g.srcB b
    match (((poisonCheck [x, x1, y]).orElse fun _ => accept [.i64, .none] [x]).orElse fun _ => pairCheck x x1).orElse
        fun _ => accept W32T [y] with
    | some e => .error e
    | none => .ok ⟨.i64, true, true, lanes32.map fun i =>
        ((pairVal x x1 i + elemInt (y.tag == .i32) 32 (y.val i)) % (2 ^ 64 : Nat)).toNat⟩

def execSel (d : BitVec 6) (a b : Opnd) (s : State) : Out :=
  s.vecOp [a, b] d.toNat fun _ g _ =>
    let x := g.srcA a
    let y := g.srcB b
    let z := g.srcD d.toNat
    match poisonCheck [x, y, z] with
    | some e => .error e
    | none => .ok (single (if x.tag = y.tag then x.tag else .none) fun i => if z.val i ≠ 0 then x.val i else y.val i)

def execPset (p c : BitVec 3) (a b : Opnd) (s : State) : Out :=
  s.predOp [a, b] p.toNat fun g =>
    match typed false INT1 [(g.srcA a, g.srcA1 a), (g.srcB b, g.srcB1 b)] none with
    | .error e => .error e
    | .ok (t, vals) =>
      .ok (isPairTag t, laneMask fun i =>
        psetCond c.toNat (isSigned t) (slotsOf t).1 (arg (vals i) 0) (arg (vals i) 1))

/-- Σ of the products of four 8-bit slots. -/
def dot4 (sa sb : Bool) (x y : Nat) : Int :=
  (rangeFrom 0 4).foldl (fun acc k => acc + elemInt sa 8 (fld x (8 * k) 8) * elemInt sb 8 (fld y (8 * k) 8)) 0

def execIdot4 (d : BitVec 6) (a b : Opnd) (s : State) : Out :=
  s.vecOp [a, b] d.toNat fun _ g _ =>
    let x := g.srcA a
    let y := g.srcB b
    let z := g.srcD d.toNat
    match ((poisonCheck [x, y, z]).orElse fun _ => accept [.i8x4, .u8x4] [x, y]).orElse fun _ => accept W32T [z] with
    | some e => .error e
    | none => .ok (single z.tag fun i =>
        ((z.val i + dot4 (x.tag == .i8x4) (y.tag == .i8x4) (x.val i) (y.val i)) % (2 ^ 32 : Nat)).toNat)

/-! ### Compact forms (02 R31): `op d, b` is `op d, d, b` -/

def execIaddC (d b : BitVec 5) (s : State) : Out := s.int2 INT (wide d) (plain d) (plain b) sameTag opAdd
def execIsubC (d b : BitVec 5) (s : State) : Out := s.int2 INT (wide d) (plain d) (plain b) sameTag opSub
def execImulC (d b : BitVec 5) (s : State) : Out := s.int2 INT (wide d) (plain d) (plain b) sameTag opMul
def execAndC (d b : BitVec 5) (s : State) : Out := s.logic2 (wide d) (plain d) (plain b) fun x y => x &&& y
def execOrC (d b : BitVec 5) (s : State) : Out := s.logic2 (wide d) (plain d) (plain b) fun x y => x ||| y
def execXorC (d b : BitVec 5) (s : State) : Out := s.logic2 (wide d) (plain d) (plain b) fun x y => x ^^^ y
def execShlC (d b : BitVec 5) (s : State) : Out := s.unary1 (wide d) (plain d) [plain b] none (shiftCount (plain b)) shlW
def execShrC (d b : BitVec 5) (s : State) : Out := s.unary1 (wide d) (plain d) [plain b] none (shiftCount (plain b)) shrW
def execIminC (d b : BitVec 5) (s : State) : Out := s.int2 INT (wide d) (plain d) (plain b) sameTag opMin
def execImaxC (d b : BitVec 5) (s : State) : Out := s.int2 INT (wide d) (plain d) (plain b) sameTag opMax

end Sys2Proof.Machine
end

