-- ==== Sys2Proof/Machine/Moves.lean ====
section
/-! DEFINITION. Register, tag, special-register and pool instructions (08 R185 to R190) and lane exchanges (10 R227 to R231). -/

namespace Sys2Proof.Machine

/-! ### Moves (08 R187) -/

/-- Is every lane of the gang active (08 R177)? -/
def allActive (t : Team) (m : Mask) : Bool := m == lowMask t.lanes

/-- A write that may take uniform form: `gu` with it, `gf` in full form when no uniform-pool entry is free (08 R177). It makes no
claim, so none that waits for the pool comes before it. -/
def State.commitUniform (s : State) (c : Cur) (g gu gf : Gang) : State :=
  let k := s.core (s.coreOf c.launch c.team)
  let g1 := g.spend gu c.eid
  if k.poolS < g1.takenS - g.takenS then s.commitGang c g gf
  else
    match { k with claims := k.claims.filter (!·.uni) }.room g g1 with
    | .ok => s.putGang c.launch c.team c.gang (g1.advance c)
    | .wait uni n => s.waitRegs c uni n

/-- Write lanes of d, with the values of the check of the passes where it gave some. Uniform form is taken where it may be (`uni`), every
lane is active and all are equal. -/
def State.putLanes (s : State) (c : Cur) (t : Team) (g g1 : Gang) (d : Nat) (uni : Bool) (ws : List W32) (tag : Tag) : State :=
  s.reflected c t (·.bits.toNat) (ws.map (·.toNat)) fun s vals =>
    let l := (vals.map lowWords).getD ws
    let gf := g1.putV d c.mask l tag
    if uni && allActive t c.mask && (l.take t.lanes).all (· == l.getD 0 0) then
      s.commitUniform c g (g1.putUniform d t.lanes (l.getD 0 0) tag .uni) gf
    else s.commitGang c g gf

def State.movOp (s : State) (d : Nat) (a : Opnd) : Out :=
  s.withActive fun c t g =>
    let x := g.srcA a
    match poisonCheck [x] with
    | some (.flt f) => s.raiseAll c f
    | some (.ill n) => s.illValue c n
    | none =>
      s.putLanes c t g (g.freeLast [a] [d]) d (((g.vreg x.reg).map fun v => v.form != .full).getD false) x.lanes x.tag

def execMov (d : BitVec 6) (a : Opnd) (s : State) : Out := s.movOp d.toNat a
def execMovC (d b : BitVec 5) (s : State) : Out := s.movOp d.toNat (plain b)

def execMovi (d : BitVec 6) (i : BitVec 16) (s : State) : Out :=
  s.withActive fun c t g =>
    s.putLanes c t g g d.toNat true (List.replicate 32 (i.signExtend 32)) .i32

def execMovhi (d : BitVec 6) (i : BitVec 16) (s : State) : Out :=
  s.vecOp [] d.toNat fun _ g _ =>
    let x := g.srcD d.toNat
    match poisonCheck [x] with
    | some e => .error e
    | none => .ok (single x.tag fun k => i.toNat * 2 ^ 16 + x.val k % 2 ^ 16)

def execSmov (d : BitVec 6) (a : Opnd) (s : State) : Out :=
  s.gangOp fun _ g => .ok ((g.freeLastS a [d.toNat]).putS d.toNat (g.uniOp a))

/-- SMOV.lpa and SMOV.lpb: an invalid pattern faults ILL_ENC with the value (08 R183, R187). -/
def State.setPattern (s : State) (a : Opnd) (put : Gang → BitVec 16 → Gang) : Out :=
  s.gangOp fun _ g =>
    let v := g.uniOp a
    if patternOk (v.setWidth 16) then .ok (put (g.freeLastS a []) (v.setWidth 16))
    else .error (.flt ⟨.illEnc, v.toNat⟩)
def execSmovLpa (a : Opnd) (s : State) : Out := s.setPattern a fun g p => { g with lpa := p }
def execSmovLpb (a : Opnd) (s : State) : Out := s.setPattern a fun g p => { g with lpb := p }
def execSmovRdlpa (d : BitVec 6) (s : State) : Out := s.gangOp fun _ g => .ok (g.putS d.toNat (g.lpa.setWidth 64))
def execSmovRdlpb (d : BitVec 6) (s : State) : Out := s.gangOp fun _ g => .ok (g.putS d.toNat (g.lpb.setWidth 64))
def execSmovi (d : BitVec 6) (i : BitVec 16) (s : State) : Out :=
  s.gangOp fun _ g => .ok (g.putS d.toNat (i.signExtend 64))

/-- Write a pair with one 64-bit value in every active lane, in uniform form as `putLanes` does. -/
def State.putPairs (s : State) (c : Cur) (t : Team) (g g1 : Gang) (d : Nat) (v : W64) (tag : Tag) : State :=
  s.reflected c t (·.bits.toNat) (List.replicate 32 v.toNat) fun s vals =>
    let l := vals.getD (List.replicate 32 v.toNat)
    let x := l.getD 0 0
    let gf := (g1.putV d c.mask (lowWords l) tag).putV (d + 1) c.mask (highWords l) tag
    if allActive t c.mask && (l.take t.lanes).all (· == x) then
      s.commitUniform c g ((g1.putUniform d t.lanes (BitVec.ofNat 32 x) tag .uni).putUniform (d + 1) t.lanes
        (BitVec.ofNat 32 (x / 2 ^ 32)) tag .shared) gf
    else s.commitGang c g gf

def execS2v (d : BitVec 6) (a : Opnd) (g4 : BitVec 4) (s : State) : Out :=
  s.withActive fun c t g =>
    let v := g.uniOp a
    let tag := tagOf g4.toNat
    let g1 := g.freeLastS a []
    if isPairTag tag then s.putPairs c t g g1 d.toNat v tag
    else s.putLanes c t g g1 d.toNat true (List.replicate 32 (v.setWidth 32)) tag

def execV2s (d : BitVec 6) (a : Opnd) (l : BitVec 5) (p : Bool) (s : State) : Out :=
  s.gangOp fun _ g =>
    let x := g.srcA a
    let x1 := g.srcA1 a
    match (poisonCheck (if p then [x, x1] else [x])).orElse fun _ => if p then pairCheck x x1 else none with
    | some e => .error e
    | none =>
      let v := if p then pairVal x x1 l.toNat else x.val l.toNat
      .ok ((if p then g.freePair a [] else g.freeLast [a] []).putS d.toNat (BitVec.ofNat 64 v))

/-- DESIGN CHOICE (log 91): a lane that the gang has not is not written, but the register is mapped or takes full form. -/
def execSetlane (d : BitVec 6) (a : Opnd) (l : BitVec 5) (p : Bool) (s : State) : Out :=
  s.gangOp fun t g =>
    let r := d.toNat
    let x := g.srcD r
    let x1 := g.srcD (r + 1)
    match (poisonCheck (if p then [x, x1] else [x])).orElse fun _ => if p then pairCheck x x1 else none with
    | some e => .error e
    | none =>
      let v := g.uniOp a
      let m : Mask := if l.toNat < t.lanes then 1#32 <<< l.toNat else 0
      let g1 := (g.freeLastS a []).putV r m (List.replicate 32 (v.setWidth 32)) x.tag
      .ok (if p then g1.putV (r + 1) m (List.replicate 32 ((v >>> 32).setWidth 32)) x.tag else g1)

def execTagset (d : BitVec 6) (a : Opnd) (g4 : BitVec 4) (s : State) : Out :=
  s.vecOpP [a] [] d.toNat fun _ g _ =>
    let x := g.srcA a
    let x1 := g.srcA1 a
    let tag := tagOf g4.toNat
    if isPairTag tag then
      match (poisonCheck [x, x1]).orElse fun _ => pairCheck x x1 with
      | some e => .error e
      | none => .ok ⟨tag, true, true, lanes32.map (pairVal x x1)⟩
    else
      match poisonCheck [x] with
      | some e => .error e
      | none => .ok (single tag x.val)

def execTagrd (d : BitVec 6) (a : Opnd) (s : State) : Out :=
  s.vecOp [a] d.toNat fun _ g _ => .ok (single .u32 fun _ => (g.tag a.reg.toNat).code)

/-! ### Special registers (08 R190) -/

def word32 (x : Nat) (k : Nat) : Nat := x / 2 ^ (32 * k) % 2 ^ 32

/-- Virtual core number within the partition (16 R372): the bay's place in the partition, then the core's number in the bay. -/
def State.virtualCore (s : State) (func core : Nat) : Nat :=
  (((s.func func).bayList).findIdx (· == bayOf core)) * 8 + core % 8

/-- Word k of special register n for a lane (08 Table 8-6). -/
def State.special (s : State) (t : Team) (g : Gang) (n k lane : Nat) : Nat :=
  match n with
  | 0x00 => lane
  | 0x01 => lane / 4
  | 0x02 => g.idx
  | 0x03 => match k with
            | 0 => t.coords.1
            | 1 => t.coords.2.1
            | _ => t.coords.2.2
  | 0x04 => if k = 0 then t.cluster else t.tic
  | 0x05 => word32 t.launch k
  | 0x06 => s.virtualCore t.func t.core % 1024
  | 0x07 => word32 (s.now - (s.core t.core).start) k
  | 0x08 => word32 g.step.toNat k
  | 0x09 => word32 (if t.range then t.cur.toNat else 0) k
  | 0x0A => word32 (if t.range then t.stop.toNat else 0) k
  | 0x0B => (t.inherit.getD k 0).toNat
  | 0x0C => if k = 0 then t.finfo.toNat else word32 t.fdetail.toNat (k - 1)
  | 0x0D => g.round.toNat
  | 0x0E => if t.check then 1 else 0
  | 0x0F => if (s.func t.func).vfstatus then 1 else 0
  | 0x10 => g.quotaWord.toNat
  | _ => (s.core t.core).poolWord.toNat

/-- Words of each special register (08 Table 8-6). -/
def specialWords : Nat → Nat
  | 0x03 => 3 | 0x04 => 2 | 0x05 => 2 | 0x07 => 2 | 0x08 => 2 | 0x09 => 2 | 0x0A => 2 | 0x0B => 5 | 0x0C => 3
  | _ => 1

def execSprd (d : BitVec 6) (k n : BitVec 8) (s : State) : Out :=
  s.vecOp [] d.toNat fun t g _ => .ok (single .u32 fun i => s.special t g n.toNat k.toNat i)

def execSpwr (a : Opnd) (n : BitVec 8) (s : State) : Out :=
  s.withActive fun c t g =>
    let v := g.uniOp a
    let g1 := g.freeLastS a []
    if n.toNat = 0x0D then s.commitGang c g { g1 with round := v.setWidth 2 }
    else
      let s1 := if v.getLsbD 0 then s.modFunc t.func fun f => { f with vfstatus := false } else s
      s1.commitGang c g g1

/-! ### The pools (08 R181, R182, R188, R189) -/

def Entry.claiming (e : Entry) : Bool := match e.st with
  | .claim _ _ => true
  | _ => false

/-- Detail of CLAIM_DEADLOCK (18 R375 Table 18-1): the class and count of the entry's claim, the gang's quotas and the pool. -/
def Gang.claimDetail (g : Gang) (e : Entry) (pool : Nat) : Nat :=
  let (uni, m) := match e.st with
    | .claim uni n => (uni, n)
    | _ => (false, 0)
  (if uni then 2 ^ 56 else 0) + m % 256 * 2 ^ 48 + g.qs % 256 * 2 ^ 40 + g.qv % 256 * 2 ^ 32 + pool % 2 ^ 32

/-- One gang takes CLAIM_DEADLOCK (18 R375): the record names its first waiting entry; every waiting entry's lanes end (log 8). -/
def State.claimFault (s : State) (l t : Nat) (g : Gang) (pool waiting : Nat) : State :=
  match g.frontier with
  | [] => s
  | e :: rest =>
    let (pc, w) := s.instrAt (s.coreOf l t) (s.funcOf l t) e.pc
    let s1 := s.raiseAt l t g.idx e.mask .claimDeadlock (g.claimDetail e pool) pc w 255 0 waiting
    rest.foldl (fun s e => s.endLanes l t g.idx e.mask) s1

/-- CLAIM_DEADLOCK (08 R182): every gang of the team that has not ended waits in REGCLAIM with every entry. The claims are withdrawn
and each gang takes the fault, in increasing gang order (18 R375). -/
def State.claimDeadlock (s : State) (l t : Nat) : State :=
  match s.team? l t with
  | none => s
  | some x =>
    let open_ := x.gangs.filter (!·.ended)
    let blocked := !open_.isEmpty && open_.all fun g => !g.frontier.isEmpty && g.frontier.all Entry.claiming
    if !blocked then s
    else
      let core := s.core x.core
      let grantable := match core.claims.find? (!·.uni), core.claims.find? (·.uni) with
        | some a, some b => (a.launch == l && a.team == t && decide (a.count ≤ core.poolV)) ||
                            (b.launch == l && b.team == t && decide (b.count ≤ core.poolS))
        | some a, none => a.launch == l && a.team == t && decide (a.count ≤ core.poolV)
        | none, some b => b.launch == l && b.team == t && decide (b.count ≤ core.poolS)
        | none, none => false
      if grantable then s
      else
        let pool := core.poolWord.toNat
        let s1 := s.modCore x.core fun k => { k with claims := k.claims.filter fun y => !(y.launch == l && y.team == t) }
        let waiting := open_.foldl (fun m g => m + 2 ^ g.idx) 0
        open_.foldl (fun s g => s.claimFault l t g pool waiting) s1

/-- Quota of a class. -/
def Gang.quota (g : Gang) (uni : Bool) : Nat := if uni then g.qs else g.qv
def Gang.addQuota (g : Gang) (uni : Bool) (n : Nat) : Gang := if uni then { g with qs := g.qs + n } else { g with qv := g.qv + n }

def execRegclaim (n : BitVec 7) (uni : Bool) (s : State) : Out :=
  s.withActive fun c t g =>
    let m := min n.toNat (64 - g.quota uni)
    if m = 0 then s.advanceRegion c
    else
      let core := s.core t.core
      let free := if uni then core.poolS else core.poolV
      if decide (m ≤ free) && !core.claims.any (fun x => x.uni == uni) then
        s.putGang c.launch c.team c.gang (((g.addQuota uni m).advance c).beginRegion allRegs allRegs)
      else
        let s1 := (s.hold c (.claim uni m)).modCore t.core fun k => k.claim ⟨c.launch, c.team, c.gang, c.eid, uni, m, .regclaim⟩
        (s1.newRegion c.launch c.team c.gang).claimDeadlock c.launch c.team

def execRegrel (n : BitVec 7) (uni : Bool) (s : State) : Out :=
  s.withActive fun c _ g =>
    let g1 := if uni then { g with qs := g.qs - min n.toNat (g.qs - g.hs) } else { g with qv := g.qv - min n.toNat (g.qv - g.hv) }
    s.putGang c.launch c.team c.gang ((g1.advance c).beginRegion allRegs allRegs)

def execFree (a : Opnd) (uni : Bool) (s : State) : Out :=
  s.gangOp fun _ g => .ok (if uni then g.freeS a.reg.toNat else g.freeV a.reg.toNat)

/-! ### Lane exchanges (10 R227 to R231) -/

/-- The lanes of a list rearranged by a source map; a source beyond lane 31 reads zero. -/
def takeLanes (vals : List Nat) (src : Nat → Nat) : List Nat :=
  lanes32.map fun i => if src i < 32 then vals.getD (src i) 0 else 0

def State.laneMove (s : State) (d : BitVec 6) (a : Opnd) (singles : List Opnd) (src : Gang → Except Stop (Nat → Nat)) : Out :=
  s.vecOpP [a] singles d.toNat fun _ g _ =>
    let x := g.srcA a
    let x1 := g.srcA1 a
    let halves := if isPairTag x.tag && x.reg % 2 == 0 then pairCheck x x1 else none
    match (poisonCheck (Machine.halves (isPairTag x.tag) (x, x1) ++ singles.map g.srcB)).orElse fun _ => halves with
    | some e => .error e
    | none =>
      match src g with
      | .error e => .error e
      | .ok f =>
        if isPairTag x.tag then
          match pairsCheck [(x, x1)] (some d.toNat) with
          | some e => .error e
          | none => .ok ⟨x.tag, true, true, takeLanes (lanes32.map (pairVal x x1)) f⟩
        else .ok ⟨x.tag, false, false, takeLanes (lanes32.map x.val) f⟩

def execQswapx (d : BitVec 6) (a : Opnd) (s : State) : Out := s.laneMove d a [] fun _ => .ok fun i => i ^^^ 1
def execQswapy (d : BitVec 6) (a : Opnd) (s : State) : Out := s.laneMove d a [] fun _ => .ok fun i => i ^^^ 2
def execQswapd (d : BitVec 6) (a : Opnd) (s : State) : Out := s.laneMove d a [] fun _ => .ok fun i => i ^^^ 3
def execQbcast (d : BitVec 6) (a : Opnd) (j : BitVec 2) (s : State) : Out :=
  s.laneMove d a [] fun _ => .ok fun i => i / 4 * 4 + j.toNat

def execShfl (d : BitVec 6) (a b : Opnd) (s : State) : Out :=
  s.laneMove d a [b] fun g =>
    match accept W32T [g.srcB b] with
    | some e => .error e
    | none => .ok (g.srcB b).val

def execVote (d : BitVec 6) (p : BitVec 3) (n : Bool) (m : BitVec 8) (s : State) : Out :=
  s.vecOp [] d.toNat fun _ g active =>
    let v := g.pred p.toNat
    .ok (single .u32 fun _ => voteVal m.toNat active (if n then ~~~ v else v))

def execMatchLanes (d : BitVec 6) (a : Opnd) (w : Bool) (s : State) : Out :=
  s.vecOpP [a] [] d.toNat fun _ g active =>
    let x := g.srcA a
    let x1 := g.srcA1 a
    match (poisonCheck (if w then [x, x1] else [x])).orElse fun _ => if w then pairCheck x x1 else none with
    | some e => .error e
    | none =>
      let v := fun i => if w then pairVal x x1 i else x.val i
      .ok ⟨.u32, false, w, lanes32.map fun i => (laneMask (fun k => active.getLsbD k && v k == v i)).toNat⟩

end Sys2Proof.Machine
end

