-- ==== Sys2Proof/Machine/Control.lean ====
section
/-! DEFINITION. The instruction stream's own elements (02 R18, R32, R33), control transfers, waiting, regions, draws, barriers,
the baton, convergence counts and exit (chapter 13), and traps (14 R318 to R320). -/

namespace Sys2Proof.Machine

/-! ### Clause headers, PRED and NOP -/

/-- A header that an entry has reached (02 R18, R19, 13 R289, R290): every ready or stalled entry of the gang at it merges into
one, which takes the header's priority and flags and waits until every flag of `w` reads zero. -/
def Gang.reachHeader (g : Gang) (c : Cur) (w : BitVec 12) (a b : BitVec 4) (p : BitVec 8) : Gang :=
  let here (x : Entry) : Bool := x.pc == c.pc && (x.st == .ready || (match x.st with
    | .stalled _ => true
    | _ => false))
  let mates := g.frontier.filter fun x => x.eid != c.eid && here x
  let mask := mates.foldl (fun m x => m ||| x.mask) 0
  let wait := (rangeFrom 0 12).any fun k => w.getLsbD k && g.flag k != 0
  { g with frontier := (g.frontier.filter fun x => !mates.any (·.eid == x.eid)).map fun x =>
      if x.eid == c.eid then
        { x with
          mask := x.mask ||| mask
          age := mates.foldl (fun n y => min n y.age) x.age
          prio := p.toNat
          setA := a.toNat
          setB := b.toNat
          promoted := none
          progress := 0
          since := 0
          resume := if wait then .progress else .none
          st := if wait then .stalled (.flags w) else .ready
          pc := if wait then c.pc else c.nextPc }
      else x }

def execClauseHeader (w : BitVec 12) (a b : BitVec 4) (p : BitVec 8) (s : State) : Out :=
  s.withCur fun c _ _ => s.modGang c.launch c.team c.gang fun g => g.reachHeader c w a b p

/-- PRED (02 R32, R34): the bundle goes on at the next halfword with the lanes where the predicate holds. A PRED before another
PRED or before a header faults ILL_ENC on the whole entry. -/
def execPred (p : BitVec 3) (n : Bool) (s : State) : Out :=
  s.withCur fun c t g =>
    let next := c.nextPc
    match s.fetch t.core t.func (((s.launch? c.launch).map (·.stamp)).getD 0) next with
    | (.walk, s1) => { s1.fetchWalk c.launch c.team c.gang c.eid next with cur := none }
    | (.fault f, s1) => { s1.fetchFault c.launch c.team c.gang c.eid next f with cur := none }
    | (.half h, s1) =>
      if isPred h || h.toNat % 16 == 15 then { s1.illField c with cur := none }
      else
        let v := g.pred p.toNat
        { s1 with cur := some { c with pc := next, mask := c.mask &&& (if n then ~~~ v else v) } }

def execNopC (s : State) : Out := s.withCur fun c _ _ => s.advance c
def execNop (s : State) : Out := s.withCur fun c _ _ => s.advance c

/-! ### Control transfers (13 R289, R293, R294) -/

/-- Gather lanes by the address they go to, in order of first lane. -/
def groupTargets (ls : List (Nat × Nat)) : List (Nat × Mask) :=
  ls.foldl (fun acc x =>
    if acc.any (·.1 == x.2) then acc.map fun y => if y.1 == x.2 then (y.1, y.2 ||| (1#32 <<< x.1)) else y
    else acc ++ [(x.2, 1#32 <<< x.1)]) []

/-- The entry's lanes go to their addresses: one entry for each address, with the old priority and age. Only a header may
stand where they arrive (02 R23). -/
def Gang.sendLanes (g : Gang) (c : Cur) (fresh : Nat) (dests : List (Nat × Nat)) : Gang :=
  match g.entry? c.eid with
  | none => g
  | some e =>
    let rest := (lanesOf e.mask).filter fun i => !dests.any (·.1 == i)
    let groups := groupTargets ((dests.filter fun x => e.mask.getLsbD x.1) ++ rest.map fun i => (i, c.nextPc))
    let made : List Entry := groups.mapIdx fun i x =>
      { e with eid := (if i = 0 then e.eid else fresh + i - 1), pc := x.1, mask := x.2, st := .ready, resume := .none
               progress := 0, since := 0, setA := 16, setB := 16 }
    { g with frontier := g.frontier.filter (·.eid != c.eid) ++ made }
def State.sendLanes (s : State) (c : Cur) (dests : List (Nat × Nat)) : State :=
  { s.modGang c.launch c.team c.gang fun g => g.sendLanes c s.fresh dests with fresh := s.fresh + 32 }

/-- Target of a format-B instruction (02 R24). -/
def branchTarget (c : Cur) (o : BitVec 22) : Nat := (((c.pc : Int) + 2 * sext o.toNat 22) % (2 ^ 55 : Nat)).toNat

def execBra (o : BitVec 22) (s : State) : Out :=
  s.withActive fun c _ _ => s.sendLanes c ((lanesOf c.mask).map fun i => (i, branchTarget c o))

/-- The return address as a 64-bit address: the 55 bits of a + 4, extended as 03 R54 requires. -/
def returnAddress (c : Cur) : W64 := BitVec.ofInt 64 (sext c.nextPc 55)

def execCall (o : BitVec 22) (s : State) : Out :=
  s.withActive fun c _ g =>
    let v := returnAddress c
    let g1 := (g.putV 62 c.mask (List.replicate 32 (v.setWidth 32)) .i64).putV 63 c.mask
      (List.replicate 32 ((v >>> 32).setWidth 32)) .i64
    { s.commitWith c g g1 fun x => x.sendLanes c s.fresh ((lanesOf c.mask).map fun i => (i, branchTarget c o))
      with fresh := s.fresh + 32 }

/-- BRX and RET: a lane whose target breaks the address form or has bit 0 set faults where it stands (02 R15, 03 R54). -/
def State.indirect (s : State) (a : Opnd) : Out :=
  s.withActive fun c _ g =>
    let x := g.srcA a
    let x1 := g.srcA1 a
    match ((poisonCheck [x, x1]).orElse fun _ => accept [.i64, .none] [x]).orElse fun _ => pairCheck x x1 with
    | some (.ill d) => s.illValue c d
    | some (.flt f) => s.raiseAll c f
    | none =>
      let va (i : Nat) : W64 := BitVec.ofNat 64 (pairVal x x1 i)
      let flt (i : Nat) : Option Flt :=
        if !addrOk (va i) then some ⟨.perm, 6⟩ else if (va i).getLsbD 0 then some ⟨.misalign, 0⟩ else none
      let bad := (lanesOf c.mask).filterMap fun i => (flt i).map fun f => (i, f)
      let dests := (lanesOf c.mask).filterMap fun i => if (flt i).isNone then some (i, gvaOf (va i)) else none
      let s1 := s.putGang c.launch c.team c.gang (g.freePair a [])
      (s1.raiseLanes c bad).sendLanes c dests

def execBrx (a : Opnd) (s : State) : Out := s.indirect a
def execRet (a : Opnd) (s : State) : Out := s.indirect a

/-! ### Waiting, stepping, reconvergence (13 R296) -/

/-- Entries that wait at the same `RECONV` merge into the issuing one, which goes on. -/
def Gang.mergeHere (g : Gang) (c : Cur) (joins : Entry → Bool) : Gang :=
  let mates := g.frontier.filter fun x => x.eid != c.eid && x.pc == c.ppc && joins x
  let mask := mates.foldl (fun m x => m ||| x.mask) 0
  let age (n : Nat) : Nat := mates.foldl (fun n y => min n y.age) n
  ({ g with frontier := (g.frontier.filter fun (x : Entry) => !mates.any fun y => y.eid == x.eid).map fun (x : Entry) =>
      if x.eid == c.eid then { x with mask := x.mask ||| mask, age := age x.age } else x }).advance c

def execReconv (s : State) : Out :=
  s.withActive fun c _ g =>
    if g.frontier.any fun x => x.eid != c.eid && decide (x.pc < c.ppc) then s.hold c .reconv
    else s.modGang c.launch c.team c.gang fun g => g.mergeHere c fun x => x.st == .reconv || x.st == .ready ||
      (match x.st with
       | .stalled _ => true
       | _ => false)
def execReconvTry (s : State) : Out :=
  s.withActive fun c _ _ => s.modGang c.launch c.team c.gang fun g => g.mergeHere c fun x => x.st == .reconv

def execYield (s : State) : Out :=
  s.withActive fun c _ g =>
    let others := (g.frontier.filter fun x => x.eid != c.eid && s.eligible c.launch c.team c.gang g x).map (·.eid)
    s.modGang c.launch c.team c.gang fun g => (g.advance c).modEntry c.eid fun e => { e with yielded := others }

def execWaitf (m : BitVec 12) (s : State) : Out :=
  s.withActive fun c _ g =>
    if (rangeFrom 0 12).any fun k => m.getLsbD k && g.flag k != 0 then s.stall c (.flags m) else s.advance c

/-- STEP (13 R296, 15 R352, R353): SR_STEP counts; at a checkpoint's boundary the gang begins a region and stops issuing. -/
def execStep (s : State) : Out :=
  s.withActive fun c t g =>
    let n := g.step + 1
    let s1 := s.modGang c.launch c.team c.gang fun g => { g with step := n }
    match (s.func t.func).checkpoint with
    | none => s1.advance c
    | some k =>
      if (k.hold.map fun h => decide (h.toNat < n.toNat)).getD false then s.stall c .stepHold
      else if k.target == some n then
        let s2 := s1.advanceRegion c
        (s2.modGang c.launch c.team c.gang fun g => { g with reachedStep := true }).modFunc t.func fun f =>
          { f with checkpoint := some { k with firstStop := some (k.firstStop.getD s.now) } }
      else s1.advance c

/-! ### Regions and draws (13 R297 to R299) -/

def execRegion (d : BitVec 6) (a : Opnd) (s : State) : Out :=
  s.withActive fun c _ g =>
    s.putGang c.launch c.team c.gang (((g.freeLastS a []).advance c).beginRegion (g.uniOp a) (g.uni d.toNat))
def execRegionAll (s : State) : Out := s.withActive fun c _ _ => s.advanceRegion c

/-- One draw from a team's interval: the iteration, and the team after it (13 R286, R299). -/
def Team.draw (t : Team) : W64 × Team :=
  if t.range && decide (t.cur.toNat < t.stop.toNat) then (t.cur, { t with cur := t.cur + 1 }) else (BitVec.allOnes 64, t)

def execRngnext (d : BitVec 6) (s : State) : Out :=
  s.withActive fun c t g =>
    match g.replay with
    | v :: rest => s.commitGang c g { g.putS d.toNat v with replay := rest }
    | [] =>
      -- the ninth draw of a region begins a new one at this instruction
      let g0 := if 8 ≤ g.region.draws.length then g.beginRegion allRegs allRegs else g
      let (logged, s1) := s.logTake t.func
        (fun l => leField l 0 4 == 4 && leField l 4 4 == c.gang * 256 && leField l 24 8 == c.team) 16
      let (v, t1) := match logged with
        | some x => (BitVec.ofNat 64 x, { t with cur := t.cur + 1 })
        | none => t.draw
      let g1 := { g0.putS d.toNat v with region := { (g0.putS d.toNat v).region with draws := g0.region.draws ++ [v] } }
      match (s.core t.core).room g (g.spend g1 c.eid) with
      | .wait uni n => s.waitRegs c uni n
      | .ok =>
        let s2 := s1.modTeam c.launch c.team fun x => { x with cur := t1.cur }
        (s2.commitGang c g g1).logWrite t.func (logLine 4 (c.gang * 256) c.launch v.toNat c.team)

/-! ### Barriers (13 R300 to R303) -/

/-- How far a multi-part instruction of an entry has come. -/
def Gang.progressOf (g : Gang) (eid : Nat) : Nat := ((g.entry? eid).map (·.progress)).getD 0

def Team.bar (t : Team) (k : Nat) : Bar := t.bars.getD k ⟨false, 0, 0, 0, 0, false, 0, 0⟩
def Team.setBar (t : Team) (k : Nat) (b : Bar) : Team := { t with bars := setAt t.bars k b }
def State.setBar (s : State) (c : Cur) (k : Nat) (b : Bar) : State := s.modTeam c.launch c.team (·.setBar k b)

def execBarinit (d : BitVec 6) (a : Opnd) (s : State) : Out :=
  s.withActive fun c t g =>
    let v := (g.uniOp a).toNat
    let m := fld v 0 6
    let e := fld v 24 40
    let b := t.bar d.toNat
    let s1 := s.putGang c.launch c.team c.gang (g.freeLastS a [])
    if m = 0 || decide (t.gangs.length < m) then s.illValue c
    else if !b.set then (s1.setBar c d.toNat ⟨true, m, e, 0, e, false, 0, 0⟩).advanceRegion c
    else if b.m = m && b.e = e then s1.advanceRegion c
    else if b.arrived = 0 && !b.counted then (s1.setBar c d.toNat { b with m := m, e := e, b := e }).advanceRegion c
    else s.illValue c

/-- The gang arrives at the current phase (13 R300, R302). -/
def State.arrive (s : State) (c : Cur) (t : Team) (k : Nat) : State :=
  let b := t.bar k
  (s.setBar c k ({ b with arrived := b.arrived ||| (1#32 <<< c.gang) }).check).modGang c.launch c.team c.gang fun g =>
    { g with barPhase := setAt g.barPhase k (some b.phase) }

/-- An arrival is a release at team scope (13 R300): the gang's earlier stores leave its queue first. A gang that has arrived
in the current phase stalls until that phase completes. -/
def State.arrival (s : State) (c : Cur) (t : Team) (g : Gang) (k : Nat) (go : State → State) : State :=
  if !(t.bar k).set then s.illValue c
  else if g.stq.any (fun x => decide (x.seq < c.seq)) then s.stall c .stqEmpty
  else if (t.bar k).arrived.getLsbD c.gang then s.stall c (.barArrive k)
  else go (s.arrive c t k)

/-- Wait until the phase in which the gang last arrived completes. The phase that an entry waits for is fixed when it begins to wait
(its progress is the phase's number plus 1). -/
def State.barWait (s : State) (c : Cur) (k : Nat) : State :=
  match s.gang? c.launch c.team c.gang, s.team? c.launch c.team with
  | some g, some t =>
    let again := ((g.entry? c.eid).map (·.resume)) == some .progress
    match (if again then some (g.progressOf c.eid - 1) else (g.barPhase[k]?).join) with
    | none => s.advanceRegion c
    | some ph =>
      if ph < (t.bar k).phase then s.advanceRegion c
      else
        let s1 := (s.hold c (.barrier k ph)).modEntry c.launch c.team c.gang c.eid fun e =>
          { e with resume := .progress, progress := ph + 1 }
        if again then s1 else s1.newRegion c.launch c.team c.gang
  | _, _ => s

def execBararv (d : BitVec 6) (s : State) : Out :=
  s.withActive fun c t g => s.arrival c t g d.toNat (·.advanceRegion c)
def execBarwait (d : BitVec 6) (s : State) : Out :=
  s.withActive fun c t _ => if !(t.bar d.toNat).set then s.illValue c else s.barWait c d.toNat
def execBarsync (d : BitVec 6) (s : State) : Out :=
  s.withActive fun c t g =>
    if ((g.entry? c.eid).map (·.resume)) = some .progress then s.barWait c d.toNat
    else s.arrival c t g d.toNat (·.barWait c d.toNat)
def execBarexp (d : BitVec 6) (a : Opnd) (s : State) : Out :=
  s.withActive fun c t g =>
    let b := t.bar d.toNat
    if !b.set then s.illValue c
    else
      let s1 := s.putGang c.launch c.team c.gang (g.freeLastS a [])
      (s1.setBar c d.toNat { b with b := b.b + fld (g.uniOp a).toNat 0 40 }).advanceRegion c

/-! ### Convergence counts and the baton (13 R304, R305) -/

def Team.conv (t : Team) (k : Nat) : Conv := t.cv.getD k ⟨0, [], none⟩
def Team.setConv (t : Team) (k : Nat) (v : Conv) : Team := { t with cv := setAt t.cv k v }

def execCvset (d : BitVec 6) (n : BitVec 8) (s : State) : Out :=
  s.withActive fun c t _ =>
    let v := t.conv d.toNat
    if v.signers.isEmpty then (s.modTeam c.launch c.team (·.setConv d.toNat { v with declared := n.toNat })).advance c
    else if v.declared = n.toNat then s.advance c
    else s.illValue c

def execBatonacq (byTeam : Bool) (s : State) : Out :=
  s.withActive fun c t _ =>
    let mine (q : BatonReq) : Bool := q.launch == c.launch && q.team == c.team && q.gang == c.gang && q.eid == c.eid
    if s.batonFor t.core c.launch c.team c.gang c.eid byTeam then
      let holder := if byTeam then Baton.team c.launch c.team
        else match (s.core t.core).baton with
          | .free => .gang c.launch c.team c.gang
          | h => h
      (s.modCore t.core fun k => { k with baton := holder, batonQ := k.batonQ.filter (!mine ·) }).advance c
    else
      (s.hold c .baton).modCore t.core fun k =>
        if k.batonQ.any mine then k
        else { k with batonQ := (s.batonWaiting t.core) ++ [⟨c.launch, c.team, c.gang, c.eid, byTeam⟩] }

def execBatonrel (byTeam : Bool) (s : State) : Out :=
  s.withActive fun c t _ =>
    (s.freeBaton t.core fun b => b == (if byTeam then .team c.launch c.team else .gang c.launch c.team c.gang)).advance c

/-! ### Exit (13 R306) -/

/-- Lanes that the entry's frontier still holds. -/
def Gang.live (g : Gang) : Mask := g.frontier.foldl (fun m e => m ||| e.mask) 0

/-- Active lanes leave; the others fall through. The region ends. -/
def State.exitLanes (s : State) (c : Cur) : State :=
  let s1 := (s.advance c).modGang c.launch c.team c.gang fun g => (g.endLanes c.mask).endElems c.mask
  ((s1.newRegion c.launch c.team c.gang).modEntry c.launch c.team c.gang c.eid fun e =>
    { e with setA := 16, setB := 16 }).endGang c.launch c.team c.gang

/-- An `EXIT` whose list is not the one that the team holds (13 R306): the fault is recorded and the team launches no successor, but
the gang does not end; its lanes go on past the instruction (log 18). -/
def State.refuseExit (s : State) (c : Cur) : State :=
  let s1 := (s.post (s.record c.launch c.team c.gang 1 .illEnc c.mask c.word c.pc 0 0 255 0)).modTeam c.launch c.team fun x =>
    { x with faulted := true }
  (s1.advanceRegion c).modEntry c.launch c.team c.gang c.eid fun e => { e with setA := 16, setB := 16 }

def execExit (a : Opnd) (n : BitVec 8) (s : State) : Out :=
  s.withActive fun c t g =>
    let ends := g.live &&& ~~~ c.mask == 0
    if !ends then s.exitLanes c
    else if s.gangBusy c.launch c.team c.gang then s.stall c .gangDone
    else if n = 0 then s.exitLanes c
    else
      let va := (g.uniOp a).toNat
      if va % 64 ≠ 0 then s.raiseAll c ⟨.misalign, 0⟩
      else if t.sn ≠ 0 && !(t.slist == va && t.sn == n.toNat) then s.refuseExit c
      else
        let s1 := s.putGang c.launch c.team c.gang (g.freeLastS a [])
        (s1.modTeam c.launch c.team fun x => if x.faulted then x else { x with slist := va, sn := n.toNat }).exitLanes c

/-! ### TRAP, SVC and BKPT (14 R318 to R320) -/

def execTrap (a : Opnd) (i : BitVec 8) (s : State) : Out :=
  s.withActive fun c _ g =>
    (s.putGang c.launch c.team c.gang (g.freeLastS a [])).stopTeam c .trap (g.uniOp a) i.toNat
def execBkpt (i : BitVec 8) (s : State) : Out :=
  s.withActive fun c _ _ => s.stopTeam c .bkpt (i.setWidth 64) i.toNat

/-- Post a request to the handler queue; its seq is the queue's running count. `again` marks a request posted after a
restore (14 R320). -/
def State.postSvc (s : State) (c : Cur) (func : Nat) (arg : W64) (imm : Nat) (again : Bool) : Nat × State :=
  let seq := ((((s.func func).rings[2]?).map (·.seq)).getD 0) % 2 ^ 32
  let r := { s.record c.launch c.team c.gang 2 .svc c.mask c.word c.pc arg.toNat imm 255 (if again then 8 else 0) with
             seqOf := some seq }
  (seq, (s.post r).modFunc func fun f =>
    { f with
      rings := modAt f.rings 2 fun x => { x with seq := x.seq + 1 }
      svcWait := f.svcWait ++ [(seq, c.launch, c.team, c.gang, c.eid)] })

def execSvc (d : BitVec 6) (a : Opnd) (i : BitVec 8) (s : State) : Out :=
  s.withActive fun c t g =>
    let first : State :=
      if !((s.func t.func).ringRoom 2) then
        -- a request that waits counts once (14 R313)
        let waited := ((g.entry? c.eid).map (·.resume)) == some .progress
        ((if waited then s else s.countErr t.func 11).stall c .handler).modEntry c.launch c.team c.gang c.eid fun e =>
          { e with resume := .progress }
      else
        let s1 := s.putGang c.launch c.team c.gang (g.freeLastS a [])
        let (seq, s2) := s1.postSvc c t.func (g.uniOp a) i.toNat false
        let s3 := (s2.modTeam c.launch c.team fun x => { x with didSvc := true }).stall c (.svc seq)
        (s3.modEntry c.launch c.team c.gang c.eid fun e => { e with resume := .op seq }).newRegion c.launch c.team c.gang
    match (g.entry? c.eid).map Entry.resume with
    | some (.op seq) =>
      match (s.func t.func).svcGot.find? (·.1 == seq) with
      | none => s.stall c (.svc seq)
      | some (_, v) =>
        match (s.core t.core).room g (g.spend (g.putS d.toNat v) c.eid) with
        | .wait uni n => s.waitRegs c uni n
        | .ok =>
          (s.modFunc t.func fun f =>
            { f with svcGot := f.svcGot.filter (·.1 != seq), svcWait := f.svcWait.filter (·.1 != seq) }).commitRegion c g
              (g.putS d.toNat v)
    | _ => first

end Sys2Proof.Machine
end

