-- ==== Sys2Proof/Machine/Buffers.lean ====
section
/-! DEFINITION. Typed buffers: bytes, marks, presence records, tile descriptors and the checks of their users (chapter 07), and
the writing of loaded lanes (04 Table 4-7). -/

namespace Sys2Proof.Machine

/-! ### Presence records (07 Table 7-6) -/

/-- Arrival of `b` bytes. -/
def Presence.arrive (p : Presence) (b : Nat) : Presence :=
  if !p.armed then p
  else if p.full then { p with ovr := true }
  else if p.ac = 0 then { p with ovr := true }
  else if b < p.ac then { p with ac := p.ac - b }
  else { p with full := true, ac := 0, ovr := p.ovr || decide (p.ac < b) }

/-- A consuming access that proceeds. -/
def Presence.consume (p : Presence) : Presence :=
  if p.armed && p.full then
    if p.cc = 0 then p else if p.cc = 1 then { p with full := false, cc := 0 } else { p with cc := p.cc - 1 }
  else p

/-- `TARM` with arrival countdown `a` and consumers `c`. -/
def Presence.arm (a c : Nat) : Presence := ⟨a == 0, true, false, a, c⟩

/-- The word of a record (07 Table 7-5). -/
def Presence.word (p : Presence) : Nat :=
  p.ac % 2 ^ 20 + p.cc % 2 ^ 8 * 2 ^ 20 + p.full.toNat * 2 ^ 28 + p.armed.toNat * 2 ^ 29 + p.ovr.toNat * 2 ^ 30

def State.modBuf (s : State) (core : Nat) (b : Buf) (f : BufState → BufState) : State := s.modCore core (·.modBuf b f)
/-- WAITTILE packets whose tiles are all FULL now complete (13 R284); the test is made at every change of a record. -/
def State.testWaitTiles (s : State) (core : Nat) (b : Buf) : State :=
  let met (p : QPacket) : Bool := match p.tiles with
    | some (c, b', first, n) =>
      c == core && b' == b && (rangeFrom first n).all fun k => (((s.core core).buf b).presence k).full
    | none => false
  if s.funcs.any fun f => f.queues.any fun q => q.running.any met then
    { s with funcs := s.funcs.map fun f => { f with queues := f.queues.map fun q =>
        { q with running := q.running.filter (!met ·) } } }
  else s
def State.modTile (s : State) (core : Nat) (b : Buf) (t : Nat) (f : Presence → Presence) : State :=
  (s.modBuf core b fun x => x.setPresence t (f (x.presence t))).testWaitTiles core b
def State.tileArrive (s : State) (core : Nat) (b : Buf) (t n : Nat) : State := s.modTile core b t (·.arrive n)
def State.tileConsume (s : State) (core : Nat) (b : Buf) (t : Nat) : State := s.modTile core b t (·.consume)

/-! ### Bytes and marks (07 R157) -/

/-- Write bytes from an offset: poisoned data marks each block it touches, unpoisoned data clears each block it covers. DESIGN CHOICE
(log 90): several writes that cover a block together clear nothing. -/
def BufState.put (x : BufState) (off : Nat) (bytes : List Byte) (bad : Bool) : BufState :=
  let first := off / 32
  let blocks := rangeFrom first ((off + bytes.length + 31) / 32 - first)
  let marks := if bytes.isEmpty then x.poison
    else if bad then blocks.foldl (fun m k => insertNat k m) x.poison
    else x.poison.filter fun k => !(decide (off ≤ 32 * k) && decide (32 * k + 32 ≤ off + bytes.length))
  { x with bytes := cellPut x.bytes off bytes, poison := marks }
def BufState.get (x : BufState) (off n : Nat) : List Byte := cellRead x.bytes off n
def BufState.marked (x : BufState) (off n : Nat) : Bool :=
  x.poison.any fun k => decide (32 * k < off + n) && decide (off < 32 * k + 32)

/-! ### Arrivals (07 R163) -/

/-- The cluster of a team, as the origin of work. -/
def State.clusterOf (s : State) (l t : Nat) : Option (Nat × Nat) := (s.team? l t).map fun x => (x.launch, x.cluster)

/-- Does a team's allotment hold a physical tile of a buffer? -/
def Team.holdsTile (x : Team) (b : Buf) (k : Nat) : Bool := decide (x.base b ≤ k) && decide (k < x.base b + x.tilesIn b)

/-- Bytes of one write land in a tile (06 R133): the write and the arrival are one step. A team whose tile counts an arrival from
work outside its cluster cannot roll back any more (14 R330). -/
def State.landBytes (s : State) (core : Nat) (b : Buf) (off : Nat) (bytes : List Byte) (bad : Bool)
    (from_ : Option (Nat × Nat)) : State :=
  let k := off / tileSize b
  let counts := (((s.core core).buf b).presence k).armed
  let s1 := (s.modBuf core b fun x => x.put off bytes bad).tileArrive core b k bytes.length
  { s1 with teams := modIf (fun x => counts && x.core == core && x.holdsTile b k && from_ != some (x.launch, x.cluster))
                        (fun x => { x with fedFromOut := true }) s1.teams }

/-! ### Tile descriptors (07 R158, R159) -/

structure Desc where
  buf : Buf
  sib : Bool
  core : Nat
  base : Nat
  rows : Nat
  cols : Nat
  tag : Nat
  swz : Nat
  pitch : Nat
deriving DecidableEq, Repr

def descOf (d : BitVec 128) : Desc :=
  let x := d.toNat
  ⟨bufOf (fld x 0 2), x.testBit 7, fld x 4 3, fld x 8 8, fld x 16 16, fld x 32 16, fld x 48 4, fld x 52 4, fld x 64 32⟩

/-- Tile element size of a tag (07 Table 7-1). -/
def elemSize : Nat → Nat
  | 1 => 4 | 2 => 4 | 3 => 2 | 6 => 4 | 7 => 2 | 8 => 2 | 11 => 8 | 12 => 8
  | _ => 1

/-- A malformed descriptor (07 R158). -/
def badDesc (d : BitVec 128) : Bool :=
  let x := d.toNat
  let k := descOf d
  !zeroBits x 96 32 || !zeroBits x 56 8 || !zeroBits x 2 2 || decide (8 ≤ k.swz) || decide (12 < k.tag) ||
  decide (k.pitch % elemSize k.tag ≠ 0) || decide (k.pitch < k.cols * elemSize k.tag)

def Desc.extent (d : Desc) : Nat := d.rows * d.pitch
/-- Last tile of the tile set, from the allotment's start. -/
def Desc.last (d : Desc) : Nat := if d.extent = 0 then d.base else (d.base * tileSize d.buf + d.extent - 1) / tileSize d.buf
/-- Tiles of the set, from the allotment's start. -/
def Desc.set (d : Desc) : List Nat := rangeFrom d.base (d.last + 1 - d.base)
/-- Allotment offset of the byte at extent offset `x`, permuted (07 R159). -/
def Desc.place (d : Desc) (x : Nat) : Nat :=
  let p := d.base * tileSize d.buf + x
  p / 65536 * 65536 + swizzle d.swz (p % 65536)

/-- Where a descriptor leads: the core and team whose allotment it names (07 R156); none is BUF_RIGHTS. -/
def State.holder (s : State) (t : Team) (d : Desc) : Option Team :=
  if d.sib then
    s.teams.find? fun x => x.launch == t.launch && x.cluster == t.cluster && x.core == bayOf t.core * 8 + d.core
  else some t

/-- Does the tile set leave the allotment (BUF_BOUND)? -/
def Desc.outside (d : Desc) (h : Team) : Bool := decide (h.tilesIn d.buf ≤ d.last)
/-- Physical offset in the buffer of an allotment offset, and physical tile of an allotment tile. -/
def Desc.phys (d : Desc) (h : Team) (p : Nat) : Nat := h.base d.buf * tileSize d.buf + p
def Desc.tile (d : Desc) (h : Team) (k : Nat) : Nat := h.base d.buf + k

/-! ### Waiting on a tile (07 R164) -/

/-- Entries of a core's wait table. A record that leaves EMPTY frees those that wait on it at once. -/
def State.waiters (s : State) (core : Nat) : Nat :=
  ((s.teams.filter (·.core == core)).map fun t => (t.gangs.map fun g => (g.frontier.filter fun e => match e.st with
    | .tile k b n => s.tileEmpty k b n
    | _ => false).length).sum).sum

/-- The whole entry parks on an EMPTY tile: in the wait table, or as a polling entry when the table is full. -/
def State.waitTile (s : State) (c : Cur) (core : Nat) (b : Buf) (t : Nat) : State :=
  -- the entry has no place in the table while it issues
  let s0 := s.modEntry c.launch c.team c.gang c.eid fun e => { e with st := .ready }
  if s0.waiters (s.coreOf c.launch c.team) < Config.waitTable then s.hold c (.tile core b t)
  else s.hold c (.polling core b t s.now)

/-! ### Stalls after an LDACQ (04 R93) -/

/-- The gang's next memory, fabric, copy or typed-buffer instruction stalls until an earlier `LDACQ` completes. -/
def Gang.acquiring (g : Gang) (since : Nat) : Bool :=
  g.ops.any fun x => decide (x.seq < since) && (match x.kind with
    | .ldacq _ => true
    | _ => false)
def State.afterAcq (s : State) (c : Cur) (g : Gang) (go : State) : State := if g.acquiring c.seq then s.stall c .ldacq else go

/-! ### Loaded lanes (04 Table 4-7) -/

/-- Registers of a width code: 32, 64, 128, 16 bits. -/
def widthRegs : Nat → Nat
  | 1 => 2
  | 2 => 4
  | _ => 1
/-- Bytes of a width code. -/
def widthBytes : Nat → Nat
  | 0 => 4
  | 1 => 8
  | 2 => 16
  | _ => 2

def loadTag (w etag : Nat) : Tag :=
  match w with
  | 0 => if etag ≤ 10 then tagOf etag else .none
  | 3 => .none
  | _ => if etag ≤ 12 then tagOf etag else .none

/-- Write loaded data of the lanes of `m` to d and the registers after it. -/
def Gang.putLoad (g : Gang) (d w : Nat) (m : Mask) (tag : Tag) (data : Nat → BitVec 128) : Gang :=
  (rangeFrom 0 (widthRegs w)).foldl (fun g k =>
    g.putV (d + k) m (lanes32.map fun i =>
      if w = 3 then ((data i).setWidth 16).setWidth 32 else ((data i) >>> (32 * k)).setWidth 32) tag) g

/-- The bytes that the registers d.. of a lane hold, for a store of width code `w`. -/
def Gang.storeData (g : Gang) (d w i : Nat) : BitVec 128 :=
  let word (k : Nat) : BitVec 128 := (((g.lanes (d + k)).getD i 0).setWidth 128) <<< (32 * k)
  match w with
  | 1 => word 0 ||| word 1
  | 2 => word 0 ||| word 1 ||| word 2 ||| word 3
  | 3 => (word 0) &&& 0xFFFF
  | _ => word 0

/-- The data registers of a store carry any tag but POISON. -/
def Gang.dataRegs (g : Gang) (d w : Nat) : List Src := (rangeFrom 0 (widthRegs w)).map fun k => g.srcD (d + k)

/-! ### Memory-return operations in flight (04 R101) -/

def Gang.op? (g : Gang) (id : Nat) : Option MemOp := g.ops.find? (·.id == id)
def Gang.modOp (g : Gang) (id : Nat) (f : MemOp → MemOp) : Gang := { g with ops := modIf (·.id == id) f g.ops }
def Gang.dropOp (g : Gang) (id : Nat) : Gang := { g with ops := g.ops.filter (·.id != id) }
def Entry.opId (e : Entry) : Option Nat := match e.resume with
  | .op id => some id
  | _ => none
def Gang.resumeOf (g : Gang) (eid : Nat) : Option Nat := (g.entry? eid).bind (·.opId)
def Gang.setAOf (g : Gang) (eid : Nat) : Nat := ((g.entry? eid).map (·.setA)).getD 15
def Gang.setBOf (g : Gang) (eid : Nat) : Nat := ((g.entry? eid).map (·.setB)).getD 15

/-- A new operation of the bundle's instruction, with the priority and flag fields of its clause. -/
def Gang.newOp (g : Gang) (c : Cur) (id : Nat) (kind : OpKind) (flag d : Nat) (once : Mask) (tag : Tag) (els : List Elem) : MemOp where
  id := id
  seq := c.seq
  kind := kind
  pc := c.pc
  ppc := c.ppc
  word := c.word
  flag := flag
  d := d
  region := g.region.num
  prio := ((g.entry? c.eid).map (·.prio)).getD 0
  setA := g.setAOf c.eid
  setB := g.setBOf c.eid
  once := once
  tag := tag
  elems := els

/-- Elements of lanes outside `active` that the entry holds count as done without effect (02 R34, 04 R101). -/
def MemOp.forgo (o : MemOp) (entry active : Mask) : MemOp :=
  o.mapElems fun e =>
    if !e.st.waits then e
    else if o.once = 0 then
      (if entry.getLsbD e.lane && !active.getLsbD e.lane then { e with st := .ended } else e)
    else if o.once &&& active = 0 then { e with st := .ended } else e

end Sys2Proof.Machine
end

