-- ==== Sys2Proof/Machine/Float.lean ====
section
/-! DEFINITION. Floating-point instructions (10 R223 to R226), in 32-bit and compact form. -/

namespace Sys2Proof.Machine

def FP : List Tag := [.f32, .f64, .f16x2, .bf16x2]
def FP1 : List Tag := [.f32, .f64]

/-- The IEEE format of a tag's elements. -/
def fmtOf : Tag → Fmt
  | .f64 => fF64
  | .f16x2 => fF16
  | .bf16x2 => fBF16
  | _ => fF32

/-- The gang's rounding mode (SR_ROUND). -/
def Gang.mode (g : Gang) : RMode := rmodeOf g.round.toNat

/-- An element-wise floating-point result. -/
def floatRes (t : Tag) (vals : Nat → List Nat) (f : Fmt → List Nat → Nat) : VRes :=
  let (w, n) := slotsOf t
  ⟨t, isPairTag t, isPairTag t, lanes32.map fun i => mapSlots w (f (fmtOf t)) (vals i) n⟩

def State.float2 (s : State) (grp : List Tag) (d : BitVec 6) (a b : Opnd) (f : RMode → Fmt → List Nat → Nat) : Out :=
  s.vecOpP [a, b] [] d.toNat fun _ g _ =>
    match typed true grp [(g.srcA a, g.srcA1 a), (g.srcB b, g.srcB1 b)] (some d.toNat) with
    | .error e => .error e
    | .ok (t, vals) => .ok (floatRes t vals (f g.mode))

def State.float1 (s : State) (grp : List Tag) (d : BitVec 6) (a : Opnd) (f : RMode → Fmt → List Nat → Nat) : Out :=
  s.vecOpP [a] [] d.toNat fun _ g _ =>
    match typed true grp [(g.srcA a, g.srcA1 a)] (some d.toNat) with
    | .error e => .error e
    | .ok (t, vals) => .ok (floatRes t vals (f g.mode))

/-! Element results of 10 Table 10-6. -/

def opFadd (m : RMode) (f : Fmt) (xs : List Nat) : Nat := f.round m (Val.sum m [f.val (arg xs 0), f.val (arg xs 1)])
def opFsub (m : RMode) (f : Fmt) (xs : List Nat) : Nat := f.round m (Val.sum m [f.val (arg xs 0), (f.val (arg xs 1)).neg])
def opFmul (m : RMode) (f : Fmt) (xs : List Nat) : Nat := f.round m ((f.val (arg xs 0)).mul (f.val (arg xs 1)))
def opFfma (m : RMode) (f : Fmt) (xs : List Nat) : Nat :=
  f.round m (Val.sum m [(f.val (arg xs 0)).mul (f.val (arg xs 1)), f.val (arg xs 2)])
def opFmin (_ : RMode) (f : Fmt) (xs : List Nat) : Nat := f.minmax false (arg xs 0) (arg xs 1)
def opFmax (_ : RMode) (f : Fmt) (xs : List Nat) : Nat := f.minmax true (arg xs 0) (arg xs 1)
def opFabs (_ : RMode) (f : Fmt) (xs : List Nat) : Nat := arg xs 0 % 2 ^ (f.width - 1)
def opFneg (_ : RMode) (f : Fmt) (xs : List Nat) : Nat := arg xs 0 ^^^ 2 ^ (f.width - 1)

def execFadd (d : BitVec 6) (a b : Opnd) (s : State) : Out := s.float2 FP d a b opFadd
def execFsub (d : BitVec 6) (a b : Opnd) (s : State) : Out := s.float2 FP d a b opFsub
def execFmul (d : BitVec 6) (a b : Opnd) (s : State) : Out := s.float2 FP d a b opFmul
def execFmin (d : BitVec 6) (a b : Opnd) (s : State) : Out := s.float2 FP d a b opFmin
def execFmax (d : BitVec 6) (a b : Opnd) (s : State) : Out := s.float2 FP d a b opFmax
def execFabs (d : BitVec 6) (a : Opnd) (s : State) : Out := s.float1 FP d a opFabs
def execFneg (d : BitVec 6) (a : Opnd) (s : State) : Out := s.float1 FP d a opFneg

def execFfma (d : BitVec 6) (a b : Opnd) (s : State) : Out :=
  s.vecOpP [a, b] [] d.toNat fun _ g _ =>
    match typed true FP [(g.srcA a, g.srcA1 a), (g.srcB b, g.srcB1 b), (g.srcD d.toNat, g.srcD (d.toNat + 1))]
        (some d.toNat) with
    | .error e => .error e
    | .ok (t, vals) => .ok (floatRes t vals (opFfma g.mode))

def execFset (p c : BitVec 3) (a b : Opnd) (s : State) : Out :=
  s.predOp [a, b] p.toNat fun g =>
    match typed true FP1 [(g.srcA a, g.srcA1 a), (g.srcB b, g.srcB1 b)] none with
    | .error e => .error e
    | .ok (t, vals) =>
      .ok (isPairTag t, laneMask fun i =>
        fsetCond c.toNat ((fmtOf t).val (arg (vals i) 0)) ((fmtOf t).val (arg (vals i) 1)))

/-- x × 2^y; a y beyond ±8192 gives what ±8192 gives in every format. -/
def scaleBy (v : Val) (y : Int) : Val :=
  match v with
  | .fin n q => .fin n { q with e := q.e + clampInt (-8192) 8192 y }
  | v => v

def execFscale (d : BitVec 6) (a b : Opnd) (s : State) : Out :=
  s.vecOpP [a] [b] d.toNat fun _ g _ =>
    let x := g.srcA a
    let y := g.srcB b
    let pair := isPairTag x.tag && x.reg % 2 == 0
    match (((poisonCheck (halves pair (x, g.srcA1 a) ++ [y])).orElse fun _ => accept FP1 [x]).orElse
        fun _ => if pair then pairCheck x (g.srcA1 a) else none).orElse fun _ => accept [.i32, .none] [y] with
    | some e => .error e
    | none =>
      match typed true FP1 [(g.srcA a, g.srcA1 a)] (some d.toNat) with
      | .error e => .error e
      | .ok (t, vals) =>
        let f := fmtOf t
        .ok ⟨t, isPairTag t, isPairTag t, lanes32.map fun i =>
          f.round g.mode (scaleBy (f.val (arg (vals i) 0)) (sext (y.val i) 32))⟩

/-- z + x0 y0 + x1 y1, exact before the one rounding (10 R223, R224). -/
def dot2 (m : RMode) (fa fb : Fmt) (x y z : Nat) : Nat :=
  fF32.round m (Val.sum m [fF32.val z, (fa.val (fld x 0 16)).mul (fb.val (fld y 0 16)),
    (fa.val (fld x 16 16)).mul (fb.val (fld y 16 16))])

def execFdot2 (d : BitVec 6) (a b : Opnd) (s : State) : Out :=
  s.vecOp [a, b] d.toNat fun _ g _ =>
    let x := g.srcA a
    let y := g.srcB b
    let z := g.srcD d.toNat
    match ((poisonCheck [x, y, z]).orElse fun _ => accept [.f16x2, .bf16x2] [x, y]).orElse fun _ => accept [.f32] [z] with
    | some e => .error e
    | none => .ok (single .f32 fun i => dot2 g.mode (fmtOf x.tag) (fmtOf y.tag) (x.val i) (y.val i) (z.val i))

/-- A function of 10 Table 10-7. -/
def State.funcOp (s : State) (grp : List Tag) (m : MFun) (d : BitVec 6) (a : Opnd) : Out :=
  s.float1 grp d a fun mode f xs => f.func m mode (arg xs 0)

def execFrcp (d : BitVec 6) (a : Opnd) (s : State) : Out := s.funcOp FP1 .rcp d a
def execFrsq (d : BitVec 6) (a : Opnd) (s : State) : Out := s.funcOp FP1 .rsq d a
def execFsqrt (d : BitVec 6) (a : Opnd) (s : State) : Out := s.funcOp FP1 .sqrt d a
def execFexp2 (d : BitVec 6) (a : Opnd) (s : State) : Out := s.funcOp [.f32] .exp2 d a
def execFlog2 (d : BitVec 6) (a : Opnd) (s : State) : Out := s.funcOp [.f32] .log2 d a
def execFsin (d : BitVec 6) (a : Opnd) (s : State) : Out := s.funcOp [.f32] .sin d a
def execFcos (d : BitVec 6) (a : Opnd) (s : State) : Out := s.funcOp [.f32] .cos d a
def execFtanh (d : BitVec 6) (a : Opnd) (s : State) : Out := s.funcOp [.f32] .tanh d a

/-- A rounding code of `CVT` and `FRND` (09 R201): 0 is SR_ROUND. -/
def rndMode (g : Gang) (r : Nat) : RMode := if r = 0 then g.mode else rmodeOf (r - 1)

def execFrnd (d : BitVec 6) (a : Opnd) (f : BitVec 8) (s : State) : Out :=
  s.vecOpP [a] [] d.toNat fun _ g _ =>
    match typed true FP1 [(g.srcA a, g.srcA1 a)] (some d.toNat) with
    | .error e => .error e
    | .ok (t, vals) => .ok (floatRes t vals fun fm xs => fm.rnd (rndMode g f.toNat) (arg xs 0))

def execFclass (d : BitVec 6) (a : Opnd) (s : State) : Out :=
  s.vecOpP [a] [] d.toNat fun _ g _ =>
    match typed true FP1 [(g.srcA a, g.srcA1 a)] none with
    | .error e => .error e
    | .ok (t, vals) => .ok ⟨.u32, false, isPairTag t, lanes32.map fun i => (fmtOf t).class (arg (vals i) 0)⟩

def execFaddC (d b : BitVec 5) (s : State) : Out := s.float2 FP (wide d) (plain d) (plain b) opFadd
def execFsubC (d b : BitVec 5) (s : State) : Out := s.float2 FP (wide d) (plain d) (plain b) opFsub
def execFmulC (d b : BitVec 5) (s : State) : Out := s.float2 FP (wide d) (plain d) (plain b) opFmul
def execFminC (d b : BitVec 5) (s : State) : Out := s.float2 FP (wide d) (plain d) (plain b) opFmin
def execFmaxC (d b : BitVec 5) (s : State) : Out := s.float2 FP (wide d) (plain d) (plain b) opFmax

end Sys2Proof.Machine
end

