-- ==== Sys2Proof/Machine/Convert.lean ====
section
/-! DEFINITION. Conversion instructions (09 R201 to R209). -/

namespace Sys2Proof.Machine

/-- The exact value of an element of a tag (09 R192 to R195). -/
def elemVal (t : Tag) (x : Nat) : Val :=
  match t with
  | .i32 => Val.ofInt (sext x 32)
  | .u32 => Val.ofInt x
  | .i16x2 => Val.ofInt (sext x 16)
  | .i8x4 => Val.ofInt (sext x 8)
  | .u8x4 => Val.ofInt x
  | .i64 => Val.ofInt (sext x 64)
  | .t8x4 => t8Val x
  | .t6x4 => t6Val x
  | .f32 => fF32.val x
  | .f16x2 => fF16.val x
  | .bf16x2 => fBF16.val x
  | .f64 => fF64.val x
  | _ => Val.ofInt x

/-- An integer format's bounds. -/
def intBounds : Tag → Int × Int
  | .i32 => (-(2 ^ 31 : Nat), (2 ^ 31 - 1 : Nat))
  | .u32 => (0, (2 ^ 32 - 1 : Nat))
  | .i16x2 => (-(2 ^ 15 : Nat), (2 ^ 15 - 1 : Nat))
  | .i8x4 => (-128, 127)
  | .u8x4 => (0, 255)
  | _ => (-(2 ^ 63 : Nat), (2 ^ 63 - 1 : Nat))

def isFloatTag (t : Tag) : Bool := t == .f32 || t == .f16x2 || t == .bf16x2 || t == .f64

/-- Convert(x, target, mode) (09 R203), as a pattern of the target's element width. -/
def convertTo (t : Tag) (m : RMode) (v : Val) : Nat :=
  if isFloatTag t then (fmtOf t).round m v
  else if t == .t8x4 then encodeT8 v
  else if t == .t6x4 then encodeT6 v
  else
    let (lo, hi) := intBounds t
    (v.toIntFmt m lo hi % (2 ^ (slotsOf t).1 : Nat)).toNat

/-- Tags that `CVT` converts to a target (09 Table 9-7). -/
def cvtGroup (t : Tag) : List Tag :=
  match (slotsOf t).2 with
  | 2 => [.i16x2, .f16x2, .bf16x2]
  | 4 => [.i8x4, .u8x4, .t8x4, .t6x4]
  | _ => [.i32, .u32, .f32, .i64, .f64]

/-- Convert each slot of a lane from one tag to another of the same slot count. -/
def cvtLane (src dst : Tag) (m : RMode) (x : Nat) : Nat → Nat
  | 0 => 0
  | k + 1 =>
    let ws := (slotsOf src).1
    let wd := (slotsOf dst).1
    cvtLane src dst m x k + convertTo dst m (elemVal src (fld x (ws * k) ws)) * 2 ^ (wd * k)

def execCvt (d : BitVec 6) (a : Opnd) (r : BitVec 3) (g4 : BitVec 4) (s : State) : Out :=
  s.vecOpP [a] [] d.toNat fun _ g _ =>
    let x := g.srcA a
    let x1 := g.srcA1 a
    let t := tagOf g4.toNat
    match (poisonCheck (halves (isPairTag x.tag) (x, x1))).orElse fun _ => accept (cvtGroup t) [x] with
    | some e => .error e
    | none =>
      let sp := isPairTag x.tag
      match if sp then pairsCheck [(x, x1)] none else none with
      | some e => .error e
      | none => .ok ⟨t, isPairTag t, sp, lanes32.map fun i =>
          let v := if sp then pairVal x x1 i else x.val i
          if x.tag = t then v else cvtLane x.tag t (rndMode g r.toNat) v (slotsOf t).2⟩

def execUnpack (d : BitVec 6) (a : Opnd) (j : BitVec 2) (s : State) : Out :=
  s.vecOp [a] d.toNat fun _ g _ =>
    let x := g.srcA a
    let ok : List Tag := if j.toNat < 2 then [.i16x2, .f16x2, .bf16x2, .i8x4, .u8x4, .t8x4, .t6x4]
      else [.i8x4, .u8x4, .t8x4, .t6x4]
    match (poisonCheck [x]).orElse fun _ => accept ok [x] with
    | some e => .error e
    | none =>
      let w := (slotsOf x.tag).1
      let rt : Tag := if x.tag == .i16x2 || x.tag == .i8x4 then .i32 else if x.tag == .u8x4 then .u32 else .f32
      .ok (single rt fun i => convertTo rt .rne (elemVal x.tag (fld (x.val i) (w * j.toNat) w)))

def execPack (d : BitVec 6) (a b : Opnd) (s : State) : Out :=
  s.vecOp [a, b] d.toNat fun _ g _ =>
    let x := g.srcA a
    let y := g.srcB b
    let z := g.srcD d.toNat
    match ((poisonCheck [x, y, z]).orElse fun _ => accept [.f32, .i32, .u32] [x, y]).orElse
        fun _ => accept [.i16x2, .f16x2, .bf16x2, .i8x4, .u8x4, .t8x4, .t6x4] [z] with
    | some e => .error e
    | none => .ok (single z.tag fun i =>
        let lo := convertTo z.tag g.mode (elemVal x.tag (x.val i))
        let hi := convertTo z.tag g.mode (elemVal y.tag (y.val i))
        if (slotsOf z.tag).2 = 2 then hi * 2 ^ 16 + lo else fld (z.val i) 0 16 * 2 ^ 16 + hi * 2 ^ 8 + lo)

/-- Value / scale + zero point, exact (09 R208). -/
def quantised (v : Val) (sc zp : Nat) : Val :=
  match scaleVal sc, v with
  | .fin _ q, .fin _ x =>
    if q.n = 0 then .nan
    else
      let y : Q := ⟨x.n, x.d * q.n.natAbs, x.e - q.e⟩
      let z := y.add (Q.ofInt (sext zp 8))
      .fin (decide (z.n < 0)) z
  | .fin _ q, v => if q.n = 0 then .nan else v
  | _, _ => .nan

def execCvts (d : BitVec 6) (a b : Opnd) (s : State) : Out :=
  s.vecOp [a, b] d.toNat fun _ g _ =>
    let x := g.srcA a
    let y := g.srcB b
    let z := g.srcD d.toNat
    match (((poisonCheck [x, y, z]).orElse fun _ => accept [.f32, .i32, .u32] [x]).orElse
        fun _ => accept [.none, .i32, .u32] [y]).orElse fun _ => accept [.i8x4, .u8x4, .t8x4, .t6x4] [z] with
    | some e => .error e
    | none => .ok (single z.tag fun i =>
        let q := convertTo z.tag g.mode (quantised (elemVal x.tag (x.val i)) (fld (y.val i) 0 8) (fld (y.val i) 8 8))
        fld (z.val i) 0 24 * 2 ^ 8 + q)

/-- Scale × (value − zero point), exact, then one rounding (09 R209): an exact zero is +0. -/
def dequantised (m : RMode) (v : Val) (sc zp : Nat) : Nat :=
  match scaleVal sc, v with
  | .nan, _ => fF32.nan
  | _, .nan => fF32.nan
  | .fin _ q, .inf n => if q.n = 0 then fF32.nan else fF32.inf n
  | .fin _ q, .fin _ x => fF32.round m (.fin false (q.mul (x.add (Q.ofInt (-(sext zp 8))))))
  | .inf _, _ => fF32.nan

def execDeq (d : BitVec 6) (a b : Opnd) (s : State) : Out :=
  s.vecOp [a, b] d.toNat fun _ g _ =>
    let x := g.srcA a
    let y := g.srcB b
    match ((poisonCheck [x, y]).orElse fun _ => accept [.f32, .i32, .u32] [x]).orElse
        fun _ => accept [.none, .i32, .u32] [y] with
    | some e => .error e
    | none => .ok (single .f32 fun i =>
        dequantised g.mode (elemVal x.tag (x.val i)) (fld (y.val i) 0 8) (fld (y.val i) 8 8))

end Sys2Proof.Machine
end

