-- ==== Sys2Proof/Machine/Send.lean ====
section
/-! DEFINITION. The fabric requester of a core (05 R108, R112 to R115, R118): resolving a virtual device number, forming and
sealing a packet, and the order in which a gang's packets may leave. -/

namespace Sys2Proof.Machine

/-- Where a virtual device number leads (05 Table 5-3). -/
structure Dest where
  dev : Nat
  func : Nat
  kslot : Nat
  gen : Nat
deriving DecidableEq, Repr

/-- Address of entry `v` of a function's part of the virtual-device table (05 R112, 16 R371). -/
def State.vdnAddr (s : State) (func v : Nat) : Nat :=
  fld s.vdntab.toNat 15 37 * 32768 + 8 * ((s.func func).cfg.vbase + v)

/-- Resolve a virtual device number (05 R112): an unusable entry faults VDN_INVALID with the number as detail. -/
def State.resolve (s : State) (func v : Nat) : Except Flt Dest :=
  if (s.func func).cfg.vlimit ≤ v then .error ⟨.vdnInvalid, v⟩
  else
    let a := s.vdnAddr func v
    if s.homePoison (sectorOf a) then .error ⟨.uncorrData, 0⟩
    else
      let e := leNat (s.homeRead a 8)
      let x := fld e 4 4
      let y := fld e 8 4
      if fld e 0 1 = 0 || !zeroBits e 32 32 || !zeroBits e 1 3 || decide (s.gridW ≤ x) || decide (s.gridH ≤ y) then
        .error ⟨.vdnInvalid, v⟩
      else .ok ⟨16 * y + x, fld e 12 6, fld e 18 6, fld e 24 8⟩

/-- A packet to a destination, before it is sealed and numbered. -/
def Dest.packet (d : Dest) (kind : PktKind) (gpa size : Nat) (data : BitVec 128) : Packet where
  kind := kind
  src := 0
  core := 0
  req := 0
  dst := d.dev
  func := d.func
  kslot := d.kslot
  gen := d.gen
  key := none
  nonce := 0
  age := 0
  chan := .minimal
  via := none
  gpa := gpa
  size := size
  data := data
  cmp := 0
  op := 0
  rtype := 0
  wide := false
  scope := 0
  launch := 0
  team := 0
  gang := 0
  lane := 0
  seg := 0
  count := 0
  group := 0
  poison := false

def State.keyOf (s : State) (slot : Nat) : Option (BitVec 256) := (s.keys.find? (·.1 == slot)).map (·.2)

/-- The next nonce of a key slot (05 R115): the source device, the slot there and the slot's count. -/
def State.takeNonce (s : State) (slot : Nat) : Nat × State :=
  let n := ((s.nonces.find? (·.1 == slot)).map (·.2)).getD 0
  (s.device * 2 ^ 88 + slot * 2 ^ 82 + n, { s with nonces := putBy (·.1 == slot) (slot, n + 1) s.nonces })

/-- Seal a packet under the key of the issuing function's slot, with the slot's next nonce (05 R115). -/
def State.seal (s : State) (func : Nat) (p : Packet) : Packet × State :=
  let slot := (s.func func).cfg.kslot
  let (n, s1) := s.takeNonce slot
  ({ p with key := s.keyOf slot, nonce := n, age := 0, chan := .minimal, via := none, src := s.device }, s1)

/-- Is a later request of a gang behind an earlier one (05 R118, R114)? Accesses of a gang to one sector, at least one of them a
store, go in program order; so do stores of a stream that were formed under different generations. -/
def FabReq.behind (r q : FabReq) : Bool :=
  let rs := Sys2Proof.Machine.PktKind.isStore r.pkt.kind
  let qs := Sys2Proof.Machine.PktKind.isStore q.pkt.kind
  decide (q.id < r.id) && r.gang?.isSome && r.gang? == q.gang? &&
  ((q.pkt.dst == r.pkt.dst && q.pkt.func == r.pkt.func && q.pkt.gpa / 32 == r.pkt.gpa / 32 && (rs || qs) &&
    !(r.pkt.kind == .rstrel && q.pkt.kind == .rstrel && q.pkt.seg == r.pkt.seg)) ||
   (rs && qs && q.vdn == r.vdn && q.pkt.gen != r.pkt.gen))

/-- Send a packet for `owner` from a core: it holds a requester entry until its reply (05 R108). `issue` numbers the instruction it
belongs to (0 where that is nothing to its gang), and `ty` is the type of its page. -/
def State.send (s : State) (core : Nat) (owner : ReqOwner) (issue : Nat) (ty : PType) (func vdn : Nat) (p : Packet) : Nat × State :=
  let (id, s1) := s.take
  let (p1, s2) := s1.seal func { p with core := core, req := id }
  let r : FabReq := ⟨id, owner, issue, ty, func, vdn, p1, 0, false, s2.now, none, false⟩
  let held := (s2.core core).reqs.any fun q => r.behind q
  let s3 := s2.modCore core fun c => { c with reqs := c.reqs ++ [{ r with held := held }] }
  (id, if held then s3 else { s3 with router := s3.router ++ [p1] })

/-- Held packets that are behind nothing any more leave, oldest first. -/
def State.sendHeld (s : State) (core : Nat) : State :=
  let rs := (s.core core).reqs
  let go := rs.filter fun r => r.held && !rs.any fun q => r.behind q
  { s.modCore core fun c =>
      { c with reqs := c.reqs.map fun r => if go.any (·.id == r.id) then { r with held := false, sentAt := s.now } else r }
    with router := s.router ++ go.map (·.pkt) }

/-- Room in a core's requester (05 R108). -/
def State.reqRoom (s : State) (core : Nat) : Bool := decide ((s.core core).reqs.length < Config.requesters)

/-- A gang's stream to a target. -/
def Gang.stream (g : Gang) (dev func : Nat) : Stream :=
  (g.streams.find? fun x => x.dev == dev && x.func == func).getD ⟨dev, func, 0, 0, 0, []⟩
def Gang.putStream (g : Gang) (x : Stream) : Gang :=
  { g with streams := putBy (fun y => y.dev == x.dev && y.func == x.func) x g.streams }

/-- A packet that counts in the N of a later `RSTREL` (05 R119, R124). -/
def counted (k : PktKind) : Bool := Sys2Proof.Machine.PktKind.isStore k && k != .rstrel && k != .rstarv

/-- No later read takes the answer of a read that a core already has under way to a sector of a peer: a store to that sector has left
or been performed since (05 R118). -/
def State.shutReads (s : State) (core dev func sec : Nat) : State :=
  let there (x : MissSlot) : Bool := x.peer == some (dev, func) && (match x.tgt with
    | .peer _ g => g / 32 == sec
    | _ => false)
  s.modCore core fun c => { c with slots := modIf there (fun x => { x with shut := true }) c.slots }

/-- A fabric store of a gang (05 R118): it counts in its segment and commits the team (04 R84). -/
def State.sendStore (s : State) (l t gi : Nat) (owner : ReqOwner) (issue : Nat) (ty : PType) (vdn : Nat) (p : Packet) : Nat × State :=
  let x := ((s.gang? l t gi).map (·.stream p.dst p.func)).getD ⟨p.dst, p.func, 0, 0, vdn, []⟩
  let s1 := if counted p.kind then s.modGang l t gi (·.putStream { x with sent := x.sent + 1, vdn := vdn }) else s
  ((s1.commit l t).shutReads (s.coreOf l t) p.dst p.func (p.gpa / 32)).send (s.coreOf l t) owner issue ty (s.funcOf l t) vdn
    { p with launch := l, team := t, gang := gi, seg := if p.kind = .rstrel then p.seg else x.seg }

/-- The segments of a stream that its source has left open: the current one if it has sent packets in it, and those whose `RSTREL` is
not acknowledged. -/
def Stream.openSegs (y : Stream) : List Nat := y.rel ++ (if y.sent = 0 then [] else [y.seg])

/-- Segments that a team's end has still to close. -/
def Team.openSegs (x : Team) : Nat := (x.gangs.map fun g => (g.streams.map fun y => y.openSegs.length).sum).sum

/-- The stream once a segment of it is closed. -/
def Stream.closed (y : Stream) (k : Nat) : Stream :=
  if y.rel.contains k then { y with rel := y.rel.filter (· != k) } else { y with sent := 0, seg := (y.seg + 1) % 256 }

/-- Close a segment of a gang's stream. A target that the virtual device number no longer names gets no packet. -/
def State.closeSegment (s : State) (x : Team) (gi : Nat) (y : Stream) (k : Nat) : State :=
  let s1 := match s.resolve x.func y.vdn with
    | .error _ => s
    | .ok d =>
      (s.send x.core (.store x.launch x.num gi 0 0 0) 0 .rel x.func y.vdn
        { ({ d with dev := y.dev, func := y.func } : Dest).packet .close 0 0 0 with launch := x.launch, team := x.num, gang := gi, seg := k }).2
  s1.modGang x.launch x.num gi fun g => g.putStream ((g.stream y.dev y.func).closed k)

/-- When a team ends, the source closes every segment that its gangs left open, one whose `RSTREL` the target still holds among them
(05 R120), as the requester has room. -/
def State.closeStreams (s : State) (l t : Nat) : State :=
  match s.team? l t with
  | none => s
  | some x => x.gangs.foldl (fun s g => g.streams.foldl (fun s y => y.openSegs.foldl (fun s k =>
      if s.reqRoom x.core then s.closeSegment x g.idx y k else s) s) s) s

/-! ### Reads of the scheduler and of a team's end through a peer window (06 R147, 13 R307) -/

/-- Guest sectors of an access. -/
def sectorsOf (va n : Nat) : List Nat := rangeFrom (va / 32) ((va + n - 1) / 32 + 1 - va / 32)

/-- The bytes that a reader has had from a peer, with their mark; none while a sector of them is missing. -/
def State.fetchedBytes (s : State) (who : Waiter) (va n : Nat) : Option (List Byte × Bool) :=
  let got := (sectorsOf va n).map fun k => s.fetched.find? fun x => x.who == who && x.sector == k
  if got.all Option.isSome then
    let xs := got.filterMap id
    some (((xs.flatMap fun x => leBytes x.data.toNat 32).drop (va % 32)).take n, xs.any (·.poison))
  else none

/-- Ask a peer for the sectors that are missing and not yet asked for. -/
def State.askPeer (s : State) (core func : Nat) (who : Waiter) (ty : PType) (va gpa n v : Nat) (d : Dest) : State :=
  (sectorsOf va n).foldl (fun s k =>
    if s.fetched.any (fun x => x.who == who && x.sector == k) || (s.core core).reqs.any (fun r => r.owner == .fetch who k) ||
       !s.reqRoom core then s
    else (s.send core (.fetch who k) 0 ty func v (d.packet .read (gpa / 32 * 32 + 32 * (k - va / 32)) 32 0)).2) s

/-- What a reader fetched serves one packet or list; the next is read anew. -/
def State.dropFetched (s : State) (who : Waiter) : State := { s with fetched := s.fetched.filter fun x => x.who != who }

end Sys2Proof.Machine
end

