-- ==== Sys2Proof/Machine/Tiles.lean ====
section
/-! DEFINITION. Tile descriptors and thread access to tiles, presence control (07 R160, R167 to R170). -/

namespace Sys2Proof.Machine

def W32tags : List Tag := [.i32, .u32, .none]

/-- An instruction of chapter 7 that names tile register t: a t at or above the declared count faults ILL_ENC on the whole
entry (07 R167); an instruction with no active lanes is otherwise ignored, elements of its operation counting as done. -/
def State.withTile (s : State) (k : Nat) (f : Cur → Team → Gang → State) : Out :=
  s.withCur fun c t g =>
    if t.tiles ≤ k then s.illField c
    else if c.mask = 0 then
      match g.resumeOf c.eid, g.entry? c.eid with
      | some id, some e => (s.modGang c.launch c.team c.gang fun g => g.modOp id (·.forgo e.mask 0)).advance c
      | _, _ => s.advance c
    else s.afterAcq c g (f c t g)

def execTdef (d : BitVec 6) (a : Opnd) (s : State) : Out :=
  s.withTile d.toNat fun c _ g =>
    let v : BitVec 128 := (g.uni (a.reg.toNat + 1)) ++ (g.uniOp a)
    if badDesc v then s.illValue c
    else
      let g1 := g.freeLastS a []
      s.putGang c.launch c.team c.gang ({ g1 with tregs := setAt g1.tregs d.toNat v }.advance c)

/-! ### Lane access (07 R169) -/

/-- Fault of a lane's extent offset. -/
def Desc.laneFault (d : Desc) (h : Team) (x n : Nat) : Option Flt :=
  if x % n ≠ 0 then some ⟨.misalign, x⟩
  else if decide (d.extent < x + n) || d.outside h then some ⟨.bufBound, x⟩
  else none

/-- A tile access of the active lanes: rights, lane faults, then the wait on the tiles of a reader; `go` takes the descriptor,
the team that holds the tiles and the live lanes with their offsets. -/
def State.tileAccess (s : State) (c : Cur) (t : Team) (g : Gang) (k n : Nat) (a : Opnd) (data : List Src) (bufs : List Buf)
    (waits : Bool) (onWait : State → State) (onFault : State → State)
    (go : State → Desc → Team → List (Nat × Nat) → State) : State :=
  let x := g.srcA a
  match (poisonCheck (x :: data)).orElse fun _ => accept W32tags [x] with
  | some (.ill d) => onFault (s.illValue c d)
  | some (.flt f) => onFault (s.raiseAll c f)
  | none =>
    let d := descOf (g.treg k)
    match (if bufs.contains d.buf then s.holder t d else none) with
    | none => onFault (s.raiseAll c ⟨.bufRights, 0⟩)
    | some h =>
      let lanes := lanesOf c.mask
      let bad := lanes.filterMap fun i => (d.laneFault h (x.val i) n).map fun f => (i, f)
      let live := (lanes.filter fun i => (d.laneFault h (x.val i) n).isNone).map fun i => (i, x.val i)
      let s1 := s.raiseLanes c bad
      if live.isEmpty then onFault (s1.advance c)
      else
        let tiles := live.map fun y => d.tile h ((d.base * tileSize d.buf + y.2) / tileSize d.buf)
        let need := tiles.foldl (fun l y => insertNat y l) []
        match (if waits then need.find? fun y => s1.tileEmpty h.core d.buf y else none) with
        | some y => onWait (s1.waitTile c h.core d.buf y)
        | none => go s1 d h live

/-- What a lane reads of a tile: its bytes and whether one is marked. -/
def State.tileRead (s : State) (d : Desc) (h : Team) (x n : Nat) : BitVec 128 × Bool :=
  let b := (s.core h.core).buf d.buf
  let p := d.phys h (d.place x)
  (BitVec.ofNat 128 (leNat (b.get p n)), b.marked p n)

/-- The loaded gang: every live lane's data and the tag, POISON when a lane read a marked byte. -/
def Gang.tileLoaded (g : Gang) (s : State) (dst w etag : Nat) (d : Desc) (h : Team) (live : List (Nat × Nat)) : Gang :=
  let val (i : Nat) : BitVec 128 × Bool :=
    match live.find? (·.1 == i) with
    | some y => s.tileRead d h y.2 (widthBytes w)
    | none => (0, false)
  let bad := live.any fun y => (val y.1).2
  g.putLoad dst w (maskOf (live.map (·.1))) (if bad then .poison else loadTag w etag) fun i => (val i).1

/-- A load that finishes at issue: `TLD` from the own core, `TLDC`, `SCLD`. -/
def State.tileLoad (s : State) (dst w k : Nat) (a : Opnd) (bufs : List Buf) (etag : Desc → Nat) (consume : Bool) : Out :=
  s.withTile k fun c t g =>
    s.tileAccess c t g k (widthBytes w) a [] bufs true id id fun s1 d h live =>
      match s1.gang? c.launch c.team c.gang with
      | none => s1
      | some g0 =>
        let regs := (rangeFrom 0 (widthRegs w)).map (dst + ·)
        let g1 := (g0.freeLast [a] regs).tileLoaded s1 dst w (etag d) d h live
        match (s1.core t.core).room g0 (g1.unlend .write c.eid).settle with
        | .wait uni n => s1.waitRegs c uni n
        | .ok =>
          let tiles := (live.map fun y => d.tile h ((d.base * tileSize d.buf + y.2) / tileSize d.buf)).foldl
            (fun l y => insertNat y l) []
          let s2 := if consume then tiles.foldl (fun s y => s.tileConsume h.core d.buf y) s1 else s1
          if consume then s2.commitRegion c g0 g1 else s2.commitGang c g0 g1

/-- Stage the live lanes' data of a memory-return tile load; lanes that faulted count as done. -/
def State.stage (s : State) (c : Cur) (id : Nat) (d : Desc) (h : Team) (w : Nat) (live : List (Nat × Nat)) (a : Opnd) : State :=
  (s.modGang c.launch c.team c.gang fun g =>
    (g.freeLast [a] []).modOp id fun o => o.mapElems fun e =>
      if !e.open_ || !c.mask.getLsbD e.lane then e
      else match live.find? (·.1 == e.lane) with
        | some y => { e with st := .done, data := (s.tileRead d h y.2 (widthBytes w)).1
                             poison := (s.tileRead d h y.2 (widthBytes w)).2 }
        | none => { e with st := .ended }).advance c

/-- A sibling `TLD` (07 R169): memory-return. Its operation is made at the first issue and counts setA; a wait on a tile keeps
it; the data is staged and written when the operation completes. -/
def State.tileLoadSibling (s : State) (dst w k : Nat) (f4 : BitVec 4) (a : Opnd) : Out :=
  s.withTile k fun c t g =>
    let flag := g.setAOf c.eid
    match g.resumeOf c.eid with
    | none =>
      if g.flagFull flag then s.stall c (.flagFull flag)
      else
        let (id, s0) := s.take
        let elems := (lanesOf c.mask).map fun i =>
          Elem.mk i c.seq 0 .pending none 0 0 0 false
        let op := g.newOp c id (.tld f4 (g.treg k)) flag dst 0 .none elems
        let s1 := s0.modGang c.launch c.team c.gang fun g => { g.flagUp flag with ops := g.ops ++ [op] }
        let dead (s : State) : State :=
          (s.modGang c.launch c.team c.gang fun g =>
            if (g.op? id).isSome then (g.dropOp id).flagDown flag else g).endGang c.launch c.team c.gang
        s1.tileAccess c t g k (widthBytes w) a [] [.wb, .ab] true
          (fun s => s.modEntry c.launch c.team c.gang c.eid fun e => { e with resume := .op id }) dead
          fun s2 d h live => s2.stage c id d h w live a
    | some id =>
      match g.entry? c.eid with
      | none => s
      | some e =>
        let s1 := s.modGang c.launch c.team c.gang fun g => g.modOp id (·.forgo e.mask c.mask)
        s1.tileAccess c t g k (widthBytes w) a [] [.wb, .ab] true
          (fun s => s.modEntry c.launch c.team c.gang c.eid fun e => { e with resume := .op id })
          (fun s => s.modGang c.launch c.team c.gang fun g => g.modOp id (·.forgo c.mask 0))
          fun s2 d h live => s2.stage c id d h w live a

def execTld (d : BitVec 6) (t f : BitVec 4) (a : Opnd) (s : State) : Out :=
  let sib : Bool := match s.cur with
    | some c => ((s.gang? c.launch c.team c.gang).map fun g => (descOf (g.treg t.toNat)).sib).getD false
    | none => false
  if sib then s.tileLoadSibling d.toNat f.toNat t.toNat f a
  else s.tileLoad d.toNat f.toNat t.toNat a [.wb, .ab] (·.tag) false
def execTldc (d : BitVec 6) (t f : BitVec 4) (a : Opnd) (s : State) : Out :=
  s.tileLoad d.toNat f.toNat t.toNat a [.wb, .ab] (·.tag) true
def execScld (d : BitVec 6) (t : BitVec 4) (a : Opnd) (s : State) : Out :=
  s.tileLoad d.toNat 3 t.toNat a [.sb] (fun _ => 0) false

def execTst (d : BitVec 6) (t f : BitVec 4) (a : Opnd) (s : State) : Out :=
  let w := f.toNat
  s.withTile t.toNat fun c tm g =>
    s.tileAccess c tm g t.toNat (widthBytes w) a (g.dataRegs d.toNat w) [.wb, .ab] false id id fun s1 k h live =>
      let s2 := live.foldl (fun s y =>
        s.modBuf h.core k.buf fun b =>
          b.put (k.phys h (k.place y.2)) (leBytes (g.storeData d.toNat w y.1).toNat (widthBytes w)) false) s1
      match s2.gang? c.launch c.team c.gang with
      | none => s2
      | some g1 => s2.putGang c.launch c.team c.gang ((g1.freeLast [a] []).advance c)

/-! ### Presence control (07 R170) -/

/-- Act once for the gang on the tile set of the descriptor in tK. -/
def State.tileSet (s : State) (k : Nat) (bufs : List Buf) (go : Cur → Team → Gang → Desc → Team → State) : Out :=
  s.withTile k fun c t g =>
    let d := descOf (g.treg k)
    match (if bufs.contains d.buf then s.holder t d else none) with
    | none => s.raiseAll c ⟨.bufRights, 0⟩
    | some h => if d.outside h then s.raiseAll c ⟨.bufBound, 0⟩ else go c t g d h

def allBufs : List Buf := [.wb, .ab, .cb, .sb]

def execTarm (t : BitVec 4) (a : Opnd) (s : State) : Out :=
  s.tileSet t.toNat allBufs fun c _ g d h =>
    let v := (g.uniOp a).toNat
    let s1 := d.set.foldl (fun s k => s.modTile h.core d.buf (d.tile h k) fun _ => .arm (fld v 0 20) (fld v 20 8)) s
    (s1.putGang c.launch c.team c.gang (g.freeLastS a [])).advanceRegion c

def execTwait (t : BitVec 4) (s : State) : Out :=
  s.tileSet t.toNat allBufs fun c _ _ d h =>
    match d.set.find? fun k => s.tileEmpty h.core d.buf (d.tile h k) with
    | some k => s.waitTile c h.core d.buf (d.tile h k)
    | none => s.advance c

def execTtest (dst : BitVec 6) (t : BitVec 4) (s : State) : Out :=
  s.tileSet t.toNat allBufs fun c _ g d h =>
    let w := (((s.core h.core).buf d.buf).presence (d.tile h d.base)).word
    let n := (d.set.filter fun k => !(s.tileEmpty h.core d.buf (d.tile h k))).length
    s.commitGang c g (g.putS dst.toNat (BitVec.ofNat 64 (w + n * 2 ^ 32)))

def execTclr (t : BitVec 4) (s : State) : Out :=
  s.tileSet t.toNat allBufs fun c _ _ d h =>
    (d.set.foldl (fun s k => s.modTile h.core d.buf (d.tile h k) fun _ => .disarmed) s).advanceRegion c

/-- The bytes of a row, cut into runs that lie together in the buffer: (extent offset, bytes). -/
def cutRow (x : Nat) (bytes : List Byte) : List (Nat × List Byte) := splitSectors x bytes

/-- A pattern repeated from its byte 0 over `n` bytes. -/
def repeatWord (v : Nat) (n : Nat) : List Byte := (rangeFrom 0 n).map fun i => BitVec.ofNat 8 (v / 2 ^ (8 * (i % 4)))

def execTfill (t : BitVec 4) (a : Opnd) (s : State) : Out :=
  s.tileSet t.toNat [.wb, .ab] fun c _ g d h =>
    let n := d.cols * elemSize d.tag
    let v := fld (g.uniOp a).toNat 0 32
    let row (s : State) (r : Nat) : State :=
      let x := r * d.pitch
      let s1 := (cutRow x (repeatWord v n)).foldl (fun s y =>
        s.modBuf h.core d.buf fun b => b.put (d.phys h (d.place y.1)) y.2 false) s
      -- one arrival for each tile the row touches
      let base := d.base * tileSize d.buf
      let tiles := if n = 0 then [] else
        rangeFrom ((base + x) / tileSize d.buf) ((base + x + n - 1) / tileSize d.buf + 1 - (base + x) / tileSize d.buf)
      tiles.foldl (fun s k =>
        let lo := max (base + x) (k * tileSize d.buf)
        let hi := min (base + x + n) ((k + 1) * tileSize d.buf)
        s.tileArrive h.core d.buf (d.tile h k) (hi - lo)) s1
    let s1 := (rangeFrom 0 d.rows).foldl row s
    (s1.putGang c.launch c.team c.gang (g.freeLastS a [])).advanceRegion c

def execTzero (t : BitVec 4) (s : State) : Out :=
  s.tileSet t.toNat [.wb, .ab] fun c _ _ d h =>
    let runs := cutRow 0 (List.replicate d.extent 0)
    (runs.foldl (fun s y => s.modBuf h.core d.buf fun b => b.put (d.phys h (d.place y.1)) y.2 false) s).advance c

end Sys2Proof.Machine
end

