-- ==== Sys2Proof/Machine/Mem.lean ====
section
/-! DEFINITION. Global loads, stores and atomics (chapter 04): the checks of a lane, the path of each access, translation of the
lanes and their parking, store queues, and the completion of memory-return instructions. -/

namespace Sys2Proof.Machine

/-! ### Checks (04 R87, R88, 12 R265) -/

/-- What an access is, for the checks. -/
inductive Use where
  | load | store | ldacq | strel | atomic (scope : Nat) | maint | rstrel | rstarv | rfence
deriving DecidableEq, Repr

def Use.need : Use → Need
  | .load => .read
  | .ldacq => .read
  | .maint => .read
  | .atomic _ => .rw
  | _ => .write
def Use.access (u : Use) (n : Nat) : Access :=
  match u with
  | .atomic _ => .atomic
  | _ => .thread n

def StKind.use : StKind → Use
  | .st _ => .store
  | .strel _ => .strel
  | .atomr _ sc _ => .atomic sc.toNat
  | .rstrel _ => .rstrel
  | .rstarv _ => .rstarv
def StKind.size : StKind → Nat
  | .st n => n
  | .strel _ => 4
  | .atomr _ _ w => if w then 8 else 4
  | .rstrel n => n
  | .rstarv n => n
def OpKind.use : OpKind → Use
  | .ld _ => .load
  | .ldacq _ => .ldacq
  | .sld _ => .load
  | .atom _ sc _ => .atomic sc.toNat
  | .cas sc _ => .atomic sc.toNat
  | .tld _ _ => .load
  | .maint _ => .maint
  | .store k => k.use
  | .rfence _ _ _ => .rfence
def OpKind.size : OpKind → Nat
  | .ld w => widthBytes w.toNat
  | .sld w => widthBytes w.toNat
  | .atom _ _ w => if w then 8 else 4
  | .cas _ w => if w then 8 else 4
  | .maint _ => 1
  | .store k => k.size
  | .rfence n _ _ => n
  | _ => 4

def Tgt.isPeer : Tgt → Bool
  | .peer _ _ => true
  | _ => false

/-- Operations by ordering type (04 Table 4-4, 12 Table 12-3). -/
def typeAllows (u : Use) (ty : PType) (t : Tgt) : Bool :=
  let rs := ty == .rel || ty == .seq
  match u with
  | .load => rs || !t.isPeer
  | .store => ty != .priv || !t.isPeer
  | .ldacq => rs || (ty == .once && !t.isPeer)
  | .strel => rs
  | .atomic sc => rs || (ty == .priv && decide (sc ≤ 1) && (match t with
      | .mem _ => true
      | _ => false))
  | .maint => true
  | .rstrel => ty == .rel
  | .rstarv => ty == .rel || ty == .once
  | .rfence => rs

/-- Kinds of target that the fabric's own instructions ask for (05 R123, R126). -/
def kindFor (u : Use) (t : Tgt) : Bool :=
  match u, t with
  | .rstrel, .peer _ _ => true
  | .rstrel, _ => false
  | .rfence, .peer _ _ => true
  | .rfence, _ => false
  | .rstarv, .peer _ _ => true
  | .rstarv, .buf _ _ _ _ => true
  | .rstarv, _ => false
  | _, _ => true

/-- Check 8 (06 R137): the lock of a copy of the same function on the same core that the access breaks. Addresses count modulo 2^64
(06 R130). A maintenance instruction touches its whole line. -/
def State.lockHit (s : State) (core func : Nat) (u : Use) (va n : Nat) : Option Lock :=
  let lo := if u == .maint then va / 128 * 128 else va
  let len := if u == .maint then 128 else n
  let writes := match u with
    | .load => false
    | .ldacq => false
    | .maint => false
    | _ => true
  (s.core core).locks.find? fun k =>
    k.func == func && (k.dest || writes) &&
    (if k.cpyt then k.sectors.any fun x => decide (32 * x < lo + len) && decide (lo < 32 * x + 32)
     else decide ((lo + 2 ^ 64 - k.lo) % 2 ^ 64 < k.hi - k.lo) || decide ((k.lo + 2 ^ 64 - lo) % 2 ^ 64 < len && k.lo < k.hi))

/-- A fault of a lane: the copy's cookie stands in the word field of a RANGE_LOCK record (14 Table 14-2). -/
structure LaneFlt where
  flt : Flt
  cookie : Option W32
deriving DecidableEq, Repr

/-- Checks after the leaves (04 Table 4-3): the rest of 5, then 6, 7 and 8. -/
def State.checkTail (s : State) (core func : Nat) (u : Use) (va n : Nat) (t : Trans) : Option LaneFlt :=
  let vdn : Option Flt := match t.tgt with
    | .peer v _ => (match s.resolve func v with
      | .error f => some f
      | .ok _ => none)
    | _ => none
  let window : Option Flt := match t.tgt with
    | .buf _ b off sliceEnd =>
      if b != .ab then some ⟨.bufRights, 0⟩
      else if decide (sliceEnd < off + n) || decide (bufSize .ab < off + n) then some ⟨.bufBound, 0⟩ else none
    | _ => none
  if !kindFor u t.tgt then some ⟨⟨.perm, 5⟩, none⟩
  else
    match vdn with
    | some f => some ⟨f, none⟩
    | none =>
      if !typeAllows u t.ty t.tgt then some ⟨⟨.typeOp, 0⟩, none⟩
      else
        match window with
        | some f => some ⟨f, none⟩
        | none => (s.lockHit core func u va n).map fun k => ⟨⟨.rangeLock, va⟩, some k.cookie⟩

/-- What the checks 3 to 8 say of a lane. -/
inductive Verdict where
  | ok (t : Trans)
  | flt (f : LaneFlt)
  | walk
deriving DecidableEq, Repr

def State.verdict (s : State) (core func : Nat) (u : Use) (va n : Nat) : Verdict :=
  let a := BitVec.ofNat 64 va
  if !addrOk a then .flt ⟨⟨.perm, 6⟩, none⟩
  else if va % n ≠ 0 then .flt ⟨⟨.misalign, va⟩, none⟩
  else
    match s.lookup core func (gvaOf a) u.need (u.access n) with
    | none => .walk
    | some (.error f) => .flt ⟨f, none⟩
    | some (.ok t) =>
      match s.checkTail core func u va n t with
      | some f => .flt f
      | none => .ok t

/-! ### Lanes of an operation -/

/-- Where an element's translation leads. -/
def Elem.tgt? (e : Elem) : Option Tgt := e.trans.map Trans.tgt

/-- Is an element one of the entry's lanes? -/
def MemOp.inMask (o : MemOp) (m : Mask) (e : Elem) : Bool := o.lanesOf e &&& m != 0

def State.modElem (s : State) (l t gi id lane : Nat) (f : Elem → Elem) : State :=
  s.modGang l t gi fun g => g.modOp id fun o => o.mapElems fun e => if e.lane == lane then f e else e

/-- Lanes of an operation take faults and end. The lanes that take one fault together share one record, which has the operation's
address and word (log 72). -/
def State.elemFaults (s : State) (l t gi id : Nat) (fs : List (Nat × LaneFlt)) (flags : Nat := 0) : State :=
  match (s.gang? l t gi).bind (·.op? id) with
  | none => s
  | some o =>
    let maskOf (f : LaneFlt) : Mask := (fs.filter (·.2 == f)).foldl (fun m x =>
      m ||| ((o.elems.find? (·.lane == x.1)).map o.lanesOf).getD 0) 0
    let s1 := fs.foldl (fun s x => s.modElem l t gi id x.1 fun e => { e with st := .ended }) s
    (fs.map (·.2)).eraseDups.foldl (fun s f =>
      s.raiseAt l t gi (maskOf f) f.flt.code f.flt.detail o.pc (f.cookie.getD o.word) 255 flags) s1

/-- One element of an operation takes a fault. -/
def State.elemFault (s : State) (l t gi id lane : Nat) (f : LaneFlt) (flags : Nat := 0) : State :=
  s.elemFaults l t gi id [(lane, f)] flags

/-- Elements with a fault of their own: launch, team, gang, operation, then lane and fault. -/
abbrev ElemFlt := (Nat × Nat × Nat × Nat) × Nat × LaneFlt

/-- Elements of several operations take their faults, each operation's together. -/
def State.elemFaultsOf (s : State) (fs : List ElemFlt) (flags : Nat := 0) : State :=
  (fs.map (·.1)).eraseDups.foldl (fun s k =>
    s.elemFaults k.1 k.2.1 k.2.2.1 k.2.2.2 ((fs.filter (·.1 == k)).map (·.2)) flags) s

/-- A miss of an element: it waits on the page request, and its lanes leave their entry and park (04 R101, 19 R376). -/
def State.elemMiss (s : State) (l t gi id lane : Nat) (f : Flt) (need : Need) (va : Nat) : State :=
  let (req, s1) := s.pageMiss (s.funcOf l t) f ⟨.op l t gi id lane, need, va⟩
  let s2 := s1.modElem l t gi id lane fun e => { e with st := .parked req.1 req.2 }
  match (s2.gang? l t gi).bind (·.op? id) with
  | none => s2
  | some o =>
    match o.elems.find? (·.lane == lane) with
    | none => s2
    | some e => s2.parkOp l t gi o (o.lanesOf e) req

/-! ### Bytes as a lane of a core sees them (04 Table 4-2, R81, 12 R260) -/

/-- The place of byte `i` of an access. Device memory is named by its system address, so that two mappings of a frame are one place; a
peer's memory by target device, target function and guest physical address there (12 R260). -/
def State.placeOf (s : State) (func : Nat) (t : Tgt) (i : Nat) : Tgt :=
  match t with
  | .mem a => .mem (a + i)
  | .host a => .host (a + i)
  | .buf k b off _ => .buf k b (off + i) 0
  | .notify page off => .notify page (off + i)
  | .peer v gpa =>
    (match s.resolve func v with
     | .ok d => .peer (d.dev * 64 + d.func) (gpa + i)
     | .error _ => .peer (16384 + v) (gpa + i))

/-- A queued entry whose bytes a younger load of the gang may take: all but an `ATOMR`, whose result is not known yet. -/
def StqEntry.forwards (x : StqEntry) : Bool :=
  match x.kind with
  | .atomr _ _ _ => false
  | _ => true

/-- The newest byte that the gang's own queue holds for a place, among entries before `seq`: later entries win, and within an entry
higher lanes (R81). `some none` stands for a byte that an `ATOMR` will leave there. -/
def State.forward (s : State) (func : Nat) (g : Gang) (seq : Nat) (p : Tgt) : Option (Option Byte) :=
  (g.stq.filter fun x => decide (x.seq < seq)).foldl (fun acc x =>
    x.elems.foldl (fun acc e =>
      match e.tgt? with
      | none => acc
      | some t =>
        if !e.open_ then acc
        else
          match (rangeFrom 0 x.kind.size).find? fun j => s.placeOf func t j == p with
          | none => acc
          | some j => some (if x.forwards then some (e.src.extractLsb' (8 * j) 8) else none)) acc) none

/-- What the gang's own queue holds for each byte of an access. -/
def State.ownBytes (s : State) (func : Nat) (g : Gang) (seq n : Nat) (t : Tgt) : List (Option (Option Byte)) :=
  (rangeFrom 0 n).map fun i => s.forward func g seq (s.placeOf func t i)

/-- Does a peer store of the gang's own queue, before `seq`, go to the sector of a peer access (05 R118)? -/
def State.queuedTo (s : State) (func : Nat) (g : Gang) (seq : Nat) (t : Tgt) : Bool :=
  let sec (t : Tgt) : Option (Nat × Nat) := match s.placeOf func t 0 with
    | .peer k a => some (k, a / 32)
    | _ => none
  g.stq.any fun x => decide (x.seq < seq) && x.elems.any fun e =>
    e.open_ && (match e.tgt? with
      | some u => (sec u).isSome && sec u == sec t
      | none => false)

/-- Bytes of an access, those of the own queue first. -/
def overlay (fw : List (Option (Option Byte))) (rest : List Byte) : List Byte :=
  fw.mapIdx fun i x => (x.join).getD (rest.getD i 0)

/-- Bytes of device memory below the own queue: those valid in the core cache, the rest as the home serves them; and whether one that
is not forwarded is poisoned. -/
def State.memBytes (s : State) (core : Nat) (fw : List (Option (Option Byte))) (a : Nat) : List Byte × Bool :=
  let c := s.core core
  let ks := rangeFrom 0 fw.length
  (ks.map fun i => if c.holds (a + i) 1 then (c.cacheRead (a + i) 1).getD 0 0 else s.homeGet (a + i),
   ks.any fun i => ((fw.getD i none).join).isNone && (if c.holds (a + i) 1 then c.cachePoison (a + i) else s.homePoison (sectorOf (a + i))))

def packBytes (l : List Byte) : BitVec 128 := BitVec.ofNat 128 (leNat l)

/-- Bytes of host memory (03 R55): free values, since the host is outside the machine (log 4). -/
def State.hostRead (s : State) (pa n : Nat) : List Byte × State :=
  ((rangeFrom pa n).map fun a => Config.hostByte a s.free, { s with free := s.free + 1 })

/-- A load through a window to AB (04 R80): the bytes now, with their marks; no presence record matters. -/
def State.windowRead (s : State) (core : Nat) (b : Buf) (off n : Nat) : List Byte × Bool :=
  let x := (s.core core).buf b
  (x.get off n, x.marked off n)

/-! ### Loads (04 R82, 12 R260) -/

/-- Join or open a miss slot (04 R82); none when none is free. -/
def State.openSlot (s : State) (core func since : Nat) (tgt : Tgt) (alloc : Bool) (peer : Option (Nat × Nat)) (only : Option Nat) :
    Option (Nat × Bool) × State :=
  match (s.core core).slots.find? fun x => x.tgt == tgt && !x.shut && x.only == only with
  | some x =>
    let f (y : MissSlot) : MissSlot := { y with alloc := y.alloc || alloc }
    (some (x.id, false), s.modCore core fun c => { c with slots := modIf (fun y => y.id == x.id) f c.slots })
  | none =>
    if s.slotFree core func since then
      let (id, s1) := s.take
      (some (id, true), s1.modCore core fun c => { c with slots := c.slots ++ [⟨id, func, tgt, alloc, peer, false, only⟩] })
    else (none, s)

/-- Does a load order what follows it: it takes no answer that was asked for before it? -/
def OpKind.acquires : OpKind → Bool
  | .ldacq _ => true
  | _ => false

/-- A load of a sector of a peer (04 R82, 05 R118, R121): one read for each distinct sector, which other loads of the core may join. A
load that has its place after an own store to the sector that is not acknowledged, an `LDACQ` and a load of a SEQ page have a read of
their own (log 42). -/
def State.peerSlot (s : State) (l t gi : Nat) (o : MemOp) (lane : Nat) (ty : PType) (v gpa : Nat) (d : Dest) : Option Nat × State :=
  let core := s.coreOf l t
  let func := s.funcOf l t
  let mine := (s.core core).reqs.any fun r =>
    r.storeOf l t gi && r.pkt.dst == d.dev && r.pkt.func == d.func && r.pkt.gpa / 32 == gpa / 32
  let own := mine || o.kind.acquires || ty == .seq
  if !s.reqRoom core then (none, s)
  else
    match s.openSlot core func o.seq (.peer (d.dev * 64 + d.func) (gpa / 32 * 32)) false (some (d.dev, d.func))
        (if own then some o.id else none) with
    | (none, s1) => (none, s1)
    | (some (id, false), s1) => (some id, s1)
    | (some (id, true), s1) =>
      (some id, (s1.send core (.fill core id (!o.kind.acquires)) o.seq ty func v
        { d.packet .read (gpa / 32 * 32) 32 0 with launch := l, team := t, gang := gi, lane := lane }).2)

/-- Start the load of one element, unless it has to wait: for its turn among the SEQ accesses of its gang, for older loads of its
lanes, for the own queue, or for a miss slot. It is done at once, or waits for a slot's fill. The fault is that of a virtual device
number. -/
def State.startLoad (s : State) (l t gi : Nat) (g : Gang) (o : MemOp) (e : Elem) (tr : Trans) : Option LaneFlt × State :=
  let core := s.coreOf l t
  let func := s.funcOf l t
  let n := o.kind.size
  let fw := s.ownBytes func g o.seq n tr.tgt
  let done (s : State) (r : List Byte × Bool) : Option LaneFlt × State :=
    (none, s.modElem l t gi o.id e.lane fun e => { e with st := .done, data := packBytes (overlay fw r.1), poison := r.2 })
  let slot (id : Option Nat) (s1 : State) : Option LaneFlt × State :=
    match id with
    | none => (none, s)
    | some k => (none, s1.modElem l t gi o.id e.lane fun e => { e with st := .slot k })
  if (tr.ty == .seq && s.seqPending l t gi g o.seq) || g.olderOpen o.seq (o.lanesOf e) || fw.any (· == some none) then (none, s)
  else if fw.all Option.isSome then done s ([], false)
  else
    match tr.tgt with
    | .mem a =>
      let here := tr.ty != .seq && (rangeFrom 0 n).all fun i => (fw.getD i none).isSome || (s.core core).holds (a + i) 1
      if here then
        let s1 := s.yieldSector core a (some (l, t))
        done s1 (s1.memBytes core fw a)
      else
        let (k, s1) := s.openSlot core func o.seq (.mem (a / 32 * 32)) (tr.ty != .seq) none none
        slot (k.map (·.1)) s1
    | .host pa =>
      let (k, s1) := s.openSlot core func o.seq (.host (pa / 32 * 32)) false none none
      slot (k.map (·.1)) s1
    | .buf k b off _ => done s (s.windowRead k b off n)
    | .peer v gpa =>
      if s.queuedTo func g o.seq tr.tgt then (none, s)
      else
        (match s.resolve func v with
         | .error f => (some ⟨f, none⟩, s)
         | .ok d =>
           let (k, s1) := s.peerSlot l t gi o e.lane tr.ty v gpa d
           slot k s1)
    | .notify _ _ => (some ⟨⟨.perm, 5⟩, none⟩, s)

/-- A load's element that has its translation and waits to start: its instruction's number, its lane and its place. -/
structure WaitingLoad where
  seq : Nat
  lane : Nat
  key : Nat × Nat × Nat × Nat
deriving DecidableEq, Repr

def WaitingLoad.insert (x : WaitingLoad) : List WaitingLoad → List WaitingLoad
  | [] => [x]
  | y :: r => if x.seq < y.seq ∨ (x.seq = y.seq ∧ x.lane < y.lane) then x :: y :: r else y :: x.insert r

/-- The loads of a core that wait to start, in issue order (04 R82). -/
def State.loadsWaiting (s : State) (core : Nat) : List WaitingLoad :=
  (((s.teams.filter (·.core == core)).flatMap fun t => t.gangs.flatMap fun g => (g.ops.filter (·.kind.isLoad)).flatMap fun o =>
    (o.elems.filter (·.st == .pending)).map fun e => WaitingLoad.mk o.seq e.lane (t.launch, t.num, g.idx, o.id))).foldl
      (fun acc x => x.insert acc) []

/-- Start one of them, if it can. -/
def State.startWaiting (s : State) (x : WaitingLoad) : Option LaneFlt × State :=
  let (l, t, gi, id) := x.key
  match s.gang? l t gi with
  | none => (none, s)
  | some g =>
    match (g.op? id).bind fun o => (o.elems.find? (·.lane == x.lane)).map fun e => (o, e) with
    | none => (none, s)
    | some (o, e) =>
      match e.st, e.trans with
      | .pending, some tr => s.startLoad l t gi g o e tr
      | _, _ => (none, s)

/-- Every load of a core that can start does so, in issue order; then the faults that they take. -/
def State.startLoads (s : State) (core : Nat) : State :=
  let (fs, s1) := (s.loadsWaiting core).foldl (fun (acc : List ElemFlt × State) x =>
    let (f, s1) := acc.2.startWaiting x
    (acc.1 ++ (f.map fun y => (x.key, x.lane, y)).toList, s1)) ([], s)
  s1.elemFaultsOf fs

/-- An element takes its bytes from the sector that a fill has brought (`got`, with its mark); those of device memory it reads in the
core cache or at the home, at the home alone for a SEQ page. -/
def State.fillElem (s : State) (core : Nat) (got : List Byte) (bad : Bool) (w : WaitingLoad) : State :=
  let (l, t, gi, id) := w.key
  match s.gang? l t gi with
  | none => s
  | some g =>
    match (g.op? id).bind fun o => (o.elems.find? (·.lane == w.lane)).bind fun e => e.trans.map fun tr => (o, tr) with
    | none => s
    | some (o, tr) =>
      let n := o.kind.size
      let fw := s.ownBytes (s.funcOf l t) g o.seq n tr.tgt
      let put (s : State) (r : List Byte × Bool) : State :=
        s.modElem l t gi id w.lane fun e => { e with st := .done, data := packBytes (overlay fw r.1), poison := r.2 }
      match tr.tgt with
      | .mem a =>
        let s1 := if tr.ty = .seq then s.dropSector core a else s.yieldSector core a (some (l, t))
        put s1 (s1.memBytes core fw a)
      | .host a => put s (slice got (a % 32) n, bad)
      | .peer _ a => put s (slice got (a % 32) n, bad)
      | _ => put s ([], false)

/-- Elements that wait for a slot. -/
def State.onSlot (s : State) (core id : Nat) : List WaitingLoad :=
  (s.teams.filter (·.core == core)).flatMap fun t => t.gangs.flatMap fun g => g.ops.flatMap fun o =>
    (o.elems.filter fun e => e.st == .slot id).map fun e => ⟨o.seq, e.lane, (t.launch, t.num, g.idx, o.id)⟩

/-- A slot's fill ends: the slot frees, and each waiting element takes its bytes (04 R82). -/
def State.fillSlot (s : State) (core : Nat) (x : MissSlot) (got : List Byte) (bad : Bool) : State :=
  (s.onSlot core x.id).foldl (fun s w => s.fillElem core got bad w)
    (s.modCore core fun c => { c with slots := c.slots.filter (·.id != x.id) })

/-- A fill that ends in a fault gives it to every waiting element. -/
def State.failSlot (s : State) (core : Nat) (x : MissSlot) (f : Flt) (flags : Nat) : State :=
  let who := s.onSlot core x.id
  (s.modCore core fun c => { c with slots := c.slots.filter (·.id != x.id) }).elemFaultsOf
    (who.map fun w => (w.key, w.lane, ⟨f, none⟩)) flags

/-- A sector arrives from its home or from the host; an allocating fill merges into the core cache. -/
def execSectorFill (core id : Nat) (s : State) : Out :=
  .next (match (s.core core).slots.find? (·.id == id) with
    | none => s
    | some x =>
      match x.tgt with
      | .mem a =>
        (if x.alloc then s.coreFill core (sectorOf a) x.func else s.homeFill (sectorOf a) x.func none).fillSlot core x [] false
      | .host pa =>
        let (bs, s1) := s.hostRead pa 32
        s1.fillSlot core x bs false
      | _ => s)

/-! ### Atomics (04 R95 to R98) -/

/-- Kind of arithmetic of an atomic: 2 for F32, 1 for signed integers, 0 else. -/
def atomClass : Tag → Nat
  | .f32 => 2
  | .i32 => 1
  | .i64 => 1
  | _ => 0

/-- New value of Table 4-10; `w` is the width in bits. -/
def atomNew (op cls w old x : Nat) : Nat :=
  let less (mx : Bool) : Nat :=
    if cls = 2 then fF32.minmax mx old x
    else
      let lt := if cls = 1 then decide (sext old w < sext x w) else decide (old < x)
      if lt = mx then x else old
  match op with
  | 0 => if cls = 2 then opFadd .rne fF32 [old, x] else (old + x) % 2 ^ w
  | 1 => less false
  | 2 => less true
  | 3 => old &&& x
  | 4 => old ||| x
  | 5 => old ^^^ x
  | 6 => x
  | _ => if x ≤ old then 0 else old + 1

/-- Tags that an atomic's data accepts (04 Table 4-10). -/
def atomTags (op : Nat) (wide : Bool) : Option (List Tag) :=
  let base := if wide then [.i64, .none] else [.i32, .u32, .none]
  if op ≤ 2 then some (if wide then base else base ++ [.f32])
  else if op = 7 then some base
  else none

/-- What an atomic does to its word. -/
structure AtomOp where
  op : Nat
  cls : Nat
  bits : Nat
  cas : Bool
  data : Nat
  cmp : Nat
deriving DecidableEq, Repr

def AtomOp.next (x : AtomOp) (old : Nat) : Nat :=
  if x.cas then (if old = x.cmp then x.data else old) else atomNew x.op x.cls x.bits old x.data

/-- Perform an atomic on local memory at the place of Table 4-8; none when the sector is poisoned. -/
def State.localAtomic (s : State) (core func : Nat) (me : Nat × Nat) (scope : Nat) (ty : PType) (a : Nat) (x : AtomOp) :
    Option Nat × State :=
  let n := x.bits / 8
  if scope ≤ 1 && ty != .seq then
    let s0 := s.yieldSector core a (some me)
    let s1 := if (s0.core core).holds a n then s0 else s0.coreFill core (sectorOf a) func
    if (s1.core core).cachePoison a then (none, s1)
    else
      let old := leNat ((s1.core core).cacheRead a n)
      (some old, s1.coreStore core a func me ty (leBytes (x.next old) n))
  else
    let s1 := (s.dropSector core a).homeFill (sectorOf a) func none
    if s1.homePoisoned a n then (none, s1)
    else
      let old := leNat (s1.homeRead a n)
      (some old, s1.homeWrite a func (leBytes (x.next old) n) false)

/-- Policy limit (04 R95, 12 R275): a system scope is performed at tenant scope and SR_VFSTATUS bit 0 is set. -/
def State.limitScope (s : State) (func scope : Nat) : Nat × State :=
  if scope = 5 && (s.func func).cfg.tlimit then (4, s.modFunc func fun f => { f with vfstatus := true }) else (scope, s)

/-- The atomic of an element. -/
def MemOp.atomOf (o : MemOp) (e : Elem) : AtomOp :=
  let bits := if o.kind.size = 8 then 64 else 32
  match o.kind with
  | .cas _ _ => ⟨0, 0, bits, true, e.src.toNat % 2 ^ bits, e.cmp.toNat % 2 ^ bits⟩
  | .atom op _ _ => ⟨op.toNat, atomClass o.tag, bits, false, e.src.toNat % 2 ^ bits, 0⟩
  | .store (.atomr op _ _) => ⟨op.toNat, atomClass o.tag, bits, false, e.src.toNat % 2 ^ bits, 0⟩
  | _ => ⟨6, 0, bits, false, e.src.toNat % 2 ^ bits, 0⟩

/-- The packet of a fabric atomic (05 R121). -/
def AtomOp.packet (x : AtomOp) (d : Dest) (gpa lane : Nat) (ret : Bool) : Packet :=
  { d.packet (if x.cas then .cas else if ret then .atom else .atomr) gpa (x.bits / 8) (BitVec.ofNat 128 x.data) with
    cmp := BitVec.ofNat 64 x.cmp, op := x.op, rtype := x.cls, wide := x.bits == 64, lane := lane }

/-- Perform or send the `ATOM` or `CAS` of one element: its fault, and the state. -/
def State.startAtomic (s : State) (c : Cur) (o : MemOp) (e : Elem) (t : Trans) : Option LaneFlt × State :=
  let core := s.coreOf c.launch c.team
  let func := s.funcOf c.launch c.team
  let scope0 := match o.kind.use with
    | .atomic sc => sc
    | _ => 0
  let (scope, s0) := s.limitScope func scope0
  let s1 := if 2 ≤ scope then s0.commit c.launch c.team else s0
  let x := o.atomOf e
  match t.tgt with
  | .mem a =>
    match s1.localAtomic core func (c.launch, c.team) scope t.ty a x with
    | (none, s2) => (some ⟨⟨.uncorrData, 0⟩, none⟩, s2)
    | (some old, s2) =>
      let (v, s3) := s2.loggedAtomic func c.launch c.gang e.lane e.va old
      (none, s3.modElem c.launch c.team c.gang o.id e.lane fun e => { e with st := .done, data := BitVec.ofNat 128 v })
  | .peer v gpa =>
    match s1.resolve func v with
    | .error f => (some ⟨f, none⟩, s1)
    | .ok d =>
      let (id, s2) := s1.sendStore c.launch c.team c.gang (.op c.launch c.team c.gang o.id e.lane) o.seq t.ty v
        (x.packet d gpa e.lane true)
      (none, s2.modElem c.launch c.team c.gang o.id e.lane fun e => { e with st := .fabric id })
  | _ => (some ⟨⟨.perm, 5⟩, none⟩, s1)

/-- `CFLUSH` and `CINV` of one element (04 R100): a target that is never cached is ignored, a SEQ page among them. -/
def State.startMaint (s : State) (c : Cur) (inv : Bool) (o : MemOp) (e : Elem) (t : Trans) : State :=
  let core := s.coreOf c.launch c.team
  let s1 := match t.tgt with
    | .mem a =>
      if t.ty = PType.seq then s
      else if inv then
        (s.evict core (lineOf a)).modCore core fun k =>
          { k with slots := k.slots.map fun (x : MissSlot) =>
              match x.tgt with
              | .mem b => if lineOf b = lineOf a then { x with alloc := false } else x
              | _ => x }
      else s.writeBack core (lineOf a)
    | _ => s
  s1.modElem c.launch c.team c.gang o.id e.lane fun e => { e with st := .done }

/-- A fault of a fabric store after it has left (05 R124): the record with the lanes it was for, then every lane of the gang ends, whatever
the code. -/
def State.gangFault (s : State) (l t gi : Nat) (lanes : Mask) (pc : Nat) (word : W32) (code : FaultCode) (detail flags : Nat) : State :=
  let live := ((s.gang? l t gi).map (·.live)).getD 0
  let r := s.record l t gi 1 code lanes word pc detail 0 255 flags
  ((s.post r).modTeam l t fun x => { x with faulted := true }).endLanes l t gi live

/-! ### `RFENCE` in flight (05 R126) -/

/-- The flag store of an `RFENCE` fails: the instruction completes, with the fault of R124 on the lanes that issued it. -/
def State.rfenceFault (s : State) (l t gi : Nat) (o : MemOp) (code : FaultCode) (detail flags : Nat) : State :=
  (s.modGang l t gi fun x => (x.dropOp o.id).flagDown o.flag).gangFault l t gi (o.elems.foldl (fun m e => m ||| o.lanesOf e) 0)
    o.pc o.word code detail flags

/-- Does an earlier fabric store of the gang to the target still wait? -/
def State.rfenceBlocked (s : State) (l t gi : Nat) (g : Gang) (o : MemOp) (dev func : Nat) : Bool :=
  g.stq.any (fun x => decide (x.seq < o.seq) && x.elems.any fun e => e.open_ && (match e.tgt? with
    | some (.peer v _) => (match s.resolve (s.funcOf l t) v with
      | .ok d => d.dev == dev && d.func == func
      | .error _ => false)
    | _ => false)) ||
  (s.core (s.coreOf l t)).reqs.any fun r => r.storeOf l t gi && r.pkt.dst == dev && r.pkt.func == func && decide (r.issue < o.seq)

/-- Send the flag store of every `RFENCE` of a gang whose earlier stores are acknowledged and whose earlier loads are performed. -/
def State.tryRfence (s : State) (l t gi : Nat) : State :=
  match s.gang? l t gi with
  | none => s
  | some g => g.ops.foldl (fun s o =>
      match o.kind, o.elems with
      | .rfence n dev func, [e] =>
        (match e.st, e.tgt? with
         | .pending, some (.peer v gpa) =>
           if s.rfenceBlocked l t gi g o dev func || g.olderOpen o.seq o.once || !s.reqRoom (s.coreOf l t) then s
           else
             match s.resolve (s.funcOf l t) v with
             | .error f => s.rfenceFault l t gi o f.code f.detail 0
             | .ok d =>
               let (id, s1) := s.sendStore l t gi (.op l t gi o.id e.lane) o.seq ((e.trans.map Trans.ty).getD .rel) v
                 { d.packet .rfence gpa n e.src with lane := e.lane }
               s1.modElem l t gi o.id e.lane fun e => { e with st := .fabric id }
         | _, _ => s)
      | _, _ => s) s

/-! ### Issue and reissue (04 R92, R98, R101, R102) -/

/-- An element that stands before its translation: its verdict, a walk, or the wait for room in the walk queue. A fault is left to
`verdictFaults`. -/
def State.translateElem (s : State) (c : Cur) (o : MemOp) (e : Elem) : State :=
  let core := s.coreOf c.launch c.team
  let func := s.funcOf c.launch c.team
  let put (s : State) (f : Elem → Elem) : State := s.modElem c.launch c.team c.gang o.id e.lane f
  match s.verdict core func o.kind.use e.va o.kind.size with
  | .ok t => put s fun e => { e with st := .pending, trans := some t }
  | .flt _ => s
  | .walk =>
    let gva := gvaOf (BitVec.ofNat 64 e.va)
    if s.walkFull core func gva then s
    else put (s.queueWalk core func gva ⟨.op c.launch c.team c.gang o.id e.lane, o.kind.use.need, gva⟩) fun e =>
      { e with st := .walking }

/-- The faults of elements whose translation is known. -/
def State.verdictFaults (s : State) (c : Cur) (o : MemOp) (els : List Elem) : List (Nat × LaneFlt) :=
  els.filterMap fun e =>
    match s.verdict (s.coreOf c.launch c.team) (s.funcOf c.launch c.team) o.kind.use e.va o.kind.size with
    | .flt f => some (e.lane, f)
    | _ => none

/-- Is an element to be translated: never tried, or unparked by its reply? -/
def State.untranslated (s : State) (e : Elem) : Bool :=
  match e.st with
  | .todo => true
  | .parked o id => !s.pageReqs.any fun p => p.owner == o && p.id == id
  | _ => false

/-- The wait that holds the translated elements of an instruction other than a load back, if any. -/
def State.memWait (s : State) (l t gi : Nat) (g : Gang) (o : MemOp) (ready : List Elem) : Option Stall :=
  let peers := ready.filter fun e => (e.tgt?.map Tgt.isPeer).getD false
  if ready.isEmpty then none
  else if ready.any (fun e => (e.trans.map Trans.ty) == some PType.seq) && s.seqPending l t gi g o.seq then some .seqAccess
  else
    match o.kind with
    | .store _ => if Config.stqSize ≤ g.stq.length then some .stqFull else none
    | .atom _ _ _ => atomic peers
    | .cas _ _ => atomic peers
    | _ => none
where
  /-- An atomic goes after its gang's queued stores and its lanes' older loads, and all its packets leave together. -/
  atomic (peers : List Elem) : Option Stall :=
    if g.stq.any fun x => decide (x.seq < o.seq) then some .stqEmpty
    else if g.olderOpen o.seq ((ready.map o.lanesOf).foldl (· ||| ·) 0) then some .older
    else if !peers.isEmpty && decide (Config.requesters < (s.core (s.coreOf l t)).reqs.length + peers.length) then some .requester
    else none

/-- Does an instruction end its gang's region when these elements take effect (02 R39)? -/
def MemOp.endsRegion (o : MemOp) (els : List Elem) : Bool :=
  match o.kind with
  | .atom _ _ _ => true
  | .cas _ _ => true
  | .rfence _ _ _ => true
  | .store k =>
    (match k with
     | .atomr _ _ _ => true
     | .rstrel _ => true
     | .rstarv _ => true
     | _ => els.any fun e => (e.trans.map fun t => t.ty == .seq || t.tgt.isPeer).getD false)
  | _ => false

/-- Start one element of an atomic, a maintenance instruction or an `RFENCE`. -/
def State.startElem (s : State) (c : Cur) (o : MemOp) (e : Elem) (t : Trans) : Option LaneFlt × State :=
  match o.kind with
  | .atom _ _ _ => s.startAtomic c o e t
  | .cas _ _ => s.startAtomic c o e t
  | .maint inv => (none, s.startMaint c inv o e t)
  | .rfence n _ _ =>
    (match t.tgt with
     | .peer v _ =>
       (match s.resolve (s.funcOf c.launch c.team) v with
        | .ok d => (none, (s.modGang c.launch c.team c.gang fun g => g.modOp o.id fun o =>
            { o with kind := .rfence n d.dev d.func }).tryRfence c.launch c.team c.gang)
        | .error f => (some ⟨f, none⟩, s))
     | _ => (none, s))
  | _ => (none, s)

/-- Start the elements in lane order; the faults that they take are gathered. -/
def State.startElems (s : State) (c : Cur) (o : MemOp) : List Elem → List (Nat × LaneFlt) × State
  | [] => ([], s)
  | e :: rest =>
    match e.trans with
    | none => s.startElems c o rest
    | some t =>
      let (f, s1) := s.startElem c o e t
      let (fs, s2) := s1.startElems c o rest
      ((f.map fun y => (e.lane, y)).toList ++ fs, s2)

/-- The translated elements of a store fill one entry of the gang's queue (04 R81). -/
def State.enqueue (s : State) (c : Cur) (o : MemOp) (k : StKind) (ready : List Elem) : State :=
  let (id, s1) := s.take
  s1.modGang c.launch c.team c.gang fun g =>
    { g with stq := g.stq ++ [⟨id, o.seq, k, o.pc, o.word, o.tag, none, false, false, ready⟩]
             ops := modIf (·.id == o.id) (fun o => o.mapElems fun e =>
               if ready.any (·.lane == e.lane) then { e with st := .done } else e) g.ops }

/-- Drop an operation that counts on no flag once every element is done or has ended. -/
def Gang.sweepOp (g : Gang) (id : Nat) : Gang :=
  match g.op? id with
  | some o => (match o.kind with
    | .store _ => if o.elems.all (!·.open_) then g.dropOp id else g
    | .maint _ => if o.elems.all (!·.open_) then g.dropOp id else g
    | _ => g)
  | none => g

/-- The entry goes on past its instruction, in a new region where the instruction ends one. -/
def State.memPast (s : State) (c : Cur) (id : Nat) (region : Bool) : State :=
  let s1 := s.modGang c.launch c.team c.gang (·.sweepOp id)
  (if region then s1.advanceRegion c else s1.advance c).endGang c.launch c.team c.gang

/-- One issue of a memory operation by the entry of the bundle. A load's entry goes on at once: its lanes translate and start as they
can, and until then the entry is held before the next instruction that is not a clause header (`Gang.held`, log 40). Any other
instruction waits until its lanes' walks have ended; lanes that miss leave the entry. -/
def State.memGo (s : State) (c : Cur) (id : Nat) : State :=
  let here (s : State) : Option MemOp := (s.gang? c.launch c.team c.gang).bind (·.op? id)
  let mine (s : State) : Mask := (((s.gang? c.launch c.team c.gang).bind (·.entry? c.eid)).map (·.mask)).getD 0
  let keep (s : State) (why : Stall) : State :=
    (s.stall c why).modEntry c.launch c.team c.gang c.eid fun e => { e with resume := .op id }
  match here s with
  | none => s.advance c
  | some o0 =>
    let m := mine s
    -- verdicts of the lanes that have none
    let fresh := o0.elems.filter fun e => o0.inMask m e && s.untranslated e
    let s1 := (fresh.foldl (fun s e => s.translateElem c o0 e) s).elemFaults c.launch c.team c.gang id
      (s.verdictFaults c o0 fresh)
    match here s1, s1.gang? c.launch c.team c.gang with
    | some o1, some g1 =>
      let els := o1.elems.filter fun e => o1.inMask m e
      let ready := els.filter (·.st == .pending)
      if els.any fun e => s1.untranslated e then keep s1 .walkFull
      else if o1.kind.isLoad then
        ((s1.advance c).startLoads (s1.coreOf c.launch c.team)).endGang c.launch c.team c.gang
      else if els.any (·.st == .walking) then keep s1 .walk
      else
        match s1.memWait c.launch c.team c.gang g1 o1 ready with
        | some why => keep s1 why
        | none =>
          match o1.kind with
          | .store k => (if ready.isEmpty then s1 else s1.enqueue c o1 k ready).memPast c id (o1.endsRegion ready)
          | _ =>
            let (fs, s2) := s1.startElems c o1 ready
            (s2.elemFaults c.launch c.team c.gang id fs).memPast c id (o1.endsRegion ready)
    | _, _ => s1.advance c

/-- A memory instruction: a reissue goes on with its operation, for the lanes that its PRED leaves active (04 R101). -/
def State.withMem (s : State) (f : Cur → Team → Gang → State) : Out :=
  s.withCur fun c t g =>
    match g.resumeOf c.eid with
    | some id =>
      let m := ((g.entry? c.eid).map (·.mask)).getD 0
      (s.modGang c.launch c.team c.gang fun g => g.modOp id (·.forgo m c.mask)).memGo c id
    | none => if c.mask = 0 then s.advance c else s.afterAcq c g (f c t g)

/-- The first issue: the operation takes its place, its flag counts up, last uses are freed, and its lanes go on. -/
def State.memBegin (s : State) (c : Cur) (g : Gang) (kind : OpKind) (flag d : Nat) (tag : Tag) (once : Mask) (els : List Elem)
    (free : Gang → Gang) : State :=
  if g.flagFull flag then s.stall c (.flagFull flag)
  else
    let (id, s1) := s.take
    let g1 := (free g).flagUp flag
    (s1.putGang c.launch c.team c.gang { g1 with ops := g1.ops ++ [g.newOp c id kind flag d once tag els] }).memGo c id

def newElem (c : Cur) (lane va : Nat) (src : BitVec 128) (cmp : W64) : Elem :=
  ⟨lane, c.seq, va % 2 ^ 64, .todo, none, src, cmp, 0, false⟩

/-! ### Addresses (04 R90) -/

/-- Offset of a lane: sign-extended under I32, else zero-extended. -/
def offsetOf (x : Src) (i : Nat) : Int := if x.tag = .i32 then sext (x.val i) 32 else (x.val i : Int)
/-- Address of a lane. -/
def laneAddr (g : Gang) (s : BitVec 6) (x : Src) (i : Nat) : Nat :=
  (BitVec.ofInt 64 (((g.uni s.toNat).toNat : Int) + offsetOf x i)).toNat

/-- A vector form: tags, then one element for each active lane. A source marked L is freed at issue, the destination of a load too: its
completion maps it anew (08 R176). -/
def State.vecMem (s : State) (c : Cur) (g : Gang) (base : BitVec 6) (a : Opnd) (data : List Src) (kind : OpKind)
    (flag d : Nat) (src : Nat → BitVec 128) : State :=
  let x := g.srcA a
  match (poisonCheck (x :: data)).orElse fun _ => accept W32tags [x] with
  | some (.ill k) => s.illValue c k
  | some (.flt f) => s.raiseAll c f
  | none =>
    s.memBegin c g kind flag d .none 0
      ((lanesOf c.mask).map fun i => newElem c i (laneAddr g base x i) (src i) 0) fun g => g.freeLast [a] []

def execLd (d s : BitVec 6) (w : BitVec 2) (a : Opnd) (st : State) : Out :=
  st.withMem fun c _ g =>
    st.vecMem c g s a [] (.ld w) (g.setAOf c.eid) d.toNat fun _ => 0
def execLdacq (d s : BitVec 6) (sc : BitVec 2) (a : Opnd) (st : State) : Out :=
  st.withMem fun c _ g => st.vecMem c g s a [] (.ldacq sc) (g.setAOf c.eid) d.toNat fun _ => 0
def execSt (d s : BitVec 6) (w : BitVec 2) (a : Opnd) (st : State) : Out :=
  st.withMem fun c _ g =>
    st.vecMem c g s a (g.dataRegs d.toNat w.toNat) (.store (.st (widthBytes w.toNat))) 15 d.toNat fun i =>
      g.storeData d.toNat w.toNat i
def execStrel (d s : BitVec 6) (sc : BitVec 2) (a : Opnd) (st : State) : Out :=
  st.withMem fun c _ g =>
    st.vecMem c g s a (g.dataRegs d.toNat 0) (.store (.strel sc)) 15 d.toNat fun i => g.storeData d.toNat 0 i
def execCflush (s : BitVec 6) (a : Opnd) (st : State) : Out :=
  st.withMem fun c _ g => st.vecMem c g s a [] (.maint false) 15 0 fun _ => 0
def execCinv (s : BitVec 6) (a : Opnd) (st : State) : Out :=
  st.withMem fun c _ g => st.vecMem c g s a [] (.maint true) 15 0 fun _ => 0

/-- `RSTREL` and `RSTARV` (05 R122 to R124). -/
def execRstrel (d s : BitVec 6) (w : BitVec 2) (a : Opnd) (st : State) : Out :=
  st.withMem fun c _ g =>
    st.vecMem c g s a (g.dataRegs d.toNat w.toNat) (.store (.rstrel (widthBytes w.toNat))) 15 d.toNat fun i =>
      g.storeData d.toNat w.toNat i
def execRstarv (d s : BitVec 6) (w : BitVec 2) (a : Opnd) (st : State) : Out :=
  st.withMem fun c _ g =>
    st.vecMem c g s a (g.dataRegs d.toNat w.toNat) (.store (.rstarv (widthBytes w.toNat))) 15 d.toNat fun i =>
      g.storeData d.toNat w.toNat i

/-- A uniform form acts once, at the address of the uniform registers (04 R94). -/
def State.uniMem (s : State) (c : Cur) (g : Gang) (va : Nat) (kind : OpKind) (flag d : Nat) (src : BitVec 128)
    (free : Gang → Gang) : State :=
  s.memBegin c g kind flag d .none c.mask [newElem c (firstLane c.mask) va src 0] free

def execSld (d s : BitVec 6) (w : BitVec 2) (a : Opnd) (st : State) : Out :=
  st.withMem fun c _ g =>
    st.uniMem c g (g.uni s.toNat + g.uniOp a).toNat (.sld w) (g.setAOf c.eid) d.toNat 0 fun g => g.freeLastS a []
def execSst (d s : BitVec 6) (w : BitVec 2) (a : Opnd) (st : State) : Out :=
  st.withMem fun c _ g =>
    let lo : BitVec 128 := (g.uni d.toNat).setWidth 128
    let v : BitVec 128 := if w = 2 then (g.uni (d.toNat + 1)) ++ (g.uni d.toNat) else lo
    st.uniMem c g (g.uni s.toNat + g.uniOp a).toNat (.store (.st (widthBytes w.toNat))) 15 d.toNat v
      fun g => g.freeLastS a []

/-- `RFENCE` (05 R126): engine class, counts on setB. -/
def execRfence (d : BitVec 6) (a : Opnd) (wide : Bool) (st : State) : Out :=
  st.withMem fun c _ g =>
    st.uniMem c g (g.uniOp a).toNat (.rfence (if wide then 8 else 4) 0 0) (g.setBOf c.eid) 0 ((g.uni d.toNat).setWidth 128)
      fun g => g.freeLastS a []

/-! ### The atomic instructions -/

/-- Data registers of an atomic: the values of a lane, and the sources to check. -/
def State.atomMem (s : State) (c : Cur) (g : Gang) (a : Opnd) (d : Nat) (wide cas : Bool) (ok : Option (List Tag))
    (kind : OpKind) (flag : Nat) : State :=
  let x := g.srcA a
  let x1 := g.srcA1 a
  let regs := if cas then (if wide then [d, d + 1, d + 2, d + 3] else [d, d + 1]) else if wide then [d, d + 1] else [d]
  let ds := regs.map g.srcD
  let pairs : List (Src × Src) :=
    if !wide then [] else if cas then [(g.srcD d, g.srcD (d + 1)), (g.srcD (d + 2), g.srcD (d + 3))]
    else [(g.srcD d, g.srcD (d + 1))]
  let chk := (poisonCheck ([x, x1] ++ ds)).orElse fun _ =>
    (accept [.i64, .none] [x]).orElse fun _ => (pairCheck x x1).orElse fun _ =>
    (ok.bind fun l => accept l [g.srcD d]).orElse fun _ => pairs.findSome? fun p => pairCheck p.1 p.2
  match chk with
  | some (.ill k) => s.illValue c k
  | some (.flt f) => s.raiseAll c f
  | none =>
    let val (r i : Nat) : Nat := if wide then pairVal (g.srcD r) (g.srcD (r + 1)) i else (g.srcD r).val i
    s.memBegin c g kind flag d (g.tag d) 0
      ((lanesOf c.mask).map fun i =>
        if cas then newElem c i (pairVal x x1 i) (BitVec.ofNat 128 (val (if wide then d + 2 else d + 1) i)) (BitVec.ofNat 64 (val d i))
        else newElem c i (pairVal x x1 i) (BitVec.ofNat 128 (val d i)) 0) fun g => g.freePair a []

def execAtom (d : BitVec 6) (a : Opnd) (o sc : BitVec 3) (w : BitVec 2) (st : State) : Out :=
  st.withMem fun c _ g =>
    let wide := w == 1
    st.atomMem c g a d.toNat wide false (atomTags o.toNat wide) (.atom o sc wide) (g.setAOf c.eid)
def execAtomr (d : BitVec 6) (a : Opnd) (o sc : BitVec 3) (w : BitVec 2) (st : State) : Out :=
  st.withMem fun c _ g =>
    let wide := w == 1
    st.atomMem c g a d.toNat wide false (atomTags o.toNat wide) (.store (.atomr o sc wide)) 15
def execCas (d : BitVec 6) (a : Opnd) (sc : BitVec 3) (w : BitVec 2) (st : State) : Out :=
  st.withMem fun c _ g =>
    let wide := w == 1
    st.atomMem c g a d.toNat wide true none (.cas sc wide) (g.setAOf c.eid)

/-! ### Prefetch (04 R99) -/

/-- A lane of a `PREF` whose translation is known takes a miss slot, whose fill brings the sector. It is ignored on a SEQ page (`.core`),
behind a window, under a lock that a load would break, and with no slot free. -/
def State.prefAt (s : State) (core func since : Nat) (home : Bool) (va : Nat) (t : Trans) : State :=
  match t.tgt with
  | .mem x =>
    if (s.lockHit core func .load va 1).isSome || (!home && t.ty == .seq) || (!home && (s.core core).holds (x / 32 * 32) 32) then s
    else (s.openSlot core func since (.mem (x / 32 * 32)) (!home) none none).2
  | _ => s

/-- One lane of a `PREF`: an address that no TLB serves has a walk, which the instruction does not wait for; with the walk queue full the
lane is ignored. -/
def State.prefLane (s : State) (core func since : Nat) (home : Bool) (va : Nat) : State :=
  let a := BitVec.ofNat 64 va
  if !addrOk a then s
  else
    match s.lookup core func (gvaOf a) .read (.thread 4) with
    | some (.ok t) => s.prefAt core func since home va t
    | some (.error _) => s
    | none => if s.walkFull core func (gvaOf a) then s else s.queueWalk core func (gvaOf a) ⟨.pref core home, .read, gvaOf a⟩

/-- `PREF` never stalls, not even after an `LDACQ` that has not completed (log 77). -/
def execPref (h : Bool) (s : BitVec 6) (a : Opnd) (st : State) : Out :=
  st.withActive fun c t g =>
    let x := g.srcA a
    if !W32tags.contains x.tag then st.advance c
    else
      let s1 := st.putGang c.launch c.team c.gang (g.freeLast [a] [])
      ((lanesOf c.mask).foldl (fun s1 i => s1.prefLane t.core t.func c.seq h (laneAddr g s x i)) s1).advance c

/-! ### Completion (02 R22, 04 R91 to R93) -/

/-- Registers written by a finished operation; none when a rollback fault takes its place. -/
def MemOp.written (o : MemOp) (g : Gang) : Option Gang :=
  let done := o.elems.filter (·.st == .done)
  let m := maskOf (done.map (·.lane))
  let val (i : Nat) : BitVec 128 := ((done.find? (·.lane == i)).map (·.data)).getD 0
  let bad := done.any (·.poison)
  let etags := done.map fun e => (e.trans.map (·.etag)).getD 0
  let etag := match etags with
    | x :: rest => if rest.all (· == x) then x else 0
    | [] => 0
  if done.isEmpty then some g
  else
    match o.kind with
    | .ld w => some (g.putLoad o.d w.toNat m (if bad then .poison else loadTag w.toNat etag) val)
    | .ldacq _ => some (g.putLoad o.d 0 m (if bad then .poison else loadTag 0 etag) val)
    | .tld f desc => some (g.putLoad o.d f.toNat m (if bad then .poison else loadTag f.toNat (descOf desc).tag) val)
    | .sld w =>
      if bad then none
      else
        let v := ((done.head?).map (·.data)).getD 0
        let g1 := g.putS o.d (v.setWidth 64)
        some (if w = 2 then g1.putS (o.d + 1) ((v >>> 64).setWidth 64) else g1)
    | .atom _ _ wide => some (result g m val wide)
    | .cas _ wide => some (result g m val wide)
    | _ => some g
where
  result (g : Gang) (m : Mask) (val : Nat → BitVec 128) (wide : Bool) : Gang :=
    let g1 := g.putV o.d m (lanes32.map fun i => (val i).setWidth 32) o.tag
    if wide then g1.putV (o.d + 1) m (lanes32.map fun i => ((val i) >>> 32).setWidth 32) o.tag else g1

/-- The live-ins of a region record as a gang's maps. -/
def Gang.recorded (g : Gang) : Gang :=
  { g with vmap := regs64.map fun k => (g.region.vlive.find? (·.1 == k)).map (·.2)
           smap := regs64.map fun k => (g.region.slive.find? (·.1 == k)).map (·.2)
           region := { g.region with heldV := 0, heldS := 0 } }

/-- A write that was pending when the region began also enters the region record, for the live-ins that it names (13 R298): it is made
on the recorded values, whatever the region has written since. A live-in that it maps there and that the region has overwritten takes
a register for its recorded value. `g` is the gang before the write. -/
def Gang.lateLiveIn (g1 g : Gang) (o : MemOp) : Gang :=
  let r := g.region
  let x := ((o.written g.recorded).getD g.recorded).settle
  let newV := regs64.filter fun k => r.vmask.getLsbD k && (r.vform? k).isNone && (x.vreg k).isSome && (g.vreg k).isSome
  let newS := regs64.filter fun k => r.smask.getLsbD k && !r.sLive k && ((x.smap[k]?).join).isSome && ((g.smap[k]?).join).isSome
  { g1 with region := { g1.region with
      vlive := regs64.filterMap fun k => if r.vmask.getLsbD k then (x.vreg k).map fun y => (k, y) else none
      slive := regs64.filterMap fun k => if r.smask.getLsbD k then ((x.smap[k]?).join).map fun y => (k, y) else none
      heldV := newV.foldl (fun m k => m ||| (1#64 <<< k)) r.heldV
      heldS := newS.foldl (fun m k => m ||| (1#64 <<< k)) r.heldS } }

/-- A memory instruction whose every lane is done or has ended completes: an `LDACQ` wider than team scope acquires, the
destination is renamed, and the flag counts down. Registers that are not there are claimed (08 R181). -/
def execMemoryReturnComplete (l t gi id : Nat) (s : State) : Out :=
  .next (match s.gang? l t gi with
    | none => s
    | some g =>
      match g.op? id with
      | none => s
      | some o =>
        let core := s.coreOf l t
        let claimed := (s.core core).claims.any fun x =>
          x.launch == l && x.team == t && x.gang == gi && x.ref == id && x.kind == .completion
        if claimed || o.elems.any (·.open_) then s
        else
          match o.written g with
          | none => (s.modGang l t gi fun g => (g.dropOp id).flagDown o.flag).raiseAt l t gi o.once .uncorrData 0 o.pc o.word
          | some g0 =>
            let g1 := ((if o.region = g.region.num then g0 else g0.lateLiveIn g o).unlend .completion id).settle
            match (s.core core).room g g1 with
            | .wait uni n => s.modCore core fun c => c.claim ⟨l, t, gi, id, uni, n, .completion⟩
            | .ok =>
              let s1 := s.putGang l t gi ((g1.dropOp id).flagDown o.flag)
              let s2 := match o.kind with
                | .ldacq sc => if sc = 0 then s1 else s1.acquire core
                | _ => s1
              s2.endGang l t gi)

/-! ### The store queue (04 R81, R93) -/

/-- Is an older load of the gang not yet performed for a lane of the entry (12 R260)? -/
def Gang.olderLoad (g : Gang) (x : StqEntry) : Bool :=
  g.ops.any fun o => o.kind.isReturn && decide (o.seq < x.seq) &&
    o.elems.any fun e => e.open_ && (o.once != 0 || x.elems.any (·.lane == e.lane))

/-- A store of local bytes streamed to the home (ONCE), or performed there (SEQ). -/
def State.storeHome (s : State) (core func : Nat) (ty : PType) (a : Nat) (bytes : List Byte) : State :=
  if ty = .once then
    let s1 := s.homeWrite a func bytes false (keep := some core)
    s1.modCore core fun c =>
      { c with cache := modIf (fun l => l.addr == lineOf a) (fun l =>
          (rangeFrom 0 bytes.length).foldl (fun l i =>
            if l.valid.getLsbD (a % 128 + i) then l.setByte (a % 128 + i) (bytes.getD i 0) false else l) l) c.cache }
  else (s.dropSector core a).homeWrite a func bytes false

/-- A release store written through to the home; its bytes stay clean in the core cache (04 R93). -/
def State.storeThrough (s : State) (core func : Nat) (me : Nat × Nat) (a : Nat) (bytes : List Byte) : State :=
  let s1 := (s.yieldSector core a (some me)).homeWrite a func bytes false (keep := some core)
  s1.modCore core fun c =>
    let l := c.line (lineOf a) func
    let l1 := l.putBytes (a % 128) false bytes
    { c with cache := putLine c.cache (l1.cleaned (bytesMask (a % 128) bytes.length)) }

/-- Does an element of a store wait for its home's acknowledgement? -/
def Elem.acked (e : Elem) : Bool :=
  match e.trans with
  | some ⟨_, .mem _, .seq, _⟩ => true
  | some ⟨_, .mem _, .once, _⟩ => true
  | _ => false

/-- Perform one element of a plain store on every path but the home's and the fabric's. -/
def State.storeLocal (s : State) (core func : Nat) (me : Nat × Nat) (gi : Nat) (e : Elem) (n : Nat) : State :=
  let bytes := leBytes e.src.toNat n
  match e.trans with
  | some ⟨_, .mem a, ty, _⟩ => if e.acked then s else s.coreStore core a func me ty bytes
  | some ⟨_, .host pa, _, _⟩ =>
    { s.modGang me.1 me.2 gi fun g => { g with hostWrote := true } with sent := s.sent ++ [.hostWrite pa n (e.src &&& BitVec.ofNat 128 (2 ^ (8 * n) - 1))] }
  | some ⟨_, .buf k b off _, _, _⟩ => s.modBuf k b fun x => x.put off bytes false
  | some ⟨_, .notify page off, _, _⟩ => s.bellStore func page off n
  | _ => s

def StqEntry.doneAll (x : StqEntry) (p : Elem → Bool) : StqEntry :=
  { x with elems := x.elems.map fun e => if p e then { e with st := .done } else e }
def Gang.modStq (g : Gang) (id : Nat) (f : StqEntry → StqEntry) : Gang := { g with stq := modIf (·.id == id) f g.stq }
def State.dropStq (s : State) (l t gi id : Nat) : State :=
  (s.modGang l t gi fun g => { g with stq := g.stq.filter (·.id != id) }).tryRfence l t gi

/-- The atomic of a queued `ATOMR` lane. -/
def StqEntry.atomOf (x : StqEntry) (e : Elem) : AtomOp :=
  match x.kind with
  | .atomr op _ _ => ⟨op.toNat, atomClass x.tag, 8 * x.kind.size, false, e.src.toNat % 2 ^ (8 * x.kind.size), 0⟩
  | _ => ⟨6, 0, 8 * x.kind.size, false, e.src.toNat % 2 ^ (8 * x.kind.size), 0⟩

/-- Targets of the peer lanes of an `RSTREL`, each with the number of its packets (05 R119). -/
def State.relTargets (s : State) (func : Nat) (x : StqEntry) : List (Nat × Nat × Nat) :=
  let ts := x.elems.filterMap fun e =>
    match e.tgt? with
    | some (.peer v _) => (match s.resolve func v with
      | .ok d => some (d.dev, d.func)
      | .error _ => none)
    | _ => none
  (ts.foldl (fun l y => if l.contains y then l else l ++ [y]) ([] : List (Nat × Nat))).map fun y =>
    (y.1, y.2, (ts.filter (· == y)).length)

/-- Send the packet of one peer lane of a store entry. -/
def State.storePeer (s : State) (l t gi : Nat) (x : StqEntry) (e : Elem) (rel : List (Nat × Nat × Nat)) : State :=
  let func := s.funcOf l t
  match e.tgt? with
  | some (.peer v gpa) =>
    (match s.resolve func v with
     | .error f => s.gangFault l t gi (1#32 <<< e.lane) x.pc x.word f.code f.detail 0
     | .ok d =>
       let n := x.kind.size
       let strm : Stream := ((s.gang? l t gi).map fun (g : Gang) => g.stream d.dev d.func).getD ⟨0, 0, 0, 0, 0, []⟩
       let p := match x.kind with
         | .atomr _ _ _ => (x.atomOf e).packet d gpa e.lane false
         | .rstrel _ => { d.packet .rstrel gpa n e.src with
             lane := e.lane
             seg := strm.seg
             count := strm.sent
             group := ((rel.find? fun y => y.1 == d.dev && y.2.1 == d.func).map (·.2.2)).getD 1 }
         | .rstarv _ => { d.packet .rstarv gpa n e.src with lane := e.lane }
         | .strel _ => { d.packet .strel gpa n e.src with lane := e.lane }
         | .st _ => { d.packet .store gpa n e.src with lane := e.lane }
       (s.sendStore l t gi (.store l t gi e.lane x.pc x.word) x.seq ((e.trans.map Trans.ty).getD .rel) v p).2)
  | _ => s

/-- Perform the lanes of an `ATOMR` that has left the queue, in lane order (04 R98). -/
def State.queuedAtomic (s : State) (l t gi : Nat) (x : StqEntry) (scope0 : Nat) : State :=
  let core := s.coreOf l t
  let func := s.funcOf l t
  let (scope, s0) := s.limitScope func scope0
  let s1 := if 2 ≤ scope then s0.commit l t else s0
  x.elems.foldl (fun s e =>
    match e.trans with
    | some ⟨_, .mem a, ty, _⟩ =>
      (match s.localAtomic core func (l, t) scope ty a (x.atomOf e) with
       | (none, s2) => s2.raiseAt l t gi (1#32 <<< e.lane) .uncorrData 0 x.pc x.word
       | (some _, s2) => s2)
    | _ => s.storePeer l t gi x e []) s1

/-- The stores of a release whose conditions hold (04 R93). -/
def State.releaseStore (s : State) (l t gi : Nat) (x : StqEntry) : State :=
  let core := s.coreOf l t
  let func := s.funcOf l t
  x.elems.foldl (fun s e =>
    match e.trans with
    | some ⟨_, .mem a, .seq, _⟩ => s.storeHome core func .seq a (leBytes e.src.toNat 4)
    | some ⟨_, .mem a, _, _⟩ => s.storeThrough core func (l, t) a (leBytes e.src.toNat 4)
    | some ⟨_, .peer _ _, _, _⟩ => s.storePeer l t gi x e []
    | _ => s.storeLocal core func (l, t) gi e 4) s

/-- The packets of an `RSTREL` (05 R119): each carries the segment's count; then the segment ends, open until they are acknowledged. -/
def State.sendRelease (s : State) (l t gi : Nat) (x : StqEntry) : State :=
  let rel := s.relTargets (s.funcOf l t) x
  let s1 := x.elems.foldl (fun s e => s.storePeer l t gi x e rel) s
  rel.foldl (fun s y => s.modGang l t gi fun g =>
    let x := g.stream y.1 y.2.1
    g.putStream { x with sent := 0, seg := (x.seg + 1) % 256, rel := x.rel ++ [x.seg] }) s1

/-- An arrival store (05 R124): to a window of its own device it writes and counts as one step. A fabric store commits its team. -/
def State.sendArrivals (s : State) (l t gi : Nat) (x : StqEntry) : State :=
  x.elems.foldl (fun s e =>
    match e.trans with
    | some ⟨_, .buf k b off _, _, _⟩ => s.landBytes k b off (leBytes e.src.toNat x.kind.size) false (s.clusterOf l t)
    | _ => s.storePeer l t gi x e []) (s.commit l t)

/-- Take the head entry of a gang's store queue (04 R81): perform it and let it leave, send its accesses to their homes, or
take the next step of a release (04 R93). -/
def execStoreQueueDrain (l t gi : Nat) (s : State) : Out :=
  .next (match s.gang? l t gi with
    | none => s
    | some g =>
      match g.stq with
      | [] => s
      | x :: _ =>
        let core := s.coreOf l t
        let peers := x.elems.filter fun e => (e.tgt?.map Tgt.isPeer).getD false
        if x.sent || g.olderLoad x || decide (Config.requesters < (s.core core).reqs.length + peers.length) then s
        else
          -- accesses that need an acknowledgement keep the entry in the queue
          let plain : State :=
            let s1 := x.elems.foldl (fun s e => s.storeLocal core (s.funcOf l t) (l, t) gi e x.kind.size) s
            let s2 := peers.foldl (fun s e => s.storePeer l t gi x e []) s1
            if x.elems.any (·.acked) then
              s2.modGang l t gi (·.modStq x.id fun y => { (y.doneAll (!·.acked)) with sent := true })
            else s2.dropStq l t gi x.id
          match x.kind with
          | .st _ => plain
          | .strel sc =>
            if sc = 0 then plain
            else if !x.begun then
              if Config.markerMax ≤ (s.core core).markers.length then s
              else
                let (k, s1) := (s.commit l t).insertMarker core l t
                s1.modGang l t gi (·.modStq x.id fun y => { y with marker := k, begun := true })
            else if (s.core core).markers.any (fun m => x.marker == some m.id) || s.orderedOpen l t gi ||
              (sc == 3 && s.fabricOpen l t gi) then s
            else (s.releaseStore l t gi x).dropStq l t gi x.id
          | .atomr _ sc _ => (s.dropStq l t gi x.id).queuedAtomic l t gi x sc.toNat
          | .rstrel _ => (s.sendRelease l t gi x).dropStq l t gi x.id
          | .rstarv _ => (s.sendArrivals l t gi x).dropStq l t gi x.id)

/-- The homes acknowledge the SEQ and ONCE stores of the head entry: they are performed there, and the entry leaves (04 R81). A
store to a SEQ page commits the team (04 R84). -/
def execStoreAck (l t gi : Nat) (s : State) : Out :=
  .next (match s.gang? l t gi with
    | none => s
    | some g =>
      match g.stq with
      | [] => s
      | x :: _ =>
        if !x.sent then s
        else
          let core := s.coreOf l t
          let s1 := x.elems.foldl (fun s e =>
            match e.st, e.trans with
            | .pending, some ⟨_, .mem a, ty, _⟩ =>
              let s1 := if ty = PType.seq then s.commit l t else s
              s1.storeHome core (s.funcOf l t) ty a (leBytes e.src.toNat x.kind.size)
            | _, _ => s) s
          s1.dropStq l t gi x.id)

end Sys2Proof.Machine
end

