-- ==== Sys2Proof/Machine/Order.lean ====
section
/-! DEFINITION. Fences of the memory order and of translations (12 R276, R277, 03 R74, R75). -/

namespace Sys2Proof.Machine

/-! ### FENCE (12 R277) -/

/-- Hold the entry at a step of its fence, which is not taken again. -/
def State.fenceStall (s : State) (c : Cur) (why : Stall) (progress : Nat) : State :=
  (s.stall c why).modEntry c.launch c.team c.gang c.eid fun e => { e with progress := progress }

/-- The acknowledgements that a release of a scope waits for (04 R93, 12 R277): at cluster and device scope those of SEQ and ONCE stores and
of `ATOMR` lanes, from tenant scope on those of every fabric store. -/
def State.acksWait (s : State) (l t gi scope : Nat) : Option Stall :=
  if 4 ≤ scope && s.fabricOpen l t gi then some (.acks true)
  else if 2 ≤ scope && s.orderedOpen l t gi then some (.acks false) else none

/-- The last steps of a `FENCE`: acknowledgements, the zero-length read that goes behind the posted writes (progress 2 once it has been
issued), the acquire. -/
def State.fenceEnd (s : State) (c : Cur) (t : Team) (g : Gang) (scope kind : Nat) : State :=
  let rel := kind != 1
  match (if rel then s.acksWait c.launch c.team c.gang scope else none) with
  | some why => s.fenceStall c why 1
  | none =>
    if rel && scope == 5 && g.hostWrote then
      State.fenceStall (if g.progressOf c.eid = 2 then s else { s with sent := s.sent ++ [.zeroRead t.func] }) c .hostRead 2
    else
      let s1 := if kind != 2 && decide (2 ≤ scope) then s.acquire t.core else s
      s1.advance c

def execFence (sc : BitVec 3) (k : BitVec 2) (s : State) : Out :=
  s.withActive fun c t g =>
    let kind := k.toNat
    let (scope, s0) := s.limitScope t.func sc.toNat
    if 1 ≤ g.progressOf c.eid then s0.fenceEnd c t g scope kind
    else if g.ops.any (fun o => o.kind.isReturn && decide (o.seq < c.seq)) then s0.stall c .memReturn
    else if scope = 0 then s0.advance c
    else if kind = 1 then s0.fenceEnd c t g scope kind
    else if g.stq.any (fun x => decide (x.seq < c.seq)) then s0.stall c .stqEmpty
    else if scope < 2 then s0.fenceEnd c t g scope kind
    else if Config.markerMax ≤ (s0.core t.core).markers.length then s0.stall c .markers
    else
      let (m, s1) := (s0.commit c.launch c.team).insertMarker t.core c.launch c.team
      match m with
      | some id => s1.fenceStall c (.marker id) 1
      | none => s1.fenceEnd c t g scope kind

/-- The host link completes the zero-length read that a system fence issued behind its gang's posted writes (12 R277). -/
def execZeroLengthReadCompletion (l t gi : Nat) (s : State) : Out :=
  .next (s.modGang l t gi fun g =>
    if g.frontier.any (·.st == .stalled .hostRead) then { g with hostWrote := false } else g)

/-! ### Dropping translations (03 R74) -/

/-- Does a TLB entry belong to the victims: every entry of the function, or those of a 64 KiB page? -/
def TlbEntry.victim (e : TlbEntry) (func : Nat) (page : Option Nat) : Bool :=
  e.func == func && (match page with
    | none => true
    | some p => if e.big then p / 8192 == e.base else p == e.base)

/-- Cores of a scope's reach. -/
def reachCores (core scope : Nat) : List Nat :=
  if scope ≤ 1 then [core] else if scope = 2 then rangeFrom (bayOf core * 8) 8 else rangeFrom 0 640
/-- Dies whose TLB lies in a scope's reach. -/
def reachDies (core scope : Nat) : List Nat := if scope ≤ 2 then [dieOfCore core] else rangeFrom 0 8

/-- Drop victims from the TLBs in reach; walks in flight for them will not be installed. -/
def State.dropTlb (s : State) (cores dies : List Nat) (p : TlbEntry → Bool) (w : Walk → Bool) : State :=
  { s with
    cores := s.cores.map fun c => if cores.contains c.id then { c with tlb := c.tlb.filter (!p ·) } else c
    dies := s.dies.map fun d =>
      if dies.contains d.id then
        { d with tlb := d.tlb.filter (!p ·), walks := d.walks.map fun x => if w x then { x with noInstall := true } else x }
      else d }

/-- Operations and queue entries of a function's gangs on cores in reach that hold a translation which satisfies `q`. -/
def State.usersOf (s : State) (cores : List Nat) (func : Nat) (q : Elem → Bool) : List (Nat × Nat × Nat × Nat) :=
  (s.teams.filter fun t => t.func == func && cores.contains t.core).flatMap fun t => t.gangs.flatMap fun g =>
    ((g.ops.filter fun o => o.elems.any fun e => e.open_ && e.trans.isSome && q e).map fun o => (t.launch, t.num, g.idx, o.id)) ++
    ((g.stq.filter fun x => x.elems.any fun e => e.open_ && q e).map fun x => (t.launch, t.num, g.idx, x.id))

/-- Fabric requests of a function on cores in reach, those of gangs and of copies alike. -/
def State.reqUsers (s : State) (cores : List Nat) (func : Nat) : List (Nat × Nat) :=
  (s.cores.filter fun c => cores.contains c.id).flatMap fun c =>
    (c.reqs.filter fun r => r.func == func).map fun r => (c.id, r.id)

/-- Cores in reach that hold dirty lines of a function's REL stores, or on which one of the given users runs. -/
def State.dirtyCores (s : State) (cores : List Nat) (func : Nat) (ops : List (Nat × Nat × Nat × Nat)) : List Nat :=
  ((s.cores.filter fun c => cores.contains c.id &&
    (c.fifo.any (fun x => ((findLine c.cache x.line).map (·.func == func)).getD false) ||
      ops.any fun x => s.coreOf x.1 x.2.1 == c.id)).map (·.id))

/-- Begin an invalidation: drop, and note what is in flight. Stores that are performed in a core cache only are performed at scope by
markers (`perform`). -/
def State.beginInval (s : State) (func : Nat) (owner : Option Nat) (cores dies : List Nat) (p : TlbEntry → Bool)
    (w : Walk → Bool) (q : Elem → Bool) (waiting : List Nat) (perform : Bool) (ack : Option (Nat × Nat)) : Nat × State :=
  let (id, s1) := s.take
  let ops := s1.usersOf cores func q
  let marks := if perform then s1.dirtyCores cores func ops else []
  let f : TFence := ⟨id, owner, waiting, ops, s1.reqUsers cores func, marks, [], ack⟩
  (id, { s1.dropTlb cores dies p w with tfences := s1.tfences ++ [f] })

/-- Insert the markers that perform an invalidation's stores at scope, on cores that have room. -/
def State.markInval (s : State) (f : TFence) : State :=
  f.cores.foldl (fun s k =>
    if Config.markerMax ≤ (s.core k).markers.length then s
    else
      let (m, s1) := s.insertMarker k 0 0
      { s1 with tfences := modIf (fun x => x.id == f.id) (fun x =>
          { x with cores := x.cores.filter (· != k)
                   marks := (match m with
                     | some id => x.marks ++ [(k, id)]
                     | none => x.marks) }) s1.tfences }) s

/-- Other devices of a function's tenant, with its function there: those that its virtual-device entries name. -/
def State.tenantPeers (s : State) (func : Nat) : List (Nat × Nat) :=
  let all := (rangeFrom 0 (s.func func).cfg.vlimit).filterMap fun v =>
    match s.resolve func v with
    | .ok d => if d.dev = s.device then none else some (d.dev, d.func)
    | .error _ => none
  all.foldl (fun l x => if l.contains x then l else l ++ [x]) []

/-! ### TFENCE (03 R74) -/

/-- One `TFENCE`: drain the gang's earlier stores to their homes, drop the victims in reach, wait for the accesses that used
them, and at tenant scope for the peers. -/
def State.tfence (s : State) (sc : BitVec 3) (page : Gang → Option Nat) (free : Gang → Gang) : Out :=
  s.withActive fun c t g =>
    let scope := sc.toNat
    match g.resumeOf c.eid with
    | some id =>
      (match s.tfences.find? (·.id == id) with
       | none => s.advance c
       | some f =>
         if s.fenceOpen f then s.stall c (.tfence id)
         else if f.cores.isEmpty then { s.advance c with tfences := s.tfences.filter (·.id != id) }
         else (s.markInval f).stall c (.tfence id))
    | none =>
      let drop (s : State) : State :=
        let va := page g
        let peers := if scope = 4 then s.tenantPeers t.func else []
        let s1 := s.putGang c.launch c.team c.gang ((s.gang? c.launch c.team c.gang).map free |>.getD g)
        let (id, s2) := s1.beginInval t.func none (reachCores t.core scope) (reachDies t.core scope)
          (fun e => e.victim t.func va)
          (fun w => w.func == t.func && (va.map (· == w.page)).getD true)
          (fun e => (va.map (· == gvaOf (BitVec.ofNat 64 e.va) / 65536)).getD true)
          (peers.map (·.1)) (decide (2 ≤ scope)) none
        let s3 := { s2 with sent := s2.sent ++ peers.map fun (x : Nat × Nat) =>
          Sent.tlbInvalidate x.1 id x.2 va.isNone (va.getD 0) }
        (s3.stall c (.tfence id)).modEntry c.launch c.team c.gang c.eid fun e => { e with resume := .op id }
      if g.progressOf c.eid = 1 then (if s.fabricOpen c.launch c.team c.gang then s.fenceStall c (.acks true) 1 else drop s)
      else if g.stq.any (fun x => decide (x.seq < c.seq)) then s.stall c .stqEmpty
      else if Config.markerMax ≤ (s.core t.core).markers.length then s.stall c .markers
      else
        match s.insertMarker t.core c.launch c.team with
        | (some id, s1) => s1.fenceStall c (.marker id) 1
        | (none, s1) => if s1.fabricOpen c.launch c.team c.gang then s1.fenceStall c (.acks true) 1 else drop s1

def execTfence (a : Opnd) (sc : BitVec 3) (s : State) : Out :=
  s.tfence sc (fun g => some (gvaOf (g.uniOp a) / 65536)) fun g => g.freeLastS a []
def execTfenceAll (sc : BitVec 3) (s : State) : Out := s.tfence sc (fun _ => none) id

/-- A peer's invalidations are acknowledged once every access that used a dropped entry is performed. -/
def State.ackInvals (s : State) : State :=
  (s.tfences.filter fun f => f.ack.isSome).foldl (fun s f =>
    if s.fenceOpen f then s
    else if !f.cores.isEmpty then s.markInval f
    else
      match f.ack with
      | some (src, id) => { s with tfences := s.tfences.filter (fun x => x.id != f.id), sent := s.sent ++ [.tlbAck src id] }
      | none => s) s

/-- A peer's invalidation (03 R74): this device drops the victims everywhere and acknowledges as `TFENCE` completes. -/
def execTlbInvalidationMessage (src id func : Nat) (all : Bool) (page : Nat) (s : State) : Out :=
  let p : Option Nat := if all then none else some page
  .next (s.beginInval func none (rangeFrom 0 640) (rangeFrom 0 8) (fun e => e.victim func p)
    (fun w => w.func == func && (all || w.page == page))
    (fun e => all || gvaOf (BitVec.ofNat 64 e.va) / 65536 == page) [] true (some (src, id))).2.ackInvals

def execTlbInvalidationAck (id dev : Nat) (s : State) : Out :=
  .next { s with tfences := modIf (fun f => f.id == id) (fun f => { f with waiting := f.waiting.filter (· != dev) }) s.tfences }

/-! ### Stage-2 invalidation (03 R75, 16 R368) -/

/-- Does a TLB entry's guest physical frame fall in a range? -/
def TlbEntry.inGpa (e : TlbEntry) (func lo hi : Nat) : Bool :=
  let g := gpaOf e.leaf1 e.lvl1 (e.base * (if e.big then 2 ^ 29 else 65536)) / 65536 * 65536
  let size := if e.big then 2 ^ 29 else 65536
  e.func == func && decide (g < hi) && decide (lo < g + size)

/-- A stage-2 invalidation completes once the accesses that used a dropped entry are performed. -/
def execInvalidationComplete (func : Nat) (s : State) : Out :=
  .next (match s.tfences.find? (·.func == some func) with
    | none => s
    | some f =>
      if s.fenceOpen f then s
      else if !f.cores.isEmpty then s.markInval f
      else { s.modFunc func fun x => { x with invCmd := x.invCmd &&& ~~~ (1#64 <<< 63) } with
             tfences := s.tfences.filter (·.id != f.id) })

end Sys2Proof.Machine
end

