-- ==== Sys2Proof/Machine/Reduce.lean ====
section
/-! DEFINITION. Reducing writes at a home (05 R117): exact sums in reduction entries, and the steps that are exact by themselves. -/

namespace Sys2Proof.Machine

/-- Element format and bytes of a reduction type: F32, BF16, I32. -/
def redFmt (rtype : Nat) : Fmt := if rtype = 1 then fBF16 else fF32
def redSize (rtype : Nat) : Nat := if rtype = 1 then 2 else 4
/-- Exponent of an accumulator's unit: the smallest subnormal of the type. -/
def redUnit (rtype : Nat) : Int := if rtype = 1 then -133 else -149

def RedAcc.zero : RedAcc := ⟨0, false, false, false⟩

/-- Add one element exactly. -/
def RedAcc.add (rtype : Nat) (a : RedAcc) (bits : Nat) : RedAcc :=
  match (redFmt rtype).val bits with
  | .nan => { a with nan := true }
  | .inf neg => if neg then { a with ninf := true } else { a with pinf := true }
  | .fin _ q => { a with acc := a.acc + q.n * (2 : Int) ^ (q.e - redUnit rtype).toNat / (q.d : Int) }

/-- The element that an accumulator gives: rounded once to nearest even. A sum that is exactly zero gives +0 (log 74). -/
def RedAcc.bits (rtype : Nat) (a : RedAcc) : Nat :=
  let f := redFmt rtype
  if a.nan || (a.pinf && a.ninf) then f.nan
  else if a.pinf then f.inf false
  else if a.ninf then f.inf true
  else f.round .rne (.fin (decide (a.acc < 0)) ⟨a.acc, 1, redUnit rtype⟩)

/-- Home lines that a tenant's ways can hold in one die: 65,536 lines a way (04 Table 4-1). -/
def Func.homeLines (f : Func) : Nat := popcount f.cfg.hways.toNat 24 * Config.wayLines

/-- Can another reduction entry open for a function at a home (05 R117)? Each holds three lines of its ways. -/
def State.redRoom (s : State) (func sec : Nat) : Bool :=
  let n := (s.reds.filter fun r => r.func == func && homeDie (r.sector * 32) == homeDie (sec * 32)).length
  decide (3 * (n + 1) ≤ (s.func func).homeLines)

/-- The entry of a sector: the open one, or a new one with the values that the home reads there. -/
def State.redEntry (s : State) (func sec rtype : Nat) : Option (RedEntry × State) :=
  match s.reds.find? fun r => r.sector == sec && r.op == 1 && r.rtype == rtype with
  | some r => some (r, s)
  | none =>
    if !(s.closeRed sec).redRoom func sec then none
    else
      let n := redSize rtype
      let s1 := s.homeFill sec func none
      some (⟨sec, 1, rtype, func, (rangeFrom 0 (32 / n)).map fun k =>
        RedAcc.zero.add rtype (leNat (s1.homeRead (sec * 32 + n * k) n))⟩, s1)

/-- Change each element of a run of bytes: `f` takes the old element and the contribution. -/
def mapElems (n : Nat) (f : Nat → Nat → Nat) (old new : List Byte) : List Byte :=
  (rangeFrom 0 (new.length / n)).flatMap fun k => leBytes (f (leField old (n * k) n) (leField new (n * k) n)) n

/-- A reducing write of operation `op` (1 sum, 2 min, 3 max) performed at the home; none when it has to wait for an entry. The
bytes lie in one sector and hold whole elements. -/
def State.reduceWrite (s : State) (a func op rtype : Nat) (bytes : List Byte) (bad : Bool) : Option State :=
  let n := redSize rtype
  let sec := sectorOf a
  if op = 1 && rtype != 2 then
    match s.redEntry func sec rtype with
    | none => none
    | some (r, s0) =>
      let k0 := (a % 32) / n
      let accs := r.accs.mapIdx fun k x =>
        if k0 ≤ k && decide (k < k0 + bytes.length / n) then x.add rtype (leField bytes (n * (k - k0)) n) else x
      let out := (rangeFrom k0 (bytes.length / n)).flatMap fun k => leBytes ((accs.getD k RedAcc.zero).bits rtype) n
      let s1 := s0.homeWrite a func out bad
      some { s1 with reds := { r with accs := accs } :: s1.reds.filter fun x => x.sector != sec }
  else
    let f (x y : Nat) : Nat :=
      if rtype = 2 then
        (match op with
         | 1 => (x + y) % 2 ^ 32
         | 2 => if sext y 32 < sext x 32 then y else x
         | _ => if sext x 32 < sext y 32 then y else x)
      else (redFmt rtype).minmax (op == 3) x y
    let (old, _, s0) := s.homeLoad a bytes.length func
    some (s0.homeWrite a func (mapElems n f old bytes) bad)

end Sys2Proof.Machine
end

