-- ==== Sys2Proof/Machine/Copy.lean ====
section
/-! DEFINITION. Copy engines (chapter 06): descriptors and their checks, chunks, range locks, `CPY` and its relatives, `CPYT`, copy
control and `CPYQ`. -/

namespace Sys2Proof.Machine

/-! ### Descriptors (06 R128) -/

structure CDesc where
  pad : Nat
  rtype : Nat
  red : Nat
  mcast : Bool
  scale : Bool
  ragged : Nat
  dswz : Nat
  perm : Nat
  esize : Nat
  dcore : Nat
  dkind : Nat
  skind : Nat
  src : Nat
  dst : Nat
  e0 : Nat
  e1 : Nat
  e2 : Nat
  ss1 : Int
  ss2 : Int
  ds1 : Int
  ds2 : Int
  aux : Nat
  cookie : W32
  chain : Nat
deriving DecidableEq, Repr

def wordAt (ws : List W64) (k : Nat) : Nat := (ws.getD k 0).toNat

/-- Read a descriptor (06 Tables 6-1, 6-2). -/
def cdescOf (ws : List W64) : CDesc :=
  let w0 := wordAt ws 0
  ⟨fld w0 48 8, fld w0 42 2, fld w0 40 2, w0.testBit 39, w0.testBit 38, fld w0 36 2, fld w0 32 4, fld w0 28 3, fld w0 25 3,
   fld w0 22 3, fld w0 19 3, fld w0 16 3, wordAt ws 1, wordAt ws 2, fld (wordAt ws 3) 0 24, fld (wordAt ws 3) 24 24,
   fld (wordAt ws 3) 48 16, sext (wordAt ws 4) 32, sext (wordAt ws 4 / 2 ^ 32) 32, sext (wordAt ws 5) 32,
   sext (wordAt ws 5 / 2 ^ 32) 32, wordAt ws 6, BitVec.ofNat 32 (wordAt ws 7 / 2 ^ 32), fld (wordAt ws 7) 0 8⟩

def CDesc.size (d : CDesc) : Nat := 2 ^ d.esize
def CDesc.elems (d : CDesc) : Nat := d.e0 * d.e1 * d.e2
/-- Indices of an enumeration index (06 R130). -/
def CDesc.index (d : CDesc) (k : Nat) : Nat × Nat × Nat := (k % d.e0, k / d.e0 % d.e1, k / (d.e0 * d.e1))

/-- The lens (06 Table 6-3). -/
def permute (p : Nat) (i : Nat × Nat × Nat) : Nat × Nat × Nat :=
  let (i0, i1, i2) := i
  match p with
  | 1 => (i1, i0, i2)
  | 2 => (i0, i2, i1)
  | 3 => (i2, i1, i0)
  | 4 => (i1, i2, i0)
  | 5 => (i2, i0, i1)
  | _ => (i0, i1, i2)

/-- Source address or offset of an element (06 R130, R131); `row` is its row-table word. -/
def CDesc.srcAt (d : CDesc) (k : Nat) (row : W64) : Int :=
  let (i0, i1, i2) := d.index k
  let base : Int := (d.src : Int) + d.size * i0 + d.ss2 * i2
  if d.ragged = 0 then base + d.ss1 * i1 else base + fld row.toNat 0 32

/-- Destination address or offset of an element (06 R130, R132). -/
def CDesc.dstAt (d : CDesc) (k : Nat) : Int :=
  let (i0, i1, _) := d.index k
  if d.scale then
    let o := d.aux.testBit 8
    let m := if o then i0 else i1
    let kk := if o then i1 else i0
    let mb := if o then d.e0 else d.e1
    let kb := if o then d.e1 else d.e0
    (d.dst : Int) + 2 * (if d.aux.testBit 9 then m + mb * kk else kk + kb * m : Nat)
  else
    let (j0, j1, j2) := permute d.perm (d.index k)
    (d.dst : Int) + d.size * j0 + d.ds1 * j1 + d.ds2 * j2

/-- Row-table address of an element (06 R131). -/
def CDesc.rowAt (d : CDesc) (k : Nat) : Nat :=
  let (_, i1, i2) := d.index k
  (d.aux + 8 * (i1 + d.e1 * i2)) % 2 ^ 64

/-- Lowest and highest byte of a span of strides. -/
def spanOf (base : Int) (size : Nat) (dims : List (Nat × Int)) : Int × Int :=
  let lo := dims.foldl (fun a (x : Nat × Int) => a + min 0 (x.2 * ((x.1 : Int) - 1))) base
  let hi := dims.foldl (fun a (x : Nat × Int) => a + max 0 (x.2 * ((x.1 : Int) - 1))) base
  (lo, hi + size - 1)

/-- Bytes that a copy of at least one element may touch (06 R136). A ragged row may start at any 32-bit offset. -/
def CDesc.srcSpan (d : CDesc) : Int × Int :=
  if d.ragged = 0 then spanOf d.src d.size [(d.e0, d.size), (d.e1, d.ss1), (d.e2, d.ss2)]
  else
    let (lo, hi) := spanOf d.src d.size [(d.e0, d.size), (d.e2, d.ss2)]
    (lo, hi + (2 ^ 32 - 1))
def CDesc.dstSpan (d : CDesc) : Int × Int :=
  if d.scale then (d.dst, (d.dst : Int) + 2 * (d.e0 * d.e1 : Nat) - 1)
  else
    let (n0, n1, n2) := permute d.perm (d.e0, d.e1, d.e2)
    spanOf d.dst d.size [(n0, d.size), (n1, d.ds1), (n2, d.ds2)]

/-! ### Checks (06 R129, Table 6-4) -/

/-- Lowest set bit of a field of a word, when the field is not zero. -/
def mustZero (ws : List W64) (w lo n : Nat) : Option Nat :=
  if zeroBits (wordAt ws w) lo n then none else some (w * 256 + lowestBit (wordAt ws w) lo n)

/-- A check that names the lowest bit of a field. -/
def failing (bad : Bool) (w lo : Nat) : Option Nat := if bad then some (w * 256 + lo) else none

/-- The checks that ask only the descriptor, in the order of Table 6-4: fault code and word-and-bit detail. -/
def staticChecks (ws : List W64) : Option Flt :=
  let d := cdescOf ws
  let first (l : List (Option Nat)) (c : FaultCode) : Option Flt := (l.findSome? id).map fun x => ⟨c, x⟩
  (first [mustZero ws 0 31 1, mustZero ws 0 44 4, mustZero ws 0 56 8, mustZero ws 7 8 24, failing (decide (4 < d.esize)) 0 25,
      failing (decide (4 < d.skind)) 0 16, failing (decide (4 < d.dkind)) 0 19, failing (decide (5 < d.perm)) 0 28,
      failing (decide (7 < d.dswz)) 0 32, failing (d.ragged == 3) 0 36, failing (d.rtype == 3 && d.red != 0) 0 42] .illEnc).orElse
  fun _ => (first [failing (d.skind == 1 || d.skind == 4) 0 16, failing (d.dkind == 3) 0 19] .bufRights).orElse
  fun _ => (first [failing (d.red != 0 && (d.dkind != 0 || d.esize != (if d.rtype = 1 then 1 else 2) || d.mcast || d.scale)) 0 40,
      if d.red = 0 then mustZero ws 0 42 2 else none,
      failing (d.mcast && (d.dkind == 0 || d.dcore != 0 || d.chain == 0)) 0 39,
      if d.mcast then none else mustZero ws 7 0 8,
      failing (d.scale && d.dkind != 4) 0 38, failing (d.dkind == 4 && !d.scale) 0 19,
      failing (d.scale && (d.esize != 1 || d.perm != 0 || d.ragged != 0 || d.dswz != 0 || d.e2 != 1 || wordAt ws 5 != 0)) 0 38,
      failing (d.scale && fld d.aux 0 8 != 32) 6 0, if d.scale then mustZero ws 6 10 54 else none,
      if d.dkind = 0 then mustZero ws 0 32 4 else none,
      if d.ragged = 0 && !d.scale then mustZero ws 6 0 64 else none] .illEnc)

/-- Cores of the bay that a buffer destination names, the first one first. -/
def CDesc.cores (d : CDesc) : List Nat :=
  if d.mcast then (rangeFrom 0 8).filter d.chain.testBit else [d.dcore]

/-- The team of the issuing cluster on a core of the bay (07 R156). -/
def State.sibling (s : State) (t : Team) (k : Nat) : Option Team :=
  s.teams.find? fun x => x.launch == t.launch && x.cluster == t.cluster && x.core == bayOf t.core * 8 + k

def outOf (span : Int × Int) (size : Nat) : Bool := decide (span.1 < 0) || decide ((size : Int) ≤ span.2)

/-- The checks that ask the issuing cluster: buffer cores, alignment, offset ranges. -/
def State.clusterChecks (s : State) (t : Option Team) (ws : List W64) : Option Flt :=
  let d := cdescOf ws
  let noTeam : Option Flt :=
    if d.dkind = 0 then none
    else (d.cores.find? fun k => ((t.bind fun t => s.sibling t k)).isNone).map fun k =>
      ⟨.bufRights, if d.mcast then 7 * 256 + k else 22⟩
  let mis (v : Int) (w lo : Nat) : Option Nat := if v % d.size ≠ 0 then some (w * 256 + lo) else none
  let misaligned : Option Flt := ([mis d.src 1 0, mis d.dst 2 0, mis d.ss1 4 0, mis d.ss2 4 32, mis d.ds1 5 0, mis d.ds2 5 32].findSome?
    id).map fun x => ⟨.misalign, x⟩
  let bound : Option Flt :=
    if d.elems = 0 then none
    else
      let src := d.skind != 0 && d.ragged == 0 &&
        (t.map fun t => outOf d.srcSpan (t.tilesIn (bufOf (d.skind - 1)) * tileSize (bufOf (d.skind - 1)))).getD false
      let dst := d.dkind != 0 && d.cores.any fun k =>
        ((t.bind fun t => s.sibling t k).map fun x =>
          outOf d.dstSpan (x.tilesIn (bufOf (d.dkind - 1)) * tileSize (bufOf (d.dkind - 1)))).getD false
      if src then some ⟨.bufBound, 256⟩ else if dst then some ⟨.bufBound, 512⟩ else none
  noTeam.orElse fun _ => misaligned.orElse fun _ => bound

def State.checkDesc (s : State) (t : Option Team) (ws : List W64) : Option Flt :=
  (staticChecks ws).orElse fun _ => s.clusterChecks t ws

/-! ### Starting a copy (06 R136, R138, R142) -/

/-- Range-lock entries of a copy. An interval begins at an address modulo 2^64, as the elements' addresses count (06 R130). -/
def CDesc.locks (d : CDesc) (id func : Nat) : List Lock :=
  let one (dest : Bool) (p : Int × Int) : Lock :=
    let lo := (p.1 / 32 * 32 % (2 ^ 64 : Nat)).toNat
    ⟨id, false, func, dest, lo, lo + ((p.2 / 32 + 1) * 32 - p.1 / 32 * 32).toNat, [], d.cookie⟩
  if d.elems = 0 then []
  else (if d.skind = 0 then [one false d.srcSpan] else []) ++ (if d.dkind = 0 then [one true d.dstSpan] else [])

/-- The 64 chunks of `n` elements. -/
def chunksOf (n phase : Nat) : List Chunk :=
  (rangeFrom 0 64).map fun k =>
    let a := k * n / 64
    let b := (k + 1) * n / 64
    ⟨a, b, phase, if a = b then .done else .idle, 0, 0, false⟩

/-- Does any page of a span translate to a SEQ page (06 R135)? -/
def State.touchesSeq (s : State) (core func : Nat) (need : Need) (p : Int × Int) : Bool :=
  (rangeFrom 0 (p.2 / 65536 + 1 - p.1 / 65536).toNat).any fun k =>
    let a := BitVec.ofInt 64 ((p.1 / 65536 + k) * 65536)
    let r := match s.lookup core func (gvaOf a) need .copy with
      | some r => r
      | none => (s.translate func (gvaOf a) need .copy).1
    match r with
    | .ok t => t.ty == .seq
    | .error _ => false

def CDesc.seq (d : CDesc) (s : State) (core func : Nat) : Bool :=
  d.elems != 0 && ((d.ragged != 0 && s.touchesSeq core func .read (d.aux, (d.aux : Int) + 8 * (d.e1 * d.e2 : Nat) - 1)) ||
    (d.skind == 0 && s.touchesSeq core func .read d.srcSpan) || (d.dkind == 0 && s.touchesSeq core func .write d.dstSpan))

/-- A copy begins: it takes its slot and its range locks. -/
def State.startCopy (s : State) (core : Nat) (x : Copy) (locks : Nat → List Lock) : Nat × State :=
  let (id, s1) := s.take
  (id, s1.modCore core fun c => { c with copies := c.copies ++ [{ x with id := id }], locks := c.locks ++ locks id })

/-- `CPY`, `CPYR` and `CPYM` (06 R142); `variant` is the demand of Table 6-7. -/
def State.copyOp (s : State) (r : BitVec 6) (bar : BitVec 5) (ord : Bool) (variant : CDesc → Bool) : Out :=
  s.withActive fun c t g =>
    s.afterAcq c g <|
    let ws := (rangeFrom 0 8).map fun k => g.uni (r.toNat + k)
    let d := cdescOf ws
    let flag := g.setBOf c.eid
    if bar.toNat < 16 && !(t.bar bar.toNat).set then s.illValue c
    else
      match s.checkDesc (some t) ws with
      | some f => s.raiseAll c f
      | none =>
        let isSeq := d.seq s t.core t.func
        if !variant d then s.illValue c
        else if isSeq && s.seqPending c.launch c.team c.gang g c.seq then s.stall c .seqAccess
        else if !s.copySlotFree t.core c.seq then s.stall c .copySlot
        else if !s.lockFree t.core c.seq (d.locks 0 0).length then s.stall c .rangeLock
        else if g.flagFull flag then s.stall c (.flagFull flag)
        else
          let x : Copy := ⟨0, .gang c.launch c.team c.gang, ws, c.pc, c.word, c.mask, flag, bar.toNat, ord, if ord then c.seq else 0,
            isSeq, none, chunksOf d.elems (if d.ragged = 0 then 1 else 0), []⟩
          let (_, s1) := s.startCopy t.core x fun id => d.locks id t.func
          (s1.modGang c.launch c.team c.gang (·.flagUp flag)).advanceRegion c

def execCpy (r : BitVec 6) (b : BitVec 5) (o : Bool) (s : State) : Out := s.copyOp r b o fun d => d.red == 0 && !d.mcast
def execCpyr (r : BitVec 6) (b : BitVec 5) (o : Bool) (s : State) : Out := s.copyOp r b o fun d => d.red != 0
def execCpym (r : BitVec 6) (b : BitVec 5) (o : Bool) (s : State) : Out := s.copyOp r b o fun d => d.mcast

/-! ### The issuing context of a copy -/

def State.copy? (s : State) (core id : Nat) : Option Copy := (s.core core).copies.find? (·.id == id)
def State.modCopy (s : State) (core id : Nat) (f : Copy → Copy) : State :=
  s.modCore core fun c => { c with copies := modIf (·.id == id) f c.copies }
def State.modChunk (s : State) (core id k : Nat) (f : Chunk → Chunk) : State :=
  s.modCopy core id fun x => { x with chunks := modAt x.chunks k f }
def Copy.chunk (x : Copy) (k : Nat) : Chunk := x.chunks.getD k ⟨0, 0, 0, .done, 0, 0, false⟩

def State.copyFunc (s : State) (x : Copy) : Nat :=
  match x.owner with
  | .gang l t _ => s.funcOf l t
  | .queue f _ _ _ => f
def Copy.team (x : Copy) : Option (Nat × Nat) :=
  match x.owner with
  | .gang l t _ => some (l, t)
  | .queue _ _ _ _ => none
/-- Cluster that a copy belongs to; none for a queue packet's. -/
def State.copyCluster (s : State) (x : Copy) : Option (Nat × Nat) := x.team.bind fun y => s.clusterOf y.1 y.2

/-- A chunk ends in a terminal fault (06 R139): to the issuing gang, with the chunk's number and the cookie, or to the queue. -/
def State.chunkFault (s : State) (core id k : Nat) (code : FaultCode) (detail : Nat) (flags : Nat := 0) : State :=
  match s.copy? core id with
  | none => s
  | some x =>
    let s1 := s.modChunk core id k fun y => { y with st := .fault }
    let cookie := if x.store.isSome then x.word else (cdescOf x.words).cookie
    match x.owner with
    | .gang l t g => s1.raiseAt l t g x.mask code detail x.pc cookie k flags
    | .queue f page _ slot =>
      match s1.queue? f page with
      | none => s1
      | some q =>
        (s1.post { queueRecord f q.header slot code detail with unit := k, word := cookie, flags := 1 + flags }).modQueue f page
          fun q => { q with stopped := true, readable := false }

/-! ### Accesses of an element -/

/-- Answer of a copy unit's access: done, wait and try again, a request sent, or a fault. `bad` marks the bytes that are poisoned. -/
inductive CopyAcc where
  | done (bytes : List Byte) (bad : BitVec 32)
  | later
  | walking
  | sent (req : Nat)
  | flt (f : Flt)
deriving DecidableEq, Repr

/-- Types that a copy may read or write (06 Table 6-5). -/
def copyTypes (write red : Bool) (t : Trans) : Bool :=
  let rs := t.ty == .rel || t.ty == .seq
  if red then rs else if write then rs || t.ty == .once else rs || !t.tgt.isPeer

/-- Buffers that a copy may read or write (07 Table 7-2). -/
def copyBuf (write : Bool) (b : Buf) : Bool := if write then b != .cb else b == .ab || b == .cb

/-- Checks 3 to 7 of a copy unit's access (06 R131, R134, R144). The faults of a chunk whose code gives no detail of its own carry the
address (`named`, R139). A reducing write is performed at a home, so that it faults PERM as an atomic does where its target has none
(03 R67, log 78). -/
def State.copyCheck (s : State) (core func va n : Nat) (write red named : Bool) : Option (Except Flt Trans) :=
  let a := BitVec.ofNat 64 va
  let flt (code : FaultCode) : Option (Except Flt Trans) := some (.error ⟨code, if named then va else 0⟩)
  if !addrOk a then some (.error ⟨.perm, 6⟩)
  else if va % n ≠ 0 then some (.error ⟨.misalign, va⟩)
  else
    match s.lookup core func (gvaOf a) (if write then .write else .read) .copy with
    | none => none
    | some (.error f) => some (.error f)
    | some (.ok t) =>
      let kind : Option Flt := match t.tgt with
        | .peer v _ => (match s.resolve func v with
          | .error f => some f
          | .ok _ => none)
        | .mem _ => none
        | _ => if red then some ⟨.perm, 5⟩ else none
      match kind with
      | some f => some (.error f)
      | none =>
        if !copyTypes write red t then flt .typeOp
        else
          match t.tgt with
          | .buf _ b off sliceEnd =>
            if !copyBuf write b then flt .bufRights
            else if decide (sliceEnd < off + n) || decide (bufSize b < off + n) then flt .bufBound
            else some (.ok t)
          | _ => some (.ok t)

/-- Queue the walk of a copy unit's access. -/
def State.copyWalk (s : State) (core func va : Nat) (write : Bool) (who : Waiter) : CopyAcc × State :=
  let gva := gvaOf (BitVec.ofNat 64 va)
  if s.walkFull core func gva then (.later, s)
  else (.walking, s.queueWalk core func gva ⟨who, if write then .write else .read, gva⟩)

/-- Every byte of a sector poisoned, or none. -/
def allBad (b : Bool) : BitVec 32 := if b then BitVec.allOnes 32 else 0

/-- A source sector in device memory: the bytes valid in the issuing core's cache, the rest from the home (06 R135). Another team's
uncommitted bytes are written back first (14 R332). -/
def State.copyLocal (s : State) (core func : Nat) (me : Option (Nat × Nat)) (a : Nat) : (List Byte × BitVec 32) × State :=
  let s1 := s.yieldSector core a me
  let c := s1.core core
  let hit (i : Nat) : Bool := c.holds (a + i) 1
  let ks := rangeFrom 0 32
  let s2 := if ks.all hit then s1 else s1.homeFill (sectorOf a) func none
  ((ks.map fun i => if hit i then (c.cacheRead (a + i) 1).getD 0 0 else s2.homeGet (a + i),
    maskOf (ks.filter fun i => if hit i then c.cachePoison a else s2.homePoison (sectorOf a))), s2)

/-- Read a whole source sector, the one that holds a translated address (06 R135). -/
def State.copySector (s : State) (core func : Nat) (me : Option (Nat × Nat)) (t : Trans) (owner : ReqOwner) : CopyAcc × State :=
  match t.tgt with
  | .mem a =>
    let (r, s1) := s.copyLocal core func me (a / 32 * 32)
    (.done r.1 r.2, s1)
  | .host pa => (.done (s.hostRead (pa / 32 * 32) 32).1 0, (s.hostRead (pa / 32 * 32) 32).2)
  | .buf k b off _ =>
    if s.tileEmpty k b (off / tileSize b) then (.later, s)
    else
      let (bs, bad) := s.windowRead k b (off / 32 * 32) 32
      (.done bs (allBad bad), s)
  | .peer v gpa =>
    if !s.reqRoom core then (.later, s)
    else
      match s.resolve func v with
      | .error f => (.flt f, s)
      | .ok d =>
        let (id, s1) := s.send core owner 0 t.ty func v (d.packet .copyRead (gpa / 32 * 32) 32 0)
        (.sent id, s1)
  | .notify _ _ => (.flt ⟨.perm, 5⟩, s)

/-- The place of the sector that holds an access, and the access's offset in it. -/
def State.sectorPlace (s : State) (func : Nat) (t : Tgt) : Tgt × Nat :=
  match s.placeOf func t 0 with
  | .mem a => (.mem (a / 32 * 32), a % 32)
  | .host a => (.host (a / 32 * 32), a % 32)
  | .buf k b off _ => (.buf k b (off / 32 * 32) 0, off % 32)
  | .peer k a => (.peer k (a / 32 * 32), a % 32)
  | .notify page off => (.notify page (off / 32 * 32), off % 32)

/-- A write outside the cluster's own allotments takes away its rollback (14 R330). -/
def State.copyOut (s : State) (x : Copy) (t : Tgt) : State :=
  let inside := match t with
    | .buf k b off _ => s.teams.any fun y =>
        y.core == k && y.holdsTile b (off / tileSize b) && s.copyCluster x == some (y.launch, y.cluster)
    | _ => false
  match x.team with
  | some (l, t) => if inside then s else s.modTeam l t fun y => { y with wroteOut := true }
  | none => s

/-- Count bytes of a copy's first destination on its barrier as they land (06 R140). -/
def State.copyCount (s : State) (x : Copy) (n : Nat) : State :=
  match x.owner with
  | .gang l t _ => if x.bar < 16 then s.modTeam l t fun y => y.setBar x.bar ((y.bar x.bar).land n) else s
  | .queue _ _ _ _ => s

/-- Write `n` bytes of a copy at a guest virtual address (06 R133). -/
def State.copyWrite (s : State) (core : Nat) (x : Copy) (red rtype va n : Nat) (bytes : List Byte) (bad : Bool) (who : Waiter)
    (owner : ReqOwner) : CopyAcc × State :=
  let func := s.copyFunc x
  match s.copyCheck core func va n true (red != 0) true with
  | none => s.copyWalk core func va true who
  | some (.error f) => (.flt f, s)
  | some (.ok t) =>
    let s1 := s.copyOut x t.tgt
    match t.tgt with
    | .mem a =>
      if red = 0 then (.done [] 0, (s1.homeWrite a func bytes bad).copyCount x n)
      else
        match s1.reduceWrite a func red rtype bytes bad with
        | none => (.later, s)
        | some s2 => (.done [] 0, s2.copyCount x n)
    | .host pa => (.done [] 0, State.copyCount { s1 with sent := s1.sent ++ [Sent.hostWrite pa n (packBytes bytes)] } x n)
    | .buf k b off _ => (.done [] 0, (s1.landBytes k b off bytes bad (s.copyCluster x)).copyCount x n)
    | .peer v gpa =>
      if !s.reqRoom core then (.later, s)
      else
        match s.resolve func v with
        | .error f => (.flt f, s)
        | .ok d =>
          let p := { d.packet (if red = 0 then .copyWrite else .reduce) gpa n (packBytes bytes) with
            op := red, rtype := rtype, poison := bad }
          let (id, s2) := s1.send core owner 0 t.ty func v p
          (.sent id, s2)
    | .notify _ _ => (.flt ⟨.perm, 5⟩, s)

/-! ### One element of a chunk (06 R131, R133, R138) -/

/-- The offset of a buffer destination after the destination swizzle (06 R130). -/
def CDesc.placed (d : CDesc) (off : Nat) : Nat :=
  if d.dswz = 0 then off else off / 65536 * 65536 + swizzle d.dswz (off % 65536)

/-- The element is done; the chunk goes on to the next, reading the row table where a row begins. -/
def CDesc.step (d : CDesc) (c : Chunk) : Chunk :=
  let n := c.next + 1
  let newRow := d.ragged != 0 && n % d.e0 == 0
  { c with next := n, phase := if newRow then 0 else 1, st := if n = c.last then .done else .running }

/-- What an access's answer does to its chunk. -/
def State.chunkTake (s : State) (core id k : Nat) (onDone : State → List Byte → BitVec 32 → State) (sentSt : Nat → ChunkSt) :
    CopyAcc × State → State
  | (.done bs bad, s1) => onDone s1 bs bad
  | (.later, s1) => s1
  | (.walking, s1) => s1.modChunk core id k fun c => { c with st := .walking }
  | (.sent r, s1) => s1.modChunk core id k fun c => { c with st := sentSt r }
  | (.flt f, s1) => (if classOf f.code = .rollback then s else s1).chunkFault core id k f.code f.detail

/-- A sector that a copy has read is read no more: its elements take their bytes from the one reading (06 R135). -/
def State.keepSector (s : State) (core id : Nat) (at_ : Tgt) (bytes : List Byte) (bad : BitVec 32) : State :=
  s.modCopy core id fun x =>
    if x.sectors.any (·.at_ == at_) then x else { x with sectors := x.sectors ++ [⟨at_, BitVec.ofNat 256 (leNat bytes), bad⟩] }

/-- Bytes of a sector that has been read, and whether one of them is poisoned. -/
def sectorBytes (o n : Nat) (bytes : List Byte) (bad : BitVec 32) : List Byte × Bool :=
  (slice bytes o n, (rangeFrom o n).any bad.getLsbD)
def CopySector.bytes (y : CopySector) : List Byte := leBytes y.data.toNat 32

/-- Read `n` bytes of a chunk's source at a guest virtual address, by its sector. -/
def State.chunkFetch (s : State) (core : Nat) (x : Copy) (k va n : Nat) (onDone : State → List Byte → Bool → State) : State :=
  let func := s.copyFunc x
  let take := s.chunkTake core x.id k
  match s.copyCheck core func va n false false true with
  | none => take (fun s _ _ => s) .fabric (s.copyWalk core func va false (.chunk core x.id k))
  | some (.error f) => take (fun s _ _ => s) .fabric (.flt f, s)
  | some (.ok t) =>
    let (at_, o) := s.sectorPlace func t.tgt
    match x.sectors.find? (·.at_ == at_) with
    | some y => onDone s (sectorBytes o n y.bytes y.poison).1 (sectorBytes o n y.bytes y.poison).2
    | none =>
      take (fun s bs bad => onDone (s.keepSector core x.id at_ bs bad) (sectorBytes o n bs bad).1 (sectorBytes o n bs bad).2) .fabric
        (s.copySector core func x.team t (.chunkRead core x.id k))

/-- Valid length of an element's row (06 R131). -/
def CDesc.rowLen (d : CDesc) (c : Chunk) : Nat := min d.e0 (fld c.row.toNat 32 24)

/-- Read the source of an element into the chunk. -/
def State.chunkRead (s : State) (core : Nat) (x : Copy) (d : CDesc) (k : Nat) (c : Chunk) : State :=
  let got (s : State) (bs : List Byte) (bad : Bool) : State :=
    s.modChunk core x.id k fun c => { c with st := .running, phase := 2, data := packBytes bs, poison := bad }
  let i0 := (d.index c.next).1
  if d.ragged != 0 && decide (d.rowLen c ≤ i0) then
    -- padding, or nothing at all, past the row's valid length
    if d.ragged = 1 then got s (List.replicate d.size (BitVec.ofNat 8 d.pad)) false
    else s.modChunk core x.id k d.step
  else if d.skind = 0 then
    s.chunkFetch core x k (d.srcAt c.next c.row % (2 ^ 64 : Nat)).toNat d.size got
  else
    let b := bufOf (d.skind - 1)
    match x.team.bind fun y => s.team? y.1 y.2 with
    | none => s
    | some t =>
      let off := d.srcAt c.next c.row
      if outOf (off, off + d.size - 1) (t.tilesIn b * tileSize b) then s.chunkFault core x.id k .bufBound (off % (2 ^ 64 : Nat)).toNat
      else
        let p := t.base b * tileSize b + off.toNat
        let at_ := Tgt.buf core b (p / 32 * 32) 0
        match x.sectors.find? (·.at_ == at_) with
        | some y => got s (sectorBytes (p % 32) d.size y.bytes y.poison).1 (sectorBytes (p % 32) d.size y.bytes y.poison).2
        | none =>
          if s.tileEmpty core b (p / tileSize b) then s
          else
            let (bs, bad) := s.windowRead core b (p / 32 * 32) 32
            got (s.keepSector core x.id at_ bs (allBad bad)) (slice bs (p % 32) d.size) bad

/-- Write an element whose source has been read. -/
def State.chunkWrite (s : State) (core : Nat) (x : Copy) (d : CDesc) (k : Nat) (c : Chunk) : State :=
  let bytes := leBytes c.data.toNat d.size
  let next (s : State) : State := s.modChunk core x.id k d.step
  if d.dkind = 0 then
    s.chunkTake core x.id k (fun s _ _ => next s) .ack
      (s.copyWrite core x d.red d.rtype (d.dstAt c.next % (2 ^ 64 : Nat)).toNat d.size bytes c.poison
        (.chunk core x.id k) (.chunkWrite core x.id k))
  else
    let b := bufOf (d.dkind - 1)
    match x.team.bind fun y => s.team? y.1 y.2 with
    | none => s
    | some t =>
      let off := d.placed (d.dstAt c.next).toNat
      -- a core whose team of the cluster has been freed holds no allotment any more (07 R156)
      if d.cores.any fun j => (s.sibling t j).isNone then s.chunkFault core x.id k .bufRights off else
      let s1 := d.cores.foldl (fun s j =>
        match s.sibling t j with
        | some y => s.landBytes y.core b (y.base b * tileSize b + off) bytes c.poison (s.copyCluster x)
        | none => s) s
      next (s1.copyCount x d.size)

/-- Read the row-table entry of the element's row (06 R131); a poisoned one is poisoned data at the point of use (04 Table 4-3). -/
def State.chunkRow (s : State) (core : Nat) (x : Copy) (d : CDesc) (k : Nat) (c : Chunk) : State :=
  s.chunkFetch core x k (d.rowAt c.next) 8 fun s bs bad =>
    if bad then s.chunkFault core x.id k .uncorrData (d.rowAt c.next)
    else s.modChunk core x.id k fun c => { c with st := .running, phase := 1, row := BitVec.ofNat 64 (leNat bs) }

/-! ### `MSTORE` elements (11 R253) -/

def MStore.cols (m : MStore) : Nat := fld m.mfmt.toNat 48 8
def MStore.rows (m : MStore) : Nat := fld m.mfmt.toNat 40 8
def MStore.otag (m : MStore) : Nat := fld m.mfmt.toNat 32 4
def MStore.pitch (m : MStore) : Nat := fld m.mfmt.toNat 0 32
def MStore.size (m : MStore) : Nat := elemSize m.otag

/-- Conversion of Table 11-10; `int` says that the accumulator's kind is I32. -/
def storeConv (int : Bool) (otag x : Nat) : Nat :=
  let v : Val := if int then Val.ofInt (sext x 32) else fF32.val x
  match otag with
  | 1 => if int then x else (Val.toIntFmt .rne (-(2 ^ 31)) (2 ^ 31 - 1) v % (2 ^ 32 : Nat)).toNat
  | 6 => if int then fF32.round .rne v else x
  | 7 => fF16.round .rne v
  | 8 => fBF16.round .rne v
  | 9 => encodeT8 v
  | _ => encodeT6 v

/-- Accumulator `k` of a team: its first byte in CB, and its kind. -/
def Team.accByte (t : Team) (k : Nat) : Nat := (t.accBase + k) * 65536
def Team.accInt (t : Team) (k : Nat) : Bool := t.akind.getLsbD k

/-- One element of an `MSTORE`: it waits while an earlier operation on the accumulator is incomplete or its record is EMPTY. -/
def State.storeElem (s : State) (core : Nat) (x : Copy) (m : MStore) (k : Nat) (c : Chunk) : State :=
  match x.team.bind fun y => s.team? y.1 y.2 with
  | none => s
  | some t =>
    let r := c.next / m.cols
    let j := c.next % m.cols
    if c.phase = 1 then
      if (s.core core).engine.any (fun o => m.after.contains o.id) || s.tileEmpty core .cb (t.accBase + m.acc) then s
      else
        let off := t.accByte m.acc + 4 * (128 * r + j)
        let (bs, bad) := s.windowRead core .cb off 4
        let v := storeConv (t.accInt m.acc) m.otag (leNat bs)
        s.modChunk core x.id k fun c => { c with st := .running, phase := 2, data := BitVec.ofNat 128 v, poison := bad }
    else
      let va := (m.mbase.toNat + m.pitch * r + m.size * j) % 2 ^ 64
      let done (s : State) (_ : List Byte) (_ : BitVec 32) : State := s.modChunk core x.id k fun c =>
        { c with next := c.next + 1, phase := 1, st := if c.next + 1 = c.last then .done else .running }
      s.chunkTake core x.id k done .ack
        (s.copyWrite core x 0 0 va m.size (leBytes c.data.toNat m.size) c.poison (.chunk core x.id k) (.chunkWrite core x.id k))

/-! ### `CPYT` lanes (06 R144) -/

def State.cpyt? (s : State) (core id : Nat) : Option Cpyt := (s.core core).cpyts.find? (·.id == id)
def State.modCpytLane (s : State) (core id lane : Nat) (f : CpytLane → CpytLane) : State :=
  s.modCore core fun c => { c with cpyts := modIf (fun x => x.id == id) (fun x =>
    { x with lanes := modIf (fun y => y.lane == lane) f x.lanes }) c.cpyts }

/-- A lane of a `CPYT` takes a terminal fault: its number stands in unit (14 R312). -/
def State.cpytFault (s : State) (core id lane : Nat) (code : FaultCode) (detail : Nat) (flags : Nat := 0) : State :=
  match s.cpyt? core id with
  | none => s
  | some x =>
    (s.modCpytLane core id lane fun y => { y with st := .ended }).raiseAt x.launch x.team x.gang (1#32 <<< lane) code detail x.pc
      x.word lane flags

/-- A lane has its source sector: it keeps its valid bytes. -/
def CpytLane.take (z : CpytLane) (bytes : List Byte) (bad : BitVec 32) : CpytLane :=
  { z with st := .pending, got := z.valid, data := BitVec.ofNat 256 (leNat (bytes.take z.valid))
           poison := (rangeFrom 0 z.valid).any bad.getLsbD }

/-- Move a lane on: read its source sector in one step (06 R135), then write its 32 bytes with their arrival. -/
def State.cpytGo (s : State) (core : Nat) (x : Cpyt) (y : CpytLane) : State :=
  match s.team? x.launch x.team with
  | none => s
  | some t =>
    let waits := ((s.gang? x.launch x.team x.gang).map fun g => g.stq.any fun q => decide (q.seq < x.waitSeq)).getD false
    if waits then s
    else if y.got < y.valid then
      let r := match s.copyCheck core t.func y.va 32 false false false with
        | none => s.copyWalk core t.func y.va false (.cpyt core x.id y.lane)
        | some (.error f) => (.flt f, s)
        | some (.ok tr) => s.copySector core t.func (some (x.launch, x.team)) tr (.cpyt core x.id y.lane)
      match r with
      | (.done bs bad, s1) => s1.modCpytLane core x.id y.lane fun z => z.take bs bad
      | (.later, s1) => s1
      | (.walking, s1) => s1.modCpytLane core x.id y.lane fun z => { z with st := .walking }
      | (.sent k, s1) => s1.modCpytLane core x.id y.lane fun z => { z with st := .fabric k }
      | (.flt f, s1) => s1.cpytFault core x.id y.lane f.code f.detail
    else
      (s.landBytes core .ab (t.abBase * 4096 + y.off) (leBytes y.data.toNat 32) y.poison (s.clusterOf x.launch x.team)).modCpytLane
        core x.id y.lane fun z => { z with st := .done }

/-! ### Events of the copy unit -/

/-- An element of a chunk, or a lane of a `CPYT`, goes on: to its landing, or to the walk, request or tile it waits for. -/
def execCopyElementLand (core id k : Nat) (s : State) : Out :=
  .next (match s.copy? core id with
    | some x =>
      let c := x.chunk k
      let held := match x.owner with
        | .gang l t g => ((s.gang? l t g).map fun g => g.stq.any fun q => decide (q.seq < x.waitSeq)).getD false
        | .queue _ _ _ _ => false
      let go := (c.st == .running || c.st == .idle) && !held
      if !go then s
      else
        match x.store with
        | some m => s.storeElem core x m k c
        | none =>
          let d := cdescOf x.words
          if c.phase = 0 then s.chunkRow core x d k c
          else if c.phase = 1 then s.chunkRead core x d k c
          else s.chunkWrite core x d k c
    | none =>
      match s.cpyt? core id with
      | none => s
      | some x =>
        match x.lanes.find? fun y => y.lane == k && y.st == .pending with
        | none => s
        | some y => s.cpytGo core x y)

/-- Every chunk is done or has ended in a fault: the locks free and the flag, or the packet, completes (06 R140). -/
def execCopyComplete (core id : Nat) (s : State) : Out :=
  .next (match s.copy? core id with
    | none => s
    | some x =>
      if !x.chunks.all (fun c => c.st == .done || c.st == .fault) then s
      else
        let s1 := s.modCore core fun c => { c with copies := c.copies.filter (·.id != id)
                                                   locks := c.locks.filter fun y => y.cpyt || y.copy != id }
        match x.owner with
        | .gang l t g => (s1.modGang l t g (·.flagDown x.flag)).endGang l t g
        | .queue f page idx _ => s1.packetDone f page idx)

/-- Every lane of a `CPYT` is marked or has ended: setB and its tag count down (06 R144). -/
def execCpytComplete (core id : Nat) (s : State) : Out :=
  .next (match s.cpyt? core id with
    | none => s
    | some x =>
      if !x.lanes.all (fun y => y.st == .done || y.st == .ended) then s
      else
        let s1 := s.modCore core fun c => { c with cpyts := c.cpyts.filter (·.id != id)
                                                   locks := c.locks.filter fun y => !y.cpyt || y.copy != id }
        (s1.modGang x.launch x.team x.gang fun g =>
          { g.flagDown x.flag with ctags := modAt g.ctags x.tag (· - 1) }).endGang x.launch x.team x.gang)

/-! ### `CPYT` (06 R143, R144) -/

/-- DESIGN CHOICE (log 79): a `CPYT` none of whose lanes reads takes no range-lock entry, which would list no sector (06 R136). -/
def execCpyt (o : BitVec 6) (a : Opnd) (n : BitVec 5) (tg : BitVec 3) (s : State) : Out :=
  s.withActive fun c t g =>
    s.afterAcq c g <|
    let x := g.srcA a
    let x1 := g.srcA1 a
    let xo := g.srcD o.toNat
    let xn := g.srcD n.toNat
    let chk := (poisonCheck [x, x1, xo, xn]).orElse fun _ => (accept [.i64, .none] [x]).orElse fun _ => (pairCheck x x1).orElse
      fun _ => accept W32tags [xo, xn]
    match chk with
    | some (.ill k) => s.illValue c k
    | some (.flt f) => s.raiseAll c f
    | none =>
      let flag := g.setBOf c.eid
      let tag := tg.toNat
      let lane (i : Nat) : CpytLane :=
        ⟨i, xo.val i, min (xn.val i) 32, pairVal x x1 i, .pending, 0, 0, false⟩
      let all := (lanesOf c.mask).map lane
      let fault (y : CpytLane) : Option Flt :=
        if y.off % 32 ≠ 0 then some ⟨.misalign, y.off⟩
        else if t.abTiles * 4096 < y.off + 32 then some ⟨.bufBound, y.off⟩
        else if y.valid ≠ 0 && y.va % 32 ≠ 0 then some ⟨.misalign, y.va⟩
        else none
      let ok := all.filter fun y => (fault y).isNone
      let reads := ok.filter fun y => y.valid != 0
      let isSeq := reads.any fun y => s.touchesSeq t.core t.func .read (y.va, y.va)
      if isSeq && s.seqPending c.launch c.team c.gang g c.seq then s.stall c .seqAccess
      else if !s.cpytFree c.launch c.team c.gang g c.seq then s.stall c .cpytRecord
      else if !s.lockFree t.core c.seq (if reads.isEmpty then 0 else 1) then s.stall c .rangeLock
      else if g.flagFull flag then s.stall c (.flagFull flag)
      else if 255 ≤ g.ctags.getD tag 0 then s.stall c (.tagFull tag)
      else
        let (id, s1) := s.take
        let rec_ : Cpyt := ⟨id, c.launch, c.team, c.gang, tag, flag, c.pc, c.word, c.seq, isSeq, ok⟩
        let lock : Lock := ⟨id, true, t.func, false, 0, 0, reads.map fun y => y.va / 32, 0⟩
        let s2 := s1.putGang c.launch c.team c.gang
          { (g.freePair a []).flagUp flag with ctags := modAt g.ctags tag (· + 1) }
        let s3 := s2.modCore t.core fun k => { k with
          cpyts := k.cpyts ++ [rec_], locks := k.locks ++ (if reads.isEmpty then [] else [lock]) }
        ((all.foldl (fun s y => match fault y with
          | some f => s.raiseAt c.launch c.team c.gang (1#32 <<< y.lane) f.code f.detail c.pc c.word y.lane
          | none => s) s3)).advanceRegion c

/-! ### Copy control (06 R146) -/

def execCpywait (m : BitVec 8) (s : State) : Out :=
  s.withActive fun c _ g =>
    if (rangeFrom 0 8).any (fun k => m.getLsbD k && g.ctags.getD k 0 != 0) then
      let again := ((g.entry? c.eid).map (·.resume)) == some .progress
      let s1 := (s.stall c (.tags m)).modEntry c.launch c.team c.gang c.eid fun e => { e with resume := .progress }
      if again then s1 else s1.newRegion c.launch c.team c.gang
    else s.advanceRegion c

/-- The gang's descriptor copies in flight, oldest first. -/
def State.copiesOf (s : State) (c : Cur) (t : Team) : List Copy :=
  (s.core t.core).copies.filter fun x => x.owner == .gang c.launch c.team c.gang

/-- DESIGN CHOICE (log 80): the manual gives an `MSTORE`, which counts as a descriptor copy here, no cookie; it is 0. -/
def Copy.cookie (x : Copy) : W32 := if x.store.isSome then 0 else (cdescOf x.words).cookie

/-- Write a uniform register and end the region. -/
def State.copyStat (s : State) (d : BitVec 6) (v : State → Cur → Team → Gang → Nat) : Out :=
  s.withActive fun c t g => s.commitRegion c g (g.putS d.toNat (BitVec.ofNat 64 (v s c t g)))

def execCpystatCount (d : BitVec 6) (s : State) : Out :=
  s.copyStat d fun s c t _ =>
    let l := s.copiesOf c t
    let k := s.core t.core
    l.length + (16 - k.copies.length) * 256 + (64 - k.locks.length) * 65536 +
      (((l.head?).map fun x => x.cookie.toNat).getD 0) * 2 ^ 32
def execCpystatBitmap (d : BitVec 6) (s : State) : Out :=
  s.copyStat d fun s c t _ =>
    match (s.copiesOf c t).head? with
    | none => 0
    | some x => (rangeFrom 0 64).foldl (fun n k =>
        if (x.chunk k).st == .done || (x.chunk k).st == .fault then n + 2 ^ k else n) 0
def execCpystatTags (d : BitVec 6) (s : State) : Out :=
  s.copyStat d fun _ _ _ g => (rangeFrom 0 8).foldl (fun n k => n + g.ctags.getD k 0 % 256 * 2 ^ (8 * k)) 0

/-- A chunk that a cancellation ends: it holds elements, and has not started or is parked. -/
def Chunk.cancels (c : Chunk) : Bool :=
  c.st == .idle || (match c.st with
    | .parked _ _ => true
    | _ => false)
def Copy.cancel (x : Copy) : Copy := { x with chunks := x.chunks.map fun c => if c.cancels then { c with st := .done } else c }

def State.cancelOp (s : State) (d : BitVec 6) (free : Gang → Gang) (sel : Gang → Copy → Bool) : Out :=
  s.withActive fun c t g =>
    let hit := (s.copiesOf c t).filter (sel g)
    let n := hit.foldl (fun n x => n + (x.chunks.filter (·.cancels)).length) 0
    let g1 := (free g).putS d.toNat (BitVec.ofNat 64 n)
    match (s.core t.core).room g (g1.unlend .write c.eid).settle with
    | .wait uni k => s.waitRegs c uni k
    | .ok =>
      let upd := fun (x : Copy) => if hit.any (fun y => y.id == x.id) then x.cancel else x
      (s.modCore t.core fun k => { k with copies := k.copies.map upd }).commitRegion c g g1
def execCpycan (d : BitVec 6) (a : Opnd) (s : State) : Out :=
  s.cancelOp d (fun g => g.freeLastS a [d.toNat]) fun g x => x.cookie == (g.uniOp a).setWidth 32
def execCpycanAll (d : BitVec 6) (s : State) : Out := s.cancelOp d id fun _ _ => true

/-! ### `CPYQ` (06 R148, R151) -/

/-- The checks of a step that must reach local memory, in the order of 04 Table 4-3; `n` bytes are compared with the range locks. -/
def State.cpyqCheck (s : State) (core func : Nat) (u : Use) (va n : Nat) : Verdict :=
  let a := BitVec.ofNat 64 va
  if !addrOk a then .flt ⟨⟨.perm, 6⟩, none⟩
  else if va % 8 ≠ 0 then .flt ⟨⟨.misalign, va⟩, none⟩
  else
    match s.lookup core func (gvaOf a) u.need (u.access 8) with
    | none => .walk
    | some (.error f) => .flt ⟨f, none⟩
    | some (.ok t) =>
      match t.tgt with
      | .mem _ =>
        if !typeAllows u t.ty t.tgt then .flt ⟨⟨.typeOp, 0⟩, none⟩
        else
          (match s.lockHit core func u va n with
           | some k => .flt ⟨⟨.rangeLock, va⟩, some k.cookie⟩
           | none => .ok t)
      | _ => .flt ⟨⟨.perm, 5⟩, none⟩

/-- Hold the entry at a step: `res` names the claimed index and `p` the steps that are behind it: 0 none, 1 the release's marker, 2 the
zero-length read issued, 3 the packet written and the bell's store queued. -/
def State.cpyqHold (s : State) (c : Cur) (why : Stall) (res : Resume) (p : Nat) : State :=
  (s.stall c why).modEntry c.launch c.team c.gang c.eid fun e => { e with resume := res, progress := p }

/-- A step whose translation is not in a TLB waits for a walk (03 R72). -/
def State.cpyqWalk (s : State) (c : Cur) (core func va : Nat) (need : Need) (res : Resume) (p : Nat) : State :=
  let gva := gvaOf (BitVec.ofNat 64 va)
  if s.walkFull core func gva then s.cpyqHold c .walkFull res p
  else (s.queueWalk core func gva ⟨.entry c.launch c.team c.gang c.eid, need, gva⟩).cpyqHold c .walk res p

/-- The active lanes take a step's fault. A miss parks them at the instruction, which goes on at the step it reached. -/
def State.cpyqFault (s : State) (c : Cur) (func : Nat) (f : LaneFlt) (need : Need) (va : Nat) (res : Resume) (p : Nat) : State :=
  match classOf f.flt.code with
  | .retryable =>
    let (req, s1) := s.pageMiss func f.flt ⟨.entry c.launch c.team c.gang s.fresh, need, va⟩
    (s1.modEntry c.launch c.team c.gang c.eid fun e => { e with progress := p }).park c.launch c.team c.gang c.eid c.mask c.ppc req res
  | .rollback => s.raiseAll c f.flt
  | _ => (s.raiseAt c.launch c.team c.gang c.mask f.flt.code f.flt.detail c.pc (f.cookie.getD c.word)).advance c

/-- A step's access: its verdict waits, faults, or goes on. -/
def State.cpyqAt (s : State) (c : Cur) (core func : Nat) (v : Verdict) (u : Use) (va : Nat) (res : Resume) (p : Nat)
    (go : Trans → State) : State :=
  match v with
  | .walk => s.cpyqWalk c core func va u.need res p
  | .flt f => s.cpyqFault c func f u.need va res p
  | .ok t => go t

/-- Where a local translation leads. -/
def Trans.local_ (t : Trans) : Nat := match t.tgt with
  | .mem a => a
  | _ => 0

/-- Write bytes at the home, as a store to a SEQ page is performed (04 Table 4-2). -/
def State.cpyqPut (s : State) (core func a : Nat) (bytes : List Byte) : State :=
  (splitSectors a bytes).foldl (fun s p => s.storeHome core func .seq p.1 p.2) s

/-- Step 5: the store to the bell takes its place in the gang's store queue. -/
def State.cpyqBell (s : State) (c : Cur) (t : Trans) (va w : Nat) : State :=
  let (id, s1) := s.take
  let e : Elem := ⟨firstLane c.mask, c.seq - 1, va, .pending, some t, packBytes (leBytes (w + 1) 8), 0, 0, false⟩
  s1.modGang c.launch c.team c.gang fun g =>
    { g with stq := g.stq ++ [⟨id, c.seq - 1, .st 8, c.pc, c.word, .none, none, false, false, [e]⟩] }

/-- The end of the instruction: its last use is freed and the region ends. -/
def State.cpyqEnd (s : State) (c : Cur) (a : Opnd) : State :=
  match s.gang? c.launch c.team c.gang with
  | none => s
  | some g => (s.putGang c.launch c.team c.gang (g.freeLastS a [])).advanceRegion c

/-- Steps 2 to 5 for the claimed index `w`. The header is read and the slot written at their homes. -/
def State.cpyqRest (s : State) (c : Cur) (t : Team) (g : Gang) (d : BitVec 6) (a : Opnd) (sc : Nat) (ntf : Bool) (w : Nat) : State :=
  let func := t.func
  let core := t.core
  let hdr := (g.uniOp a).toNat
  let at_ := g.progressOf c.eid
  let res := Resume.op w
  if at_ = 3 then
    (if g.stq.any (fun x => decide (x.seq < c.seq)) then s.cpyqHold c .stqEmpty res 3 else s.cpyqEnd c a)
  else
  s.cpyqAt c core func (s.cpyqCheck core func .load hdr 40) .load hdr res at_ fun th =>
  let h := th.local_
  let (bs, bad, s1) := ((s.dropSector core h).dropSector core (h + 32)).homeLoad h 40 func
  if bad then s1.raiseAll c ⟨.uncorrData, 0⟩
  else
  let ring := leField bs 0 8
  let slots := leField bs 8 4
  let rd := leField bs 24 8
  let bell := leField bs 32 8
  if slots ≤ (w + 2 ^ 64 - rd) % 2 ^ 64 then s1.cpyqHold c .queueRoom res at_
  else if at_ = 0 && g.stq.any (fun x => decide (x.seq < c.seq)) then s1.cpyqHold c .stqEmpty res 0
  else if at_ = 0 && decide (Config.markerMax ≤ (s1.core core).markers.length) then s1.cpyqHold c .markers res 0
  else
    let (m, s2) := if at_ = 0 then (s1.commit c.launch c.team).insertMarker core c.launch c.team else (none, s1)
    match m with
    | some k => s2.cpyqHold c (.marker k) res 1
    | none =>
      match s2.acksWait c.launch c.team c.gang sc with
      | some why => s2.cpyqHold c why res (max at_ 1)
      | none =>
      if sc = 5 && g.hostWrote then
        State.cpyqHold (if at_ = 2 then s2 else { s2 with sent := s2.sent ++ [.zeroRead func] }) c .hostRead res 2
      else
      let slotVa := (ring + 64 * (w % slots)) % 2 ^ 64
      s2.cpyqAt c core func (s2.cpyqCheck core func .strel slotVa 64) .strel slotVa res (max at_ 1) fun ts =>
      let x := ts.local_
      let bytes := (rangeFrom 0 8).flatMap fun k => leBytes (g.uni (d.toNat + k)).toNat 8
      let put (s : State) : State :=
        ((s.cpyqPut core func (x + 2) (bytes.drop 2)).cpyqPut core func x (bytes.take 1)).cpyqPut core func (x + 1) [1]
      if !ntf then (put s2).cpyqEnd c a
      else if Config.stqSize ≤ g.stq.length then s2.cpyqHold c .stqFull res (max at_ 1)
      else
        -- the bell is checked before the ready byte is written, so that a miss parks once; a terminal fault finds the packet written
        match s2.verdict core func .store bell 8 with
        | .walk => s2.cpyqWalk c core func bell .write res (max at_ 1)
        | .ok tb => ((put s2).cpyqBell c tb bell w).cpyqHold c .stqEmpty res 3
        | .flt f =>
          if classOf f.flt.code = .retryable then s2.cpyqFault c func f .write bell res (max at_ 1)
          else (put s2).cpyqFault c func f .write bell res 3

def execCpyq (d : BitVec 6) (a : Opnd) (c3 : BitVec 3) (ntf : Bool) (s : State) : Out :=
  s.withActive fun c t g =>
    s.afterAcq c g <|
    let (sc, s0) := s.limitScope t.func c3.toNat
    match g.resumeOf c.eid with
    | some w => s0.cpyqRest c t g d a sc ntf w
    | none =>
      let wr := ((g.uniOp a).toNat + 16) % 2 ^ 64
      let u := Use.atomic sc
      s0.cpyqAt c t.core t.func (s0.cpyqCheck t.core t.func u wr 8) u wr .none 0 fun tr =>
      match (s0.commit c.launch c.team).localAtomic t.core t.func (c.launch, c.team) sc tr.ty tr.local_ ⟨0, 0, 64, false, 1, 0⟩ with
      | (none, s3) => s3.raiseAll c ⟨.uncorrData, 0⟩
      | (some w, s3) =>
        let s4 := s3.modEntry c.launch c.team c.gang c.eid fun e => { e with resume := .op w, progress := 0 }
        match s4.gang? c.launch c.team c.gang with
        | some g4 => s4.cpyqRest c t g4 d a sc ntf w
        | none => s4

end Sys2Proof.Machine
end

