-- ==== Sys2Proof/Machine/Launch.lean ====
section
/-! DEFINITION. Launch packets, placement and the start of teams (13 R278 to R283, R286), their end, successor lists and in-place
starts (R306 to R310). -/

namespace Sys2Proof.Machine

/-! ### LAUNCH packets (13 R278, R279) -/

/-- The launch packet of 64 bytes. -/
def launchOf (b : List Byte) : LaunchPkt :=
  let f (o n : Nat) : Nat := leField b o n
  let range := (f 2 1).testBit 0
  ⟨range, (f 2 1).testBit 1, f 3 1, f 4 1, f 5 1, f 6 1, f 7 1, f 8 1, f 9 1, f 10 1, f 11 1, f 12 1, f 13 1, f 14 2, f 16 8, f 24 8,
   f 32 8, f 40 8, if range then 1 else f 48 4 + 1, if range then 1 else f 52 4 + 1, if range then 1 else f 56 4 + 1,
   if range then f 48 8 else 0, if range then f 56 8 else 0, b⟩

/-- Offset of the first field that breaks Table 13-1; `inPlaceOk` for slot 0 of a successor list. An entry that breaks the address
form of 03 R54 counts as out of range. -/
def badLaunch (b : List Byte) (inPlaceOk : Bool) : Option Nat :=
  let p := launchOf b
  let flags := leField b 2 1
  [(leField b 0 1 != 1, 0), (!zeroBits flags 2 6 || (p.inPlace && !inPlaceOk), 2),
   (p.teams == 0 || decide (8 < p.teams) || (p.range && p.teams != 1) || (!p.range && (p.x * p.y * p.z) % p.teams != 0), 3),
   (p.gangs == 0 || decide (32 < p.gangs), 4), (p.lanes == 0 || decide (32 < p.lanes), 5),
   (p.quotav == 0 || decide (64 < p.quotav), 6), (decide (64 < p.quotas), 7), (decide (192 < p.wb), 8), (decide (192 < p.ab), 9),
   (decide (16 < p.sb), 10), (decide (8 < p.acc), 11), (decide (16 < p.tiles), 12),
   (p.entry % 2 == 1 || !addrOk (BitVec.ofNat 64 p.entry), 16), (p.range && decide (p.hi < p.lo), 56),
   (!p.range && !zeroBytes b 60 4, 60)].findSome? fun x => if x.1 then some x.2 else none

/-- Can no bay of the partition ever meet the demand (13 R279)? -/
def State.cannotFit (s : State) (func : Nat) (p : LaunchPkt) : Bool :=
  let f := s.func func
  let above (cap none_ x : Nat) : Bool := cap != none_ && decide (cap < x)
  above f.cfg.capwb 255 p.wb || above f.cfg.capab 255 p.ab || above f.cfg.capsb 255 p.sb || above f.cfg.capacc 255 p.acc ||
  above f.cfg.capv 0xFFFF (p.gangs * p.quotav) || above f.cfg.capu 0xFFFF (p.gangs * p.quotas) ||
  f.bayList.all fun b => decide (((rangeFrom (8 * b) 8).filter fun k => !(s.core k).outOfUse).length < p.teams)

/-! ### Placement (13 R282) -/

/-- Gang slots that `n` gangs take in a quarter. -/
def slotsIn (n q : Nat) : Nat := (n + 3 - q) / 4

/-- Lowest run of `n` free tiles among `cap`. -/
def lowestRun (used : List (Nat × Nat)) (n cap : Nat) : Option Nat :=
  if n = 0 then some 0
  else (rangeFrom 0 (cap + 1 - n)).find? fun a => used.all fun u => u.2 == 0 || decide (a + n ≤ u.1) || decide (u.1 + u.2 ≤ a)

/-- Uniform entries that a gang holds at its start: its quota, and one for s0 (13 R281). -/
def LaunchPkt.startS (p : LaunchPkt) (s0 : Bool) : Nat := if s0 then max 1 p.quotas else p.quotas

/-- First tiles in WB, AB, SB and CB that a core can give a team of the packet, if it can take the team (13 R282). -/
def State.fits (s : State) (core : Nat) (p : LaunchPkt) : Option (Nat × Nat × Nat × Nat) :=
  let ts := s.teams.filter fun t => t.core == core && t.st != .waiting
  let k := s.core core
  let used (b : Buf) : List (Nat × Nat) := ts.map fun t => (t.base b, t.tilesIn b)
  let slots := (rangeFrom 0 4).all fun q => decide ((ts.map fun t => slotsIn t.gangs.length q).foldl (· + ·) (slotsIn p.gangs q) ≤ 256)
  if k.outOfUse || !slots || decide (k.poolV < p.gangs * p.quotav) || decide (k.poolS < p.gangs * p.startS true) then none
  else
    match lowestRun (used .wb) p.wb 192, lowestRun (used .ab) p.ab 192, lowestRun (used .sb) p.sb 16, lowestRun (used .cb) p.acc 8 with
    | some a, some b, some c, some d => some (a, b, c, d)
    | _, _, _, _ => none

/-- Can a cluster be placed on these cores: distinct ones of one bay of the partition, each with room? -/
def State.clusterFits (s : State) (func bay : Nat) (cores : List Nat) (p : LaunchPkt) : Bool :=
  (s.func func).hasBay bay && cores.length == p.teams && cores.Nodup && cores.all fun k => bayOf k == bay && (s.fits k p).isSome

/-- The cores that a bay would give a cluster, lowest first. -/
def State.bayChoice (s : State) (func bay : Nat) (p : LaunchPkt) : Option (List Nat) :=
  let ks := ((rangeFrom (8 * bay) 8).filter fun k => (s.fits k p).isSome).take p.teams
  if (s.func func).hasBay bay && ks.length == p.teams then some ks else none

/-- Where the partition could place a cluster now. -/
def State.anyChoice (s : State) (func : Nat) (p : LaunchPkt) : Option (Nat × List Nat) :=
  (s.func func).bayList.findSome? fun b => (s.bayChoice func b p).map fun ks => (b, ks)

/-- Clusters of a launch: a range task has one, its first team, and one with an empty interval none (13 R286). -/
def LaunchPkt.clusters (p : LaunchPkt) : Nat :=
  if p.range then (if p.lo = p.hi then 0 else 1) else p.x * p.y * p.z / p.teams

/-- A launch with a cluster still to place. -/
def Launch.more (l : Launch) : Bool := decide (l.nextCluster < l.pkt.clusters)

/-- The launch whose next cluster the dispatcher of a partition places next (13 R283): in queue order, the first whose next cluster
fits. In record and replay mode one cluster runs at a time (15 R356). -/
def State.dispatchNext (s : State) (func : Nat) : Option Launch :=
  if (s.func func).frozen || ((s.func func).fixedOrder && s.teams.any (·.func == func)) then none
  else s.launches.find? fun l => l.func == func && l.more && (s.anyChoice func l.pkt).isSome

/-! ### The start of a team (13 R281, 08 Table 8-1) -/

def Bar.none_ : Bar := ⟨false, 0, 0, 0, 0, false, 0, 0⟩

/-- A gang at its start. -/
def Gang.start (idx lanes qv qs params entry eid : Nat) : Gang :=
  ({ idx := idx
     ended := false
     vmap := List.replicate 64 none
     smap := setAt (List.replicate 64 none) 0 (some (BitVec.ofNat 64 params))
     preds := List.replicate 8 0
     tregs := List.replicate 16 0
     flags := List.replicate 12 0
     lpa := 0
     lpb := 0
     ctags := List.replicate 8 0
     step := 0
     round := 0
     qv := qv
     qs := qs
     lent := []
     frontier := [{ eid := eid, prio := 0, pc := entry, mask := lowMask lanes, age := 0, promoted := none, yielded := [], setA := 16
                    setB := 16, resume := .none, progress := 0, since := 0, st := .ready }]
     exited := 0
     region := ⟨0, [], 0, 0, [], [], 0, 0, [], [], 0, 0, 0, 0, []⟩
     replay := []
     stq := []
     ops := []
     streams := []
     barPhase := List.replicate 16 none
     lastIssue := 0
     hostWrote := false
     unacked := 0
     reachedStep := false } : Gang).beginRegion allRegs allRegs

/-- Coordinates of a team (13 R280). -/
def LaunchPkt.coords (p : LaunchPkt) (num : Nat) : Nat × Nat × Nat :=
  if p.range then (num, 0, 0) else (num % p.x, num / p.x % p.y, num / (p.x * p.y))

/-- A team at an ordinary start. -/
def newTeam (l : Launch) (num tic core eid : Nat) (at_ : Nat × Nat × Nat × Nat) (lo hi : Nat) : Team :=
  let p := l.pkt
  { launch := l.id
    num := num
    func := l.func
    cluster := num / p.teams
    tic := tic
    coords := p.coords num
    core := core
    st := .running
    stopped := false
    gangs := (rangeFrom 0 p.gangs).map fun i => Gang.start i p.lanes p.quotav p.quotas p.params (p.entry % 2 ^ 55) eid
    lanes := p.lanes
    acc := p.acc
    tiles := p.tiles
    wbBase := at_.1
    wbTiles := p.wb
    abBase := at_.2.1
    abTiles := p.ab
    sbBase := at_.2.2.1
    sbTiles := p.sb
    accBase := at_.2.2.2
    akind := 0
    range := p.range
    start := BitVec.ofNat 64 lo
    cur := BitVec.ofNat 64 lo
    stop := BitVec.ofNat 64 hi
    slist := 0
    sn := 0
    faulted := false
    rollbacks := 0
    committed := false
    wroteOut := false
    fedFromOut := false
    inPlace := false
    didSvc := false
    mscale := 0
    mbase := 0
    mfmt := 0
    cv := List.replicate 8 ⟨0, [], none⟩
    bars := List.replicate 16 .none_
    inherit := List.replicate 5 0
    finfo := 0
    fdetail := 0
    check := l.check }

/-- Clear tiles of a buffer: bytes zero, marks clear, records DISARMED (07 R161). -/
def BufState.clearTiles (x : BufState) (b : Buf) (first n : Nat) : BufState :=
  let lo := first * tileSize b
  let hi := (first + n) * tileSize b
  { bytes := x.bytes.filter fun c => !(decide (lo ≤ c.1) && decide (c.1 < hi))
    poison := x.poison.filter fun k => !(decide (lo ≤ 32 * k) && decide (32 * k < hi))
    pres := x.pres.filter fun p => !(decide (first ≤ p.1) && decide (p.1 < first + n)) }
def State.clearAllot (s : State) (t : Team) : State :=
  [Buf.wb, Buf.ab, Buf.cb, Buf.sb].foldl (fun s b => s.modBuf t.core b fun x => x.clearTiles b (t.base b) (t.tilesIn b)) s

/-- Registers that a team's gangs have taken. -/
def Team.takenV (t : Team) : Nat := (t.gangs.map Gang.takenV).foldl (· + ·) 0
def Team.takenS (t : Team) : Nat := (t.gangs.map Gang.takenS).foldl (· + ·) 0

/-! ### Pending work (14 R334) -/

def Entry.isParked (e : Entry) : Bool :=
  match e.st with
  | .parked _ _ => true
  | _ => false
def Entry.inSvc (e : Entry) : Bool :=
  match e.st with
  | .stalled (.svc _) => true
  | _ => false

/-- Is a gang's work pending: not stopped, not waiting for a reply, not parked whole? -/
def State.pendingWork (s : State) (func : Nat) : Bool :=
  s.teams.any fun t => t.func == func && !t.stopped && t.gangs.any fun g =>
    !g.ended && !g.frontier.any Entry.inSvc && !(g.frontier.all Entry.isParked)

/-- Work that was not pending becomes pending: the 100 ms count from now. -/
def State.watchFrom (s old : State) (func : Nat) : State :=
  if !old.pendingWork func && s.pendingWork func then s.modFunc func fun f => { f with retired := s.now } else s

/-- A team becomes resident: its registers and tiles are taken, and its core acquires at device scope (12 R273). -/
def State.addTeam (s : State) (t : Team) : State :=
  let s1 := ((s.clearAllot t).acquire t.core).modCore t.core fun c =>
    { c with poolV := c.poolV - t.takenV, poolS := c.poolS - t.takenS }
  State.watchFrom { s1 with teams := s1.teams ++ [t] } s t.func

/-- Place a cluster: every gang of its teams starts. -/
def State.placeCluster (s : State) (l : Launch) (cores : List Nat) : State :=
  let (eid, s0) := s.take
  let c := l.nextCluster
  let s1 := (cores.mapIdx fun i k => (i, k)).foldl (fun s x =>
    match s.fits x.2 l.pkt with
    | some at_ => s.addTeam (newTeam l (c * l.pkt.teams + x.1) x.1 x.2 eid at_ l.pkt.lo l.pkt.hi)
    | none => s) s0
  s1.modLaunch l.id fun y => { y with nextCluster := c + 1, started := y.started + cores.length, left := y.left + cores.length }

/-! ### Launches enter and leave (13 R280, R283) -/

/-- Identifier of the next launch of this device (13 R280). -/
def State.launchId (s : State) : Nat := s.device * 2 ^ 56 + (s.launchCount + 1) % 2 ^ 56

/-- A launch enters the dispatcher. Reflection checking follows CONFIG (08 R214), and is on in record and replay mode (15 R356). A
successor stands ahead of later packets of its parent's queue. -/
def State.enterLaunch (s : State) (func : Nat) (queue root : Option (Nat × Nat)) (header parent : Nat) (p : LaunchPkt) :
    Nat × State :=
  let id := s.launchId
  let f := s.func func
  let l : Launch := ⟨id, func, queue, root, header, parent, p, 0, 0, 0, 0, s.stamp, !f.cfg.nochk || f.fixedOrder⟩
  let later (x : Launch) : Bool := parent != 0 && x.func == func && (match x.queue, root with
    | some (pg, i), some (pg', j) => pg == pg' && decide (j < i)
    | _, _ => false)
  let before := s.launches.takeWhile (!later ·)
  let after := s.launches.dropWhile (!later ·)
  (id, { s with launches := before ++ [l] ++ after, launchCount := s.launchCount + 1 })

/-- A launch is complete when it has no cluster to place, no team left and no successor outstanding; it then completes its packet
or counts for its parent. -/
def execLaunchComplete (launch : Nat) (s : State) : Out :=
  .next (match s.launch? launch with
    | none => s
    | some l =>
      if l.more || l.left != 0 || l.succ != 0 || s.teams.any (·.launch == launch) then s
      else
        let s1 := { s with launches := s.launches.filter (·.id != launch) }
        let s2 := if s1.launches.isEmpty then { s1 with oldCode := [] } else s1
        let s3 := s2.modLaunch l.parent fun x => { x with succ := x.succ - 1 }
        match l.queue with
        | some (page, idx) => s3.packetDone l.func page idx
        | none => s3)

/-! ### Range tasks (13 R286) -/

/-- The interval with the most iterations left; a tie goes to the lower team number. -/
def largestInterval (ts : List Team) : Option Team :=
  ts.foldl (fun b t =>
    match b with
    | none => some t
    | some x =>
      let n := t.stop.toNat - t.cur.toNat
      let m := x.stop.toNat - x.cur.toNat
      if decide (m < n) || (n == m && decide (t.num < x.num)) then some t else some x) none

/-- A core that can take one more team of a range task splits the largest interval. -/
def execRangeSplit (launch core : Nat) (s : State) : Out :=
  .next (match s.launch? launch with
    | none => s
    | some l =>
      if !l.pkt.range || (s.func l.func).fixedOrder || (s.func l.func).frozen || !(s.func l.func).hasBay (bayOf core) then s
      else
        match s.fits core l.pkt, largestInterval (s.teams.filter (·.launch == launch)) with
        | some at_, some t =>
          let n := t.stop.toNat - t.cur.toNat
          if n < 2 then s
          else
            let mid := t.cur.toNat + (n + 1) / 2
            let (eid, s1) := s.take
            ((s1.modTeam launch t.num fun x => { x with stop := BitVec.ofNat 64 mid }).addTeam
              (newTeam l l.started 0 core eid at_ mid t.stop.toNat)).modLaunch launch fun y =>
                { y with started := y.started + 1, left := y.left + 1 }
        | _, _ => s)

/-! ### The end of a team (13 R307, R310, 12 R273) -/

/-- Work of a team that its core still holds goes with it. -/
def Core.dropTeam (c : Core) (l t : Nat) : Core :=
  { c with claims := c.claims.filter fun x => !(x.launch == l && x.team == t)
           batonQ := c.batonQ.filter fun x => !(x.launch == l && x.team == t)
           baton := match c.baton with
             | .gang l' t' g => if l' == l && t' == t then .free else .gang l' t' g
             | .team l' t' => if l' == l && t' == t then .free else .team l' t'
             | .free => .free }

/-- A team's registers, quotas and allotments return. -/
def State.freeTeam (s : State) (t : Team) : State :=
  let s1 := s.modCore t.core fun c =>
    { c.dropTeam t.launch t.num with poolV := c.poolV + t.takenV, poolS := c.poolS + t.takenS }
  { s1 with teams := s1.teams.filter fun x => !(x.launch == t.launch && x.num == t.num) }.modLaunch t.launch fun l =>
    { l with left := l.left - 1 }

/-- The exit release: the team's stores have left, its fabric stores are acknowledged, and the dirty lines of its core are written
back, but for what PRIV stores wrote (12 R273). -/
def State.exitRelease (s : State) (t : Team) : State :=
  (s.core t.core).fifo.foldl (fun s f => s.drainLine t.core f.line) s

/-- ENDING: once the exit release is done the team is freed, or reads its successor list. -/
def execTeamExitRelease (launch team : Nat) (s : State) : Out :=
  .next (match s.team? launch team with
    | none => s
    | some t =>
      if t.st != .ending || t.gangs.any (fun g => !g.stq.isEmpty || s.fabricOpen launch team g.idx) then s
      else
        let s0 := s.closeStreams launch team
        if ((s0.team? launch team).map Team.openSegs).getD 0 ≠ 0 then s0
        else
          let s1 := s0.exitRelease t
          if t.sn = 0 || t.faulted then s1.freeTeam t
          else s1.modTeam launch team fun x => { x with st := .reading })

/-! ### In-place starts (13 R308, R309) -/

/-- A descriptor's tile set lies in an allotment of a packet's sizes, in the team's own core. -/
def inAllot (p : LaunchPkt) (d : Desc) : Bool :=
  let n := match d.buf with
    | .wb => p.wb
    | .ab => p.ab
    | .cb => p.acc
    | .sb => p.sb
  !d.sib && decide (d.last < n)

/-- Tile registers named by a mask. -/
def namedTiles (m : Nat) : List Nat := (rangeFrom 0 16).filter m.testBit

/-- A register that an in-place start inherits: lanes that the successor's gangs do not have read zero (08 R177). -/
def VReg.cut (v : VReg) (n : Nat) : VReg := { v with lanes := v.lanes.mapIdx fun i x => if i < n then x else 0 }

/-- A gang of an in-place start: what it inherits from its predecessor, everything else as at a launch. -/
def Gang.inherit (g : Gang) (p : LaunchPkt) (eid : Nat) : Gang :=
  let g0 := Gang.start g.idx p.lanes p.quotav p.quotas p.params (p.entry % 2 ^ 55) eid
  let vm := g.vmap.mapIdx fun i v => if p.inhv.testBit i then v.map (·.cut p.lanes) else none
  let sm := g.smap.mapIdx fun i v => if p.inhs.testBit i then v else if i = 0 then some (BitVec.ofNat 64 p.params) else none
  ({ g0 with
      vmap := vm
      smap := sm
      tregs := g.tregs.mapIdx fun i d => if p.inht.testBit i then d else 0
      region := ⟨0, [], 0, 0, [], [], 0, 0, [], [], 0, 0, 0, 0, []⟩ } : Gang).settle.beginRegion allRegs allRegs

/-- Is the in-place request demoted (13 Table 13-6)? -/
def State.demoted (s : State) (t : Team) (p : LaunchPkt) : Bool :=
  let k := s.core t.core
  let gs := t.gangs.take p.gangs
  let new := gs.map fun g => g.inherit p 0
  let v := (new.map Gang.takenV).foldl (· + ·) 0
  let u := (new.map Gang.takenS).foldl (· + ·) 0
  p.range || decide (1 < p.x * p.y * p.z) || decide (1 < p.teams) || decide (t.gangs.length < p.gangs) || decide (t.lanes < p.lanes) ||
  decide (t.acc < p.acc) || decide (t.wbTiles < p.wb) || decide (t.abTiles < p.ab) || decide (t.sbTiles < p.sb) ||
  decide (k.poolV + t.takenV < v) || decide (k.poolS + t.takenS < u) ||
  decide (p.inhacc / 2 ^ p.acc ≠ 0) || decide (p.inht / 2 ^ p.tiles ≠ 0) ||
  gs.any fun g => (namedTiles p.inht).any fun i => !inAllot p (descOf (g.treg i))

/-- Scrub a buffer's allotment but for the tiles kept. -/
def BufState.scrub (x : BufState) (b : Buf) (first n : Nat) (keep : List Nat) : BufState :=
  (rangeFrom first n).foldl (fun x k => if keep.contains k then x else x.clearTiles b k 1) x

/-- The in-place start of slot 0 (13 R309, 12 R274): the team goes on as the only team of the successor's launch, and what it stored and
has not written back is the successor's. -/
def State.startInPlace (s : State) (t : Team) (p : LaunchPkt) (id : Nat) : State :=
  let (eid, s0) := s.take
  let gs := (t.gangs.take p.gangs).map fun g => g.inherit p eid
  let keep (b : Buf) : List Nat :=
    let tiles := (t.gangs.take p.gangs).flatMap fun g => (namedTiles p.inht).flatMap fun i =>
      let d := descOf (g.treg i)
      if d.buf == b then d.set.map (d.tile t) else []
    tiles ++ (if b == .cb then ((rangeFrom 0 8).filter p.inhacc.testBit).map (t.accBase + ·) else [])
  let s1 := [Buf.wb, Buf.ab, Buf.cb, Buf.sb].foldl (fun s b =>
    s.modBuf t.core b fun x => x.scrub b (t.base b) (t.tilesIn b) (keep b)) s0
  let l : Launch := (s1.launch? id).getD ⟨id, t.func, none, none, 0, t.launch, p, 0, 0, 0, 0, s1.stamp, t.check⟩
  let n := newTeam l 0 0 t.core eid (t.wbBase, t.abBase, t.sbBase, t.accBase) 0 0
  let t1 : Team := { n with
    gangs := gs
    inPlace := true
    akind := t.akind &&& BitVec.ofNat 8 p.inhacc
    inherit := [BitVec.ofNat 32 (1 + p.inhacc * 256 + p.inht * 65536), BitVec.ofNat 32 p.inhv, BitVec.ofNat 32 (p.inhv / 2 ^ 32),
                BitVec.ofNat 32 p.inhs, BitVec.ofNat 32 (p.inhs / 2 ^ 32)] }
  let s2 := s1.modCore t.core fun c =>
    { (c.dropTeam t.launch t.num).ownSectors (t.launch, t.num) (id, 0) with
        poolV := c.poolV + t.takenV - t1.takenV
        poolS := c.poolS + t.takenS - t1.takenS }
  let s3 := { s2 with teams := s2.teams.map fun (x : Team) => if x.launch == t.launch && x.num == t.num then t1 else x }
  (s3.modLaunch t.launch fun y => { y with left := y.left - 1 }).modLaunch id fun y =>
    { y with nextCluster := 1, started := 1, left := 1 }

/-! ### Successor lists (13 R307) -/

/-- A record of a successor list: its address in pc, the slot in extra. -/
def State.listFault (s : State) (t : Team) (slot : Nat) (code : FaultCode) (detail : Nat) : State :=
  s.post (queueRecord t.func t.slist slot code detail t.launch)

/-- The scheduler and a team's end are no core: copies lock nothing against them. -/
def schedulerCore : Nat := 640

/-- What a read through a function's translation gives: bytes with their mark, a fault, or nothing until a peer has answered. -/
inductive Got where
  | bytes (b : List Byte) (bad : Bool)
  | fault (f : Flt)
  | wait
deriving DecidableEq, Repr

/-- Read `n` bytes where a translation leads, for a reader that is no instruction; its requests to a peer leave from `core`. -/
def State.readAt (s : State) (core func : Nat) (who : Waiter) (va n : Nat) (t : Trans) : Got × State :=
  match t.tgt with
  | .mem a =>
    let (b, bad, s1) := s.homeLoad a n func
    (.bytes b bad, s1)
  | .host pa =>
    let (b, s1) := s.hostRead pa n
    (.bytes b false, s1)
  | .buf k b off _ =>
    let (x, bad) := s.windowRead k b off n
    (.bytes x bad, s)
  | .peer v gpa =>
    (match s.fetchedBytes who va n with
     | some (b, bad) => (.bytes b bad, s)
     | none =>
       match s.resolve func v with
       | .error f => (.fault f, s)
       | .ok d => (.wait, s.askPeer core func who t.ty va gpa n v d))
  | .notify _ _ => (.fault ⟨.perm, 5⟩, s)

/-- A packet of a successor list. -/
def State.readPacket (s : State) (t : Team) (va : W64) : Got × State :=
  if !addrOk va then (.fault ⟨.perm, 6⟩, s)
  else
    match s.translate t.func (gvaOf va) .read (.thread 8) with
    | (.error f, s1) => (.fault f, s1)
    | (.ok tr, s1) =>
      match s1.checkTail schedulerCore t.func .ldacq va.toNat 64 tr with
      | some f => (.fault f.flt, s1)
      | none =>
        match s1.readAt t.core t.func (.list t.launch t.num) va.toNat 64 tr with
        | (.bytes b bad, s2) => (if bad then .fault ⟨.uncorrData, 0⟩ else .bytes b false, s2)
        | r => r

/-- How the reading of a list ends. -/
inductive ListEnd where
  | done
  | wait
  | fault (slot : Nat) (f : Flt)
deriving DecidableEq, Repr

/-- The packets of a list in slot order, up to the first that is not there or faults. -/
def State.readList (s : State) (t : Team) : List Nat → List (List Byte) × ListEnd × State
  | [] => ([], .done, s)
  | k :: rest =>
    match s.readPacket t (BitVec.ofNat 64 (t.slist + 64 * k)) with
    | (.wait, s1) => ([], .wait, s1)
    | (.fault f, s1) => ([], .fault k f, s1)
    | (.bytes b _, s1) =>
      let (ps, e, s2) := s1.readList t rest
      (b :: ps, e, s2)

/-- Launch the packets read; `e` is the terminal fault that ended the list. -/
def State.endList (s : State) (t : Team) (ps : List (List Byte)) (e : Option (Nat × Flt)) : State :=
  let root := (s.launch? t.launch).bind (·.root)
  let inPlace := match ps.head? with
    | some b => (badLaunch b true).isNone && !s.cannotFit t.func (launchOf b) && (launchOf b).inPlace && !s.demoted t (launchOf b)
    | none => false
  let s1 := (ps.mapIdx fun i b => (i, b)).foldl (fun s x =>
    match badLaunch x.2 (x.1 == 0) with
    | some off => s.listFault t x.1 .queueFmt (queueDetail 3 (queueLow 0 off))
    | none =>
      let p := launchOf x.2
      if s.cannotFit t.func p then s.listFault t x.1 .resource 0
      else
        let (id, s2) := s.enterLaunch t.func none root 0 t.launch p
        let s3 := s2.modLaunch t.launch fun y => { y with succ := y.succ + 1 }
        if x.1 = 0 && inPlace then s3.startInPlace t p id else s3) (s.dropFetched (.list t.launch t.num))
  let s2 := match e with
    | some (k, f) => s1.listFault t k .queueFmt (queueDetail 3 (queueLow (codeByte f.code) 0))
    | none => s1
  if inPlace then s2 else s2.freeTeam t

/-- READING: the team's packets are read with an acquire, checked and launched; slot 0 may start in place. -/
def execSuccessorListRead (launch team : Nat) (s : State) : Out :=
  .next (match s.team? launch team with
    | none => s
    | some t =>
      if t.st != .reading then s
      else if s.pageReqs.any (fun p => p.sharers.any fun x => x.who == .list launch team) then s
      else
        match (s.acquire t.core).readList t (rangeFrom 0 t.sn) with
        | (_, .wait, s1) => s1
        | (ps, .done, s1) => s1.endList t ps none
        | (ps, .fault k f, s1) =>
          if classOf f.code = .retryable then
            (s1.pageMiss t.func f ⟨.list launch team, .read, gvaOf (BitVec.ofNat 64 (t.slist + 64 * k))⟩).2
          else s1.endList t ps (some (k, f)))

/-- A peer's answer to a sector of a list is a fault: it ends the list at that sector's packet. -/
def State.listReadFault (s : State) (launch team sector : Nat) (f : Flt) : State :=
  match s.team? launch team with
  | none => s
  | some t =>
    if t.st != .reading then s
    else
      let k := (sector * 32 - t.slist) / 64
      let (ps, _, s1) := s.readList t (rangeFrom 0 k)
      s1.endList t ps (some (k, f))

end Sys2Proof.Machine
end

