-- ==== Sys2Proof/Machine/Queues.lean ====
section
/-! DEFINITION. The scheduler of user-mode queues (06 R147 to R152, R382, 13 R283 to R285). -/

namespace Sys2Proof.Machine

/-! ### Accesses of the scheduler -/

/-- Core whose requester serves a function's scheduler (log 25). -/
def State.qCore (s : State) (func : Nat) : Nat := 8 * ((s.func func).bayList.headD 0)

/-- Translate an access of the scheduler for a function (06 R149), with the checks of an access of that use. -/
def State.qAccess (s : State) (func va n : Nat) (u : Use) : Except Flt Trans × State :=
  let a := BitVec.ofNat 64 va
  if !addrOk a then (.error ⟨.perm, 6⟩, s)
  else if va % n ≠ 0 then (.error ⟨.misalign, va⟩, s)
  else
    match s.translate func (gvaOf a) u.need (u.access n) with
    | (.error f, s1) => (.error f, s1)
    | (.ok t, s1) =>
      match s1.checkTail schedulerCore func u va n t with
      | some f => (.error f.flt, s1)
      | none => (.ok t, s1)

/-- An access of the scheduler faults (06 R149, R382): a missing translation is asked for, any other fault stops the queue. `site` is
the origin and offset of the access. -/
def State.qFault (s : State) (func page idx site : Nat) (f : Flt) (need : Need) (va : Nat) : State :=
  match classOf f.code with
  | .retryable =>
    ((s.pageMiss func f ⟨.queue func page, need, gvaOf (BitVec.ofNat 64 va)⟩).2).modQueue func page fun q =>
      { q with parked := true, site := site, idx := idx }
  | _ => s.queueFault func page idx .queueFmt (site + codeByte f.code * 256)

/-- An access that a started packet makes faults (06 R149, R152): a fault other than a miss stops the queue where rd stands and ends
the packet, which does not run again (log 83). -/
def State.startedFault (s : State) (func page idx site : Nat) (f : Flt) (need : Need) (va : Nat) : State :=
  let s1 := s.qFault func page idx site f need va
  if classOf f.code = .retryable then s1 else s1.packetDone func page idx

/-- Where the header or a slot lies: in device memory, or behind a peer window (06 R147). -/
def State.qPlace (s : State) (func page idx site va : Nat) (u : Use) : Option Trans × State :=
  match s.qAccess func va 8 u with
  | (.error f, s1) => (none, s1.qFault func page idx site f u.need va)
  | (.ok t, s1) =>
    match t.tgt with
    | .mem _ => (some t, s1)
    | .peer _ _ => (some t, s1)
    | _ => (none, s1.qFault func page idx site ⟨.perm, 5⟩ u.need va)

/-- Read 64 bytes of the header or a slot; none while a peer has not answered, or after a fault. -/
def State.qRead (s : State) (func page idx site va : Nat) : Option (List Byte) × State :=
  match s.qPlace func page idx site va .ldacq with
  | (none, s1) => (none, s1)
  | (some t, s1) =>
    match s1.readAt (s1.qCore func) func (.queue func page) va 64 t with
    | (.bytes b bad, s2) => if bad then (none, s2.qFault func page idx site ⟨.uncorrData, 0⟩ .read va) else (some b, s2)
    | (.fault f, s2) => (none, s2.qFault func page idx site f .read va)
    | (.wait, s2) => (none, s2)

/-- Is a request of a packet under way? -/
def State.qRequested (s : State) (func page idx : Nat) : Bool :=
  s.cores.any fun c => c.reqs.any fun r => r.owner == .queue func page idx

/-- Send a packet's access through a peer window. `fail` takes the fault of a virtual device number. -/
def State.qSend (s : State) (func page idx v : Nat) (ty : PType) (fail : Flt → State) (k : Dest → Packet) : State :=
  if s.qRequested func page idx || !s.reqRoom (s.qCore func) then s
  else
    match s.resolve func v with
    | .error f => fail f
    | .ok d => (s.send (s.qCore func) (.queue func page idx) 0 ty func v (k d)).2

/-- The `k`-th write of a packet's start: 0 its ready byte, 1 rd (06 R149). True once it is performed; the second, a release, is sent
to a peer only after the first has been acknowledged. -/
def State.qWrite (s : State) (func page idx k : Nat) (t : Trans) (off : Nat) (bytes : List Byte) : Bool × State :=
  if k < ((s.queue? func page).map (·.wrote)).getD 0 then (true, s)
  else
    match t.tgt with
    | .mem a => (true, (s.homeWrite (a + off) func bytes false).modQueue func page fun q => { q with wrote := k + 1 })
    | .peer v gpa =>
      (false, s.qSend func page idx v t.ty
        (fun f => s.qFault func page idx (if k = 0 then queueDetail 0 1 else queueDetail 1 24) f .write 0)
        fun d => d.packet (if k = 0 then .store else .strel) (gpa + off) bytes.length (packBytes bytes))
    | _ => (false, s)

/-- First field of a queue header that breaks Table 6-12. -/
def badHeader (h : List Byte) : Option Nat :=
  let slots := leField h 8 4
  [(leField h 0 8 % 64 != 0, 0), (decide (slots < 2) || decide (65536 < slots) || 2 ^ Nat.log2 slots != slots, 8),
   (decide (8 ≤ leField h 12 1), 12), (!zeroBytes h 13 3, 13), (!zeroBytes h 40 24, 40)].findSome? fun x =>
    if x.1 then some x.2 else none

/-- The packet that the scheduler finds at a queue's rd: its index, the address of its slot, its bytes; or only a new state. -/
inductive Taken where
  | none (s : State)
  | pkt (idx va : Nat) (bytes : List Byte) (s : State)

/-- Is an access of the scheduler to the header or the slot at rd on its way to a peer? -/
def State.qAway (s : State) (func : Nat) (q : Queue) : Bool :=
  s.cores.any fun c => c.reqs.any fun r => (match r.owner with
    | .fetch (.queue f p) _ => f == func && p == q.page
    | .queue f p i => f == func && p == q.page && !q.running.any (·.slot == i)
    | _ => false)

/-- May the scheduler read a queue: rung, not stopped, no access outstanding, no packet that holds later ones, and the packet at rd
not with the dispatcher already? -/
def State.mayRead (s : State) (func : Nat) (q : Queue) : Bool :=
  q.readable && !q.stopped && !q.parked && !(q.running.any (·.waiting)) && !(s.func func).frozen && !s.qAway func q &&
  !(q.seen && s.launches.any fun l => l.func == func && l.queue == some (q.page, q.lastRd) && l.started == 0 && l.nextCluster == 0)

/-- A queue's header as the scheduler can see it at once: at its home, or as a peer has answered. -/
def State.queueHeader (s : State) (func : Nat) (q : Queue) : Option (List Byte) :=
  match (s.qAccess func q.header 8 .ldacq).1 with
  | .ok t =>
    (match t.tgt with
     | .mem a => some (s.homeRead a 64)
     | .peer _ _ => (s.fetchedBytes (.queue func q.page) q.header 64).map (·.1)
     | _ => none)
  | .error _ => none

/-- Priority that a queue's header gives it; 0 until it is known. -/
def State.queuePrio (s : State) (func : Nat) (q : Queue) : Nat := ((s.queueHeader func q).map fun h => leField h 12 1).getD 0

/-- Is it a queue's turn (06 R149): no queue of the partition that may be read has a higher priority, and among those of its own it
stands first? -/
def State.queueTurn (s : State) (func : Nat) (q : Queue) : Bool :=
  let l := (s.func func).queues.filter (s.mayRead func)
  let p := s.queuePrio func q
  l.all (fun x => decide (s.queuePrio func x ≤ p)) && ((l.find? fun x => s.queuePrio func x == p).map (·.page)) == some q.page

/-- Read the header and the slot at rd (06 R149). A slot that is not ready ends the reading until a doorbell write. A header behind a
peer window is asked for before its priority is known. -/
def State.readQueue (s : State) (func page : Nat) : Taken :=
  match s.queue? func page with
  | none => .none s
  | some q =>
    if !s.mayRead func q || ((s.queueHeader func q).isSome && !s.queueTurn func q) then .none s
    else
      match s.qRead func page q.lastRd (queueDetail 1 0) q.header with
      | (none, s1) => .none s1
      | (some hd, s1) =>
        let rd := if q.seen then q.lastRd else leField hd 24 8
        let s2 := s1.modQueue func page fun q => { q with lastRd := rd, seen := true }
        match badHeader hd with
        | some off => .none (s2.queueFault func page rd .queueFmt (queueDetail 1 off))
        | none =>
          let va := (leField hd 0 8 + 64 * (rd % leField hd 8 4)) % 2 ^ 64
          match s2.qRead func page rd (queueDetail 0 1) va with
          | (none, s3) => .none s3
          | (some b, s3) =>
            let ready := leField b 1 1
            if ready = 1 || decide (rd < q.force) || q.wrote != 0 then .pkt rd va b s3
            else if ready = 0 then
              .none ((s3.modQueue func page fun q => { q with readable := false }).dropFetched (.queue func page))
            else .none (s3.queueFault func page rd .queueFmt (queueDetail 0 1))

/-- A packet starts (06 R149): its ready byte is written 0, then rd advances. True when both writes were performed. The queue goes to
the end of the list, so that equal queues are served in turn. -/
def State.beginPacket (s : State) (func page idx va : Nat) (p : QPacket) : Bool × State :=
  match s.queue? func page with
  | none => (false, s)
  | some q =>
    match s.qPlace func page idx (queueDetail 0 1) va .store with
    | (none, s1) => (false, s1)
    | (some a, s1) =>
      match s1.qPlace func page idx (queueDetail 1 24) (q.header + 24) .strel with
      | (none, s2) => (false, s2)
      | (some r, s2) =>
        match s2.qWrite func page idx 0 a 1 [0] with
        | (false, s3) => (false, s3)
        | (true, s3) =>
          match s3.qWrite func page idx 1 r 0 (leBytes (idx + 1) 8) with
          | (false, s4) => (false, s4)
          | (true, s4) =>
            (true, (s4.dropFetched (.queue func page)).modFunc func fun f =>
              { f with queues := (f.queues.filter (·.page != page)) ++ (f.queues.filter (·.page == page)).map fun q =>
                  { q with lastRd := (idx + 1) % 2 ^ 64, wrote := 0, running := q.running ++ [p] } })

/-- A queue event for packets of one type: reading the queue may stop it or end its reading; a packet of another type is left to its
own event; a type that Table 6-13 does not name faults. -/
def State.takeType (s : State) (func page type : Nat) (k : Nat → Nat → List Byte → State → State) : State :=
  match s.readQueue func page with
  | .none s1 => s1
  | .pkt idx va b s1 =>
    let t := leField b 0 1
    if 6 < t then s1.queueFault func page idx .queueFmt (queueDetail 0 0)
    else if t = type then k idx va b s1
    else s

/-- Refuse a packet for its field at an offset. -/
def State.badPacket (s : State) (func page idx off : Nat) : State := s.queueFault func page idx .queueFmt (queueDetail 0 off)

/-- Offset of a field of `n` bytes that must be zero, when it is not (06 R382). -/
def notZero (b : List Byte) (off n : Nat) : Option Nat := if zeroBytes b off n then none else some off

/-! ### NOP -/

def execQueueNop (func page : Nat) (s : State) : Out :=
  .next (s.takeType func page 0 fun idx va b s1 =>
    match notZero b 2 62 with
    | some off => s1.badPacket func page idx off
    | none =>
      let (ok, s2) := s1.beginPacket func page idx va ⟨idx, 0, b, false, none⟩
      if ok then s2.packetDone func page idx else s2)

/-! ### LAUNCH (13 R279, R283) -/

/-- Pages of a range of guest virtual addresses (15 R354). -/
def pagesOf (r : Nat × Nat) : List Nat := (rangeFrom 0 (ceilDiv r.2 65536)).map fun k => r.1 + 65536 * k

/-- Bytes of an input range as the function's translation finds them; a page without one counts as zeros. -/
def State.snapshot (s : State) (func : Nat) (r : Nat × Nat) : List Byte :=
  ((pagesOf r).flatMap fun va =>
    match (s.translate func (gvaOf (BitVec.ofNat 64 va)) .read .copy).1 with
    | .ok ⟨_, .mem a, _, _⟩ => s.homeRead a 65536
    | _ => List.replicate 65536 0).take r.2

/-- Write a snapshot back (15 R356). -/
def State.putSnapshot (s : State) (func base : Nat) (bytes : List Byte) : State :=
  ((pagesOf (base, bytes.length)).mapIdx fun i va => (i, va)).foldl (fun s x =>
    match (s.translate func (gvaOf (BitVec.ofNat 64 x.2)) .write .copy).1 with
    | .ok ⟨_, .mem a, _, _⟩ => s.homeWrite a func ((bytes.drop (65536 * x.1)).take 65536) false
    | _ => s) s

/-- Record mode at the start of a LAUNCH packet (15 R355): the packet, then the input ranges. -/
def State.logLaunch (s : State) (l : Launch) (idx : Nat) : State :=
  match (s.func l.func).recmode with
  | none => s
  | some r =>
    if r.replaying then s
    else
      let s1 := s.logWrite l.func (logLine 1 0 l.id l.header idx ++ l.pkt.raw)
      r.ranges.foldl (fun s x =>
        let pos := (((s.func l.func).recmode).map (·.pos)).getD 0
        let bytes := s.snapshot l.func x
        s.logWrite l.func (logLine 2 0 l.id (r.log + pos + 32) bytes.length ++ bytes ++
          List.replicate (ceilDiv bytes.length 32 * 32 - bytes.length) 0)) s1

/-- Does the launch of a replayed packet wait: replay launches the logged packets in order, one at a time (15 R356)? -/
def State.replayNext (s : State) (func page : Nat) : Option (RecMode × Nat × List Byte) :=
  match (s.func func).recmode, s.queue? func page with
  | some r, some q =>
    if !r.replaying || s.launches.any (·.func == func) then none
    else
      match (s.logEntries r).find? fun x => leField x.2 0 1 == 1 && !r.used.contains x.1 with
      | some (off, l) => if leField l 16 8 = q.header then some (r, off, l) else none
      | none => none
  | _, _ => none

/-- Snapshots that follow a launch entry of the log, up to the next launch. -/
def State.replaySnapshots (s : State) (r : RecMode) (off : Nat) : List (List Byte) :=
  let rest := (s.logEntries r).filter fun x => decide (off < x.1)
  ((rest.takeWhile fun x => leField x.2 0 1 != 1).filter fun x => leField x.2 0 1 == 2).map fun x =>
    s.homeRead (leField x.2 16 8) (leField x.2 24 8)

def execQueueLaunch (func page : Nat) (s : State) : Out :=
  .next (match (s.func func).recmode.map (·.replaying) with
    | some true =>
      (match s.replayNext func page with
       | none => s
       | some (r, off, l) =>
         let b := s.homeRead (r.log + off + 32) 64
         let snaps := s.replaySnapshots r off
         let s1 := (r.ranges.zip snaps).foldl (fun s x => s.putSnapshot func x.1.1 x.2) s
         let s2 := s1.modFunc func fun f => { f with recmode := some { r with used := r.used ++ [off] } }
         let p := launchOf b
         if (badLaunch b false).isSome || s2.cannotFit func p then s2
         else (s2.enterLaunch func none (some (page, leField l 24 8)) (leField l 16 8) 0 p).2)
    | _ =>
      s.takeType func page 1 fun idx va b s1 =>
        match badLaunch b false with
        | some off => s1.badPacket func page idx off
        | none =>
          let p := launchOf b
          let header := ((s1.queue? func page).map (·.header)).getD 0
          if s1.cannotFit func p then s1.queueFault func page idx .resource 0
          else if p.range && p.lo == p.hi then
            -- an empty range task starts no team and completes at once (13 R286)
            let (ok, s2) := s1.beginPacket func page idx va ⟨idx, 1, b, false, none⟩
            if !ok then s2
            else
              let (id, s3) := s2.enterLaunch func (some (page, idx)) (some (page, idx)) header 0 p
              let s4 := (s3.launch? id).map (s3.logLaunch · idx)
              { (s4.getD s3) with launches := (s4.getD s3).launches.filter (·.id != id) }.packetDone func page idx
          else (s1.enterLaunch func (some (page, idx)) (some (page, idx)) header 0 p).2)

/-- The slot of a queue's packet. -/
def State.slotVa (s : State) (func page idx : Nat) : Nat :=
  match (s.queue? func page).bind (s.queueHeader func) with
  | none => 0
  | some hd => (leField hd 0 8 + 64 * (idx % max 1 (leField hd 8 4))) % 2 ^ 64

/-- Place the next cluster of a launch on cores of a bay (13 R282, R283). Its packet starts when its first cluster is placed. -/
def execClusterPlacement (launch bay : Nat) (cores : List Nat) (s : State) : Out :=
  .next (match s.launch? launch with
    | none => s
    | some l =>
      if (s.dispatchNext l.func).map (·.id) != some launch || !s.clusterFits l.func bay cores l.pkt then s
      else if l.nextCluster != 0 then s.placeCluster l cores
      else
        match l.queue with
        | none => (s.logLaunch l 0).placeCluster l cores
        | some (page, idx) =>
          match s.queue? l.func page with
          | none => s
          | some q =>
            if q.parked || q.stopped then s
            else
              let (ok, s1) := s.beginPacket l.func page idx (s.slotVa l.func page idx) ⟨idx, 1, l.pkt.raw, false, none⟩
              if ok then (s1.logLaunch l idx).placeCluster l cores
              else if ((s1.queue? l.func page).map (·.stopped)).getD true then
                { s1 with launches := s1.launches.filter (·.id != launch) }
              else s1)

/-! ### COPY (06 R129, R142) -/

/-- A COPY packet. DESIGN CHOICE (log 82): a partition without a bay is found before the descriptor is checked. It takes a slot and range
locks behind the gangs that wait for them (06 R127). -/
def execQueueCopy (func page core : Nat) (s : State) : Out :=
  .next (s.takeType func page 2 fun idx va b s1 =>
    let ws : List W64 := (rangeFrom 0 8).map fun k => BitVec.ofNat 64 (leField b (8 * k) 8)
    let d := cdescOf ws
    let bad (x : Nat) : State := s1.queueFault func page idx .queueFmt (queueDetail 2 x)
    if (s1.func func).bayList.isEmpty then s1.queueFault func page idx .resource 0
    else
      match (staticChecks ws).map (·.detail) with
      | some x => bad x
      | none =>
        if d.skind ≠ 0 then bad 16
        else if d.dkind ≠ 0 then bad 19
        else
          match s1.clusterChecks none ws with
          | some f => bad f.detail
          | none =>
            if !(s1.func func).hasBay (bayOf core) || (s1.core core).outOfUse || !s1.copySlotFree core s1.fresh ||
               !s1.lockFree core s1.fresh (d.locks 0 0).length then s
            else
              let (ok, s2) := s1.beginPacket func page idx va ⟨idx, 2, b, false, none⟩
              if !ok then s2
              else
                let header := ((s2.queue? func page).map (·.header)).getD 0
                let x : Copy := ⟨0, .queue func page idx idx, ws, header, 0, 0, 15, 31, false, 0, d.seq s2 core func, none,
                  chunksOf d.elems (if d.ragged = 0 then 1 else 0), []⟩
                (s2.startCopy core x fun id => d.locks id func).2)

/-! ### WAITTILE (13 R284) -/

def execQueueWaittile (func page : Nat) (s : State) : Out :=
  .next (s.takeType func page 3 fun idx va b s1 =>
    let addr := leField b 8 8
    let n := leField b 16 2
    match (notZero b 2 1).orElse fun _ => notZero b 3 5 with
    | some off => s1.badPacket func page idx off
    | none =>
      if n = 0 || decide (192 < n) then s1.badPacket func page idx 16
      else
        match notZero b 18 46 with
        | some off => s1.badPacket func page idx off
        | none =>
          let a := BitVec.ofNat 64 addr
          if !addrOk a then s1.qFault func page idx (queueDetail 0 8) ⟨.perm, 6⟩ .read addr
          else
            match s1.translate func (gvaOf a) .read .copy with
            | (.error f, s2) => s2.qFault func page idx (queueDetail 0 8) f .read addr
            | (.ok t, s2) =>
              match t.tgt with
              | .buf core k off _ =>
                let first := off / tileSize k
                if bufSize k / tileSize k < first + n then s2.badPacket func page idx 16
                else
                  let (ok, s3) := s2.beginPacket func page idx va ⟨idx, 3, b, true, some (core, k, first, n)⟩
                  if ok then s3.testWaitTiles core k else s3
              | _ => s2.badPacket func page idx 8)

/-! ### WAITVAL (13 R285) -/

/-- Does the word meet the packet's condition? -/
def valMet (b : List Byte) (w : Nat) : Bool :=
  let m := leField b 24 8
  let x := w &&& m
  let v := leField b 16 8 &&& m
  match leField b 2 1 with
  | 0 => x == v
  | 1 => x != v
  | 2 => decide (v ≤ x)
  | _ => decide (x < v)

/-- The read of a waiting WAITVAL. -/
def State.pollVal (s : State) (func page : Nat) (p : QPacket) : State :=
  let va := leField p.bytes 8 8
  let fail (s : State) (f : Flt) : State := s.startedFault func page p.slot (queueDetail 0 8) f .read va
  match s.qAccess func va 8 .ldacq with
  | (.error f, s1) => fail s1 f
  | (.ok t, s1) =>
    match t.tgt with
    | .peer v gpa => s1.qSend func page p.slot v t.ty (fail s1) fun d => d.packet .read gpa 8 0
    | _ =>
      match s1.readAt (s1.qCore func) func (.queue func page) va 8 t with
      | (.bytes b bad, s2) =>
        if bad then fail s2 ⟨.uncorrData, 0⟩
        else if valMet p.bytes (leNat b) then s2.packetDone func page p.slot else s2
      | (.fault f, s2) => fail s2 f
      | (.wait, s2) => s2

/-- The waiting packet of a type. -/
def State.waitingOf (s : State) (func page type : Nat) : Option QPacket :=
  (s.queue? func page).bind fun q => if q.parked then none else q.running.find? (·.type == type)

def execWaitvalPoll (func page : Nat) (s : State) : Out :=
  .next (match s.waitingOf func page 4 with
    | none => s
    | some p => s.pollVal func page p)

def execQueueWaitval (func page : Nat) (s : State) : Out :=
  .next (s.takeType func page 4 fun idx va b s1 =>
    if 3 < leField b 2 1 then s1.badPacket func page idx 2
    else
      match notZero b 3 5 with
      | some off => s1.badPacket func page idx off
      | none =>
        if leField b 8 8 % 8 ≠ 0 then s1.badPacket func page idx 8
        else
          match notZero b 32 32 with
          | some off => s1.badPacket func page idx off
          | none =>
            let p : QPacket := ⟨idx, 4, b, true, none⟩
            let (ok, s2) := s1.beginPacket func page idx va p
            if ok then s2.pollVal func page p else s2)

/-! ### SIGNAL and FENCEMARK (06 R150) -/

/-- A packet's store is performed: it completes, and a FENCEMARK moves the replay index (14 R335). -/
def State.signalled (s : State) (func page : Nat) (p : QPacket) : State :=
  let s1 := s.packetDone func page p.slot
  if p.type = 6 then s1.modQueue func page fun q => { q with replay := (p.slot + 1) % 2 ^ 64 } else s1

/-- Does a SIGNAL or FENCEMARK still wait: for an earlier packet of the queue, or for its reply? -/
def State.signalWaits (s : State) (func page : Nat) (p : QPacket) : Bool :=
  ((s.queue? func page).map fun q => q.running.any fun y => decide (y.slot < p.slot)).getD true || s.qRequested func page p.slot

/-- Perform the store or add of a SIGNAL, or the store of a FENCEMARK, once every earlier packet of the queue has completed. -/
def State.signal (s : State) (func page : Nat) (p : QPacket) : State :=
  if s.signalWaits func page p then s
  else
    let va := leField p.bytes 8 8
    let v := leField p.bytes 16 8
    let add := p.type == 5 && leField p.bytes 2 1 == 1
    let (scope, s0) := s.limitScope func (if p.type = 6 then 5 else 4)
    let u : Use := if add then .atomic scope else .strel
    let fail (s : State) (f : Flt) : State := s.startedFault func page p.slot (queueDetail 0 8) f u.need va
    match s0.qAccess func va 8 u with
    | (.error f, s1) => fail s1 f
    | (.ok t, s1) =>
      match t.tgt with
      | .mem a =>
        if !add then (s1.homeWrite a func (leBytes v 8) false).signalled func page p
        else
          let (b, bad, s2) := s1.homeLoad a 8 func
          if bad then fail s2 ⟨.uncorrData, 0⟩
          else (s2.homeWrite a func (leBytes ((leNat b + v) % 2 ^ 64) 8) false).signalled func page p
      | .host pa => State.signalled { s1 with sent := s1.sent ++ [Sent.hostWrite pa 8 (BitVec.ofNat 128 v)] } func page p
      | .buf k b off _ => (s1.modBuf k b fun x => x.put off (leBytes v 8) false).signalled func page p
      | .notify pg off => (s1.bellStore func pg off 8).signalled func page p
      | .peer x gpa => s1.qSend func page p.slot x t.ty (fail s1) fun d =>
          if add then (AtomOp.mk 0 0 64 false v 0).packet d gpa 0 false else d.packet .strel gpa 8 (BitVec.ofNat 128 v)

/-- The reply to a packet's access through a peer window: its own, or a write of its start. -/
def State.qReply (s : State) (func page idx : Nat) (data : Nat) (bad : Bool) : State :=
  match s.queue? func page with
  | none => s
  | some q =>
    match q.running.find? (·.slot == idx) with
    | none => if idx = q.lastRd then s.modQueue func page fun q => { q with wrote := q.wrote + 1 } else s
    | some p =>
      if p.type ≠ 4 then s.signalled func page p
      else if bad then s.startedFault func page idx (queueDetail 0 8) ⟨.uncorrData, 0⟩ .read (leField p.bytes 8 8)
      else if valMet p.bytes data then s.packetDone func page idx
      else s

/-- A packet's access through a peer window ends in a fault: its own, or a write of its start, which then does not come about. -/
def State.qReplyFault (s : State) (func page idx : Nat) (f : Flt) : State :=
  match s.queue? func page with
  | none => s
  | some q =>
    if q.running.any (·.slot == idx) then
      (s.queueFault func page idx .queueFmt (queueDetail 0 8 + codeByte f.code * 256)).packetDone func page idx
    else if idx = q.lastRd then
      let s1 := s.queueFault func page idx .queueFmt
        ((if q.wrote = 0 then queueDetail 0 1 else queueDetail 1 24) + codeByte f.code * 256)
      { s1 with launches := s1.launches.filter fun l =>
          !(l.func == func && l.queue == some (page, idx) && l.started == 0 && l.nextCluster == 0) }
    else s

/-- A peer's answer to a sector of the header or of the slot at rd is a fault. -/
def State.qFetchFault (s : State) (func page sector : Nat) (f : Flt) : State :=
  match s.queue? func page with
  | none => s
  | some q =>
    let site := if (sectorsOf q.header 64).contains sector then queueDetail 1 0 else queueDetail 0 1
    s.qFault func page q.lastRd site f .read (sector * 32)

/-- A running packet of a type that can go on, else the packet at rd. -/
def State.signalEvent (s : State) (func page type : Nat) (bad : List Byte → Option Nat) : State :=
  match (s.waitingOf func page type).filter (!s.signalWaits func page ·) with
  | some p => s.signal func page p
  | none =>
    s.takeType func page type fun idx va b s1 =>
      match bad b with
      | some off => s1.badPacket func page idx off
      | none =>
        let p : QPacket := ⟨idx, type, b, false, none⟩
        let (ok, s2) := s1.beginPacket func page idx va p
        if ok then s2.signal func page p else s2

def badSignal (b : List Byte) : Option Nat :=
  if 1 < leField b 2 1 then some 2
  else (notZero b 3 5).orElse fun _ => if leField b 8 8 % 8 ≠ 0 then some 8 else notZero b 24 40
def badMark (b : List Byte) : Option Nat :=
  (notZero b 2 6).orElse fun _ => if leField b 8 8 % 8 ≠ 0 then some 8 else notZero b 24 40

def execQueueSignal (func page : Nat) (s : State) : Out := .next (s.signalEvent func page 5 badSignal)
def execQueueFencemark (func page : Nat) (s : State) : Out := .next (s.signalEvent func page 6 badMark)

/-- A doorbell write from the host (16 R359). -/
def execDoorbellWrite (func page : Nat) (s : State) : Out := .next (if 4095 < page then s else s.ringBell func page)

end Sys2Proof.Machine
end

