-- ==== Sys2Proof/Machine/Fabric.lean ====
section
/-! DEFINITION. The Horile fabric (chapter 05): replies and retries at the requester, the router, and the target side with its stream
table. -/

namespace Sys2Proof.Machine

/-! ### The requester (05 R108 to R111, R114, R124) -/

def State.req? (s : State) (core id : Nat) : Option FabReq := (s.core core).reqs.find? (·.id == id)
def State.modReq (s : State) (core id : Nat) (f : FabReq → FabReq) : State :=
  s.modCore core fun c => { c with reqs := modIf (fun r => r.id == id) f c.reqs }

/-- A request has its reply or its fault: its entry frees, packets behind it leave, and what its gang waited for is tried. -/
def State.endReq (s : State) (core : Nat) (r : FabReq) (k : State → State) : State :=
  let s1 := k (s.modCore core fun c => { c with reqs := c.reqs.filter (·.id != r.id) })
  let s2 := s1.sendHeld core
  match r.gang? with
  | some (l, t, g) => (s2.tryRfence l t g).endGang l t g
  | none => s2

/-- The last packet of an `RSTREL` of a segment is answered: the segment is closed at the target (05 R119). -/
def State.released (s : State) (core : Nat) (r : FabReq) : State :=
  match r.pkt.kind, r.gang? with
  | .rstrel, some (l, t, g) =>
    let more := (s.core core).reqs.any fun q =>
      q.gang? == some (l, t, g) && q.pkt.kind == .rstrel && q.pkt.dst == r.pkt.dst && q.pkt.func == r.pkt.func && q.pkt.seg == r.pkt.seg
    if more then s
    else s.modGang l t g fun x =>
      let y := x.stream r.pkt.dst r.pkt.func
      x.putStream { y with rel := y.rel.filter (· != r.pkt.seg) }
  | _, _ => s

/-- Does a reader still want what it asked a peer for? -/
def State.wanted (s : State) (who : Waiter) : Bool :=
  match who with
  | .queue f p => (s.queue? f p).isSome
  | .list l t => (s.team? l t).isSome
  | _ => false

/-- Deliver OK (05 Table 5-2). -/
def State.replyOk (s : State) (core id : Nat) (data : BitVec 256) (poison : Bool) : State :=
  match s.req? core id with
  | none => s
  | some r =>
    s.endReq core r fun s =>
      let s := if Sys2Proof.Machine.PktKind.isStore r.pkt.kind then s.shutReads core r.pkt.dst r.pkt.func (r.pkt.gpa / 32) else s
      let bytes := leBytes data.toNat 32
      match r.owner with
      | .op l t g op lane =>
        (match (s.gang? l t g).bind (·.op? op) with
         | none => s
         | some o =>
           let va := ((o.elems.find? (·.lane == lane)).map (·.va)).getD 0
           let old := data.toNat % 2 ^ 64
           -- an ATOM or CAS is recorded, or takes its logged value (15 R355, R356)
           let (v, s1) := match o.kind with
             | .atom _ _ _ => s.loggedAtomic r.func l g lane va old
             | .cas _ _ => s.loggedAtomic r.func l g lane va old
             | _ => (old, s)
           s1.modElem l t g op lane fun e =>
             if e.st == .fabric id then { e with st := .done, data := BitVec.ofNat 128 v, poison := poison } else e)
      | .fill k slot _ => (match (s.core k).slots.find? (·.id == slot) with
        | some x => s.fillSlot k x bytes poison
        | none => s)
      | .fetch who sector => if s.wanted who then { s with fetched := s.fetched ++ [⟨who, sector, data, poison⟩] } else s
      | .store _ _ _ _ _ _ => s.released core r
      | .chunkRead k c n =>
        (s.keepSector k c (.peer (r.pkt.dst * 64 + r.pkt.func) (r.pkt.gpa / 32 * 32)) bytes (allBad poison)).modChunk k c n fun x =>
          if x.st != .fabric id then x else { x with st := .running }
      | .chunkWrite k c n =>
        (match s.copy? k c with
         | none => s
         | some x =>
           if (x.chunk n).st != .ack id then s
           else
             match x.store with
             | some m =>
               (s.modChunk k c n fun y =>
                 { y with next := y.next + 1, phase := 1, st := if y.next + 1 = y.last then .done else .running }).copyCount x m.size
             | none => (s.modChunk k c n (cdescOf x.words).step).copyCount x (cdescOf x.words).size)
      | .cpyt k c lane => s.modCpytLane k c lane fun z => if z.st != .fabric id then z else z.take bytes (allBad poison)
      | .queue f page idx => s.qReply f page idx (data.toNat % 2 ^ 64) poison

/-- Deliver a fault to whoever issued a request. A fabric store's fault ends its gang (05 R124); `RFENCE` completes with it. -/
def State.reqFault (s : State) (core : Nat) (r : FabReq) (code : FaultCode) (detail flags : Nat) : State :=
  s.endReq core r fun s =>
    match r.owner with
    | .op l t g op lane =>
      (match (s.gang? l t g).bind (·.op? op) with
       | none => s
       | some o =>
         match o.kind with
         | .rfence _ _ _ =>
           s.rfenceFault l t g o code detail flags
         | _ => s.elemFault l t g op lane ⟨⟨code, detail⟩, none⟩ flags)
    | .fill k slot _ => (match (s.core k).slots.find? (·.id == slot) with
      | some x => s.failSlot k x ⟨code, detail⟩ flags
      | none => s)
    | .fetch (.queue f p) sector => s.qFetchFault f p sector ⟨code, detail⟩
    | .fetch (.list l t) sector => s.listReadFault l t sector ⟨code, detail⟩
    | .fetch _ _ => s
    | .store l t g lane pc word =>
      (if code = .fabricTimeout then s else s.released core r).gangFault l t g (1#32 <<< lane) pc word code detail flags
    | .chunkRead k c n => s.chunkFault k c n code detail flags
    | .chunkWrite k c n => s.chunkFault k c n code detail flags
    | .cpyt k c lane => s.cpytFault k c lane code detail flags
    | .queue f page idx => s.qReplyFault f page idx ⟨code, detail⟩

/-- Detail of FABRIC_TIMEOUT (05 Table 5-2a). -/
def FabReq.timeout (r : FabReq) (kind : Nat) : Nat := kind * 2 ^ 60 + r.pkt.dst * 2 ^ 52 + r.pkt.gpa % 2 ^ 52

/-- A NACK (05 R111): retry number k waits 4^k µs; a NACK to the fourth retry ends the request. -/
def State.nacked (s : State) (core id kind : Nat) : State :=
  match s.req? core id with
  | none => s
  | some r =>
    if 4 ≤ r.retries then s.reqFault core r .fabricTimeout (r.timeout kind) 0
    else s.modReq core id fun r => { r with retryAt := some (s.now + 4 ^ (r.retries + 1) * Config.cyclesPerUs) }

def nackCode : NackKind → Nat
  | .age => 1
  | .route => 2
  | .busy => 3
  | .auth => 4

/-- Send a request's packet again, sealed anew. -/
def State.resend (s : State) (core id : Nat) (f : FabReq → FabReq) : State :=
  match s.req? core id with
  | none => s
  | some r =>
    let r1 := f r
    let (p, s1) := s.seal r.func r1.pkt
    let s2 := s1.modReq core id fun _ => { r1 with pkt := p, sentAt := s.now, retryAt := none }
    { s2 with router := s2.router ++ [p] }

/-- NACK-moved (05 R111, R114): the entry is read again once for a request; a second one counts as a retry. -/
def State.nackedMoved (s : State) (core id : Nat) : State :=
  match s.req? core id with
  | none => s
  | some r =>
    if r.moved then s.nacked core id 5
    else
      match s.resolve r.func r.vdn with
      | .error f => s.reqFault core r f.code f.detail 0
      | .ok d =>
        let p := { r.pkt with dst := d.dev, func := d.func, kslot := d.kslot, gen := d.gen }
        let r1 := { r with moved := true, pkt := p }
        -- under a later generation it waits for the stream's earlier stores
        if (s.core core).reqs.any fun q => r1.behind q then
          let (p1, s1) := s.seal r.func p
          s1.modReq core id fun _ => { r1 with held := true, retryAt := none, pkt := p1 }
        else s.resend core id fun _ => r1

/-- An answer reaches the requester of this device. -/
def State.answered (s : State) (core id : Nat) : Answer → State
  | .ok d p => s.replyOk core id d p
  | .nack k => s.nacked core id (nackCode k)
  | .moved => s.nackedMoved core id
  | .fault code detail =>
    match s.req? core id with
    | none => s
    | some r => s.reqFault core r code detail.toNat 2

/-- Is an answer sealed by the target's function? A router that drops a request, and a target that cannot open it, have not the key
that they would need (log 81). -/
def Answer.sealed : Answer → Bool
  | .nack .age => false
  | .nack .route => false
  | .nack .auth => false
  | _ => true

/-- An answer reaches this device: a router on its way, or the requester, which opens it under its key slot (05 R105, R115). One that
fails is discarded and counted. -/
def State.arriveReply (s : State) (r : Reply) (a : Answer) : State :=
  if r.dst ≠ s.device then { s with replies := s.replies ++ [(r, a)] }
  else if a.sealed && (r.key.isNone || s.keyOf r.kslot != r.key) then
    match s.req? r.core r.req with
    | some q => s.countErr q.func 8
    | none => s
  else s.answered r.core r.req a

def execFabricOk (r : ReplyTo) (k : Seal) (data : BitVec 256) (poison : Bool) (s : State) : Out :=
  .next (s.arriveReply ⟨r, k⟩ (.ok data poison))
def execFabricNack (r : ReplyTo) (k : Seal) (kind : NackKind) (s : State) : Out := .next (s.arriveReply ⟨r, k⟩ (.nack kind))
def execNackMoved (r : ReplyTo) (k : Seal) (s : State) : Out := .next (s.arriveReply ⟨r, k⟩ .moved)
def execFabricFault (r : ReplyTo) (k : Seal) (code : FaultCode) (detail : W64) (s : State) : Out :=
  .next (s.arriveReply ⟨r, k⟩ (.fault code detail))

/-- Is a request the access of a memory operation of a gang? -/
def FabReq.ofOp (r : FabReq) : Bool :=
  match r.owner with
  | .op _ _ _ _ _ => true
  | .fill _ _ _ => true
  | _ => false

/-- Is a request a plain load's, which may be sent again when its timer expires (05 R111)? -/
def FabReq.plainLoad (r : FabReq) : Bool :=
  match r.owner with
  | .fill _ _ plain => plain
  | _ => false

/-- The delay before a retry ends (05 R111). After a stop a refused store or copy element stays refused (14 R322). -/
def execFabricRetryTimer (core id : Nat) (s : State) : Out :=
  .next (match s.req? core id with
    | none => s
    | some r =>
      if (s.func r.func).frozen && !r.ofOp then s
      else if (r.retryAt.map fun t => decide (t ≤ s.now)).getD false then s.resend core id fun r => { r with retries := r.retries + 1 } else s)

/-- The 2 ms timer of an attempt (05 R111): a plain load counts a retry, any other request ends. -/
def execFabricAttemptTimeout (core id : Nat) (s : State) : Out :=
  .next (match s.req? core id with
    | none => s
    | some r =>
      if r.held || r.retryAt.isSome || decide (s.now < r.sentAt + 2000 * Config.cyclesPerUs) then s
      else if r.plainLoad then s.nacked core id 15
      else s.reqFault core r .fabricTimeout (r.timeout 15) 0)

/-! ### The target (05 R110, R115, R119 to R121, R124) -/

/-- Send an answer to a packet's requester, sealed under the key of the function that it was for; the slot that opens it stands in
the request's nonce (05 R115). -/
def State.answer (s : State) (p : Packet) (a : Answer) : State :=
  if p.src = s.device then s.answered p.core p.req a
  else
    let (n, s1) := s.takeNonce p.kslot
    { s1 with replies := s1.replies ++
        [(⟨⟨p.src, s.device, p.core, p.req⟩, ⟨p.nonce / 2 ^ 82 % 64, p.func, p.gen, s.keyOf p.kslot, n⟩⟩, a)] }

/-- What performing a request gives. -/
inductive Done where
  | ok (data : BitVec 256) (poison : Bool)
  | busy
  | flt (f : Flt)

def pktNeed : PktKind → Need
  | .read => .read
  | .copyRead => .read
  | .atom => .rw
  | .atomr => .rw
  | .cas => .rw
  | _ => .write

/-- Translate the address that a request carries through the target function's stage 2 (05 R124). -/
def State.remoteTarget (s : State) (p : Packet) : Except Flt Tgt × State :=
  match s.stage2 p.func p.gpa with
  | (.fault ⟨.s2Miss, _⟩, s1) => (.error ⟨.perm, 7⟩, s1)
  | (.fault f, s1) => (.error f, s1)
  | (.leaf e lvl, s1) =>
    if !permits2 e (pktNeed p.kind) then (.error ⟨.perm, 2⟩, s1)
    else
      let t := targetOf e lvl p.gpa
      (match t with
       | .mem a => if inDevice a then .ok t else .error ⟨.perm, 6⟩
       | _ => .ok t, s1)

/-- A buffer window at the target: the unit rights, then the slice. -/
def bufCheck (ok : Bool) (b : Buf) (off n sliceEnd : Nat) : Option Flt :=
  if !ok then some ⟨.bufRights, 0⟩
  else if decide (sliceEnd < off + n) || decide (bufSize b < off + n) then some ⟨.bufBound, 0⟩ else none

/-- The atomic of a packet. -/
def packetAtom (p : Packet) : AtomOp := ⟨p.op, p.rtype, 8 * p.size, p.kind == .cas, p.data.toNat % 2 ^ (8 * p.size), p.cmp.toNat⟩

/-- Data of an answer. -/
def packSector (l : List Byte) : BitVec 256 := BitVec.ofNat 256 (leNat l)

/-- A read at its target. -/
def State.serveRead (s : State) (p : Packet) (t : Tgt) (copy : Bool) : Done × State :=
  match t with
  | .mem a =>
    let (b, bad, s1) := s.homeLoad a p.size p.func
    (.ok (packSector b) bad, s1)
  | .host pa => (.ok (packSector (s.hostRead pa p.size).1) false, (s.hostRead pa p.size).2)
  | .buf k b off e =>
    (match bufCheck (if copy then copyBuf false b else b == .ab) b off p.size e with
     | some f => (.flt f, s)
     | none => (.ok (packSector (s.windowRead k b off p.size).1) (s.windowRead k b off p.size).2, s))
  | _ => (.flt ⟨.perm, 5⟩, s)

/-- A plain or releasing store at its target. -/
def State.serveStore (s : State) (p : Packet) (t : Tgt) : Done × State :=
  let bytes := leBytes p.data.toNat p.size
  match t with
  | .mem a => (.ok 0 false, s.homeWrite a p.func bytes p.poison)
  | .host pa => (.ok 0 false, { s with sent := s.sent ++ [.hostWrite pa p.size p.data] })
  | .buf k b off e =>
    (match bufCheck (b == .ab) b off p.size e with
     | some f => (.flt f, s)
     | none => (.ok 0 false, s.modBuf k b fun x => x.put off bytes p.poison))
  | _ => (.flt ⟨.perm, 5⟩, s)

/-- Bytes that land in a tile of a buffer window with their arrival. -/
def State.serveLand (s : State) (p : Packet) (ok : Bool) (k : Nat) (b : Buf) (off e : Nat) : Done × State :=
  match bufCheck ok b off p.size e with
  | some f => (.flt f, s)
  | none => (.ok 0 false, s.landBytes k b off (leBytes p.data.toNat p.size) p.poison none)

/-- An atomic is one step at the home (05 R121). -/
def State.serveAtomic (s : State) (p : Packet) (a : Nat) : Done × State :=
  let (b, bad, s1) := s.homeLoad a p.size p.func
  if bad then (.flt ⟨.uncorrData, 0⟩, s1)
  else (.ok (packSector b) false, s1.homeWrite a p.func (leBytes ((packetAtom p).next (leNat b)) p.size) false)

/-- Perform a request at its target: what Table 3-10 and R124 let its kind reach. -/
def State.performPacket (s : State) (p : Packet) : Done × State :=
  match s.remoteTarget p with
  | (.error f, s1) => (.flt f, s1)
  | (.ok t, s1) =>
    match p.kind, t with
    | .read, t => s1.serveRead p t false
    | .copyRead, t => s1.serveRead p t true
    | .store, .notify page off =>
      if p.size = 4 || p.size = 8 then (.ok 0 false, s1.bellStore p.func page off p.size) else (.flt ⟨.perm, 5⟩, s1)
    | .store, t => s1.serveStore p t
    | .strel, t => s1.serveStore p t
    | .rstrel, .mem a => s1.serveStore p (.mem a)
    | .rfence, .mem a => s1.serveStore p (.mem a)
    | .copyWrite, .mem a => s1.serveStore p (.mem a)
    | .copyWrite, .host pa => s1.serveStore p (.host pa)
    | .copyWrite, .buf k b off e => s1.serveLand p (copyBuf true b) k b off e
    | .rstarv, .buf k b off e => s1.serveLand p (b == .ab) k b off e
    | .reduce, .mem a =>
      (match s1.reduceWrite a p.func p.op p.rtype (leBytes p.data.toNat p.size) p.poison with
       | none => (.busy, s1)
       | some s2 => (.ok 0 false, s2))
    | .atom, .mem a => s1.serveAtomic p a
    | .atomr, .mem a => s1.serveAtomic p a
    | .cas, .mem a => s1.serveAtomic p a
    | _, _ => (.flt ⟨.perm, 5⟩, s1)

/-- Does a copy's read reach an EMPTY tile, and so wait for it (07 R163)? -/
def State.tileHolds (s : State) (p : Packet) : Bool :=
  p.kind == .copyRead && (match (s.remoteTarget p).1 with
    | .ok (.buf k b off _) => copyBuf false b && decide (off < bufSize b) && s.tileEmpty k b (off / tileSize b)
    | _ => false)

/-- The segment that a packet belongs to. -/
def Segment.owns (x : Segment) (p : Packet) : Bool :=
  x.launch == p.launch && x.team == p.team && x.gang == p.gang && x.func == p.func && x.seg == p.seg

/-- A packet's segment opens with its first packet (05 R120); none when the stream table is full. -/
def State.openSegment (s : State) (p : Packet) : Option State :=
  if s.segments.any (·.owns p) then some s
  else if Config.streamTable ≤ s.segments.length then none
  else some { s with segments := s.segments ++ [⟨p.src, p.launch, p.team, p.gang, p.func, p.seg, 0, []⟩] }

/-- A packet of a segment is settled: performed, or answered FAULT (05 R119). -/
def State.settle (s : State) (p : Packet) : State :=
  if counted p.kind then
    { s with segments := modIf (·.owns p) (fun x => { x with settled := x.settled + 1 }) s.segments }
  else s

/-- Perform and answer a request other than `RSTREL` and a close packet; a read of an EMPTY tile waits. -/
def State.serve (s : State) (p : Packet) : State :=
  if s.tileHolds p then { s with tileWait := s.tileWait ++ [p] }
  else
  match s.performPacket p with
  | (.busy, s1) => s1.answer p (.nack .busy)
  | (.ok d b, s1) => (s1.settle p).answer p (.ok d b)
  | (.flt f, s1) => (s1.settle p).answer p (.fault f.code (BitVec.ofNat 64 f.detail))

/-- A request that the target takes: authentication, the stream table, then its kind. -/
def State.accept (s : State) (p : Packet) : State :=
  if p.key.isNone || s.keyOf p.kslot != p.key then (s.countErr p.func 8).answer p (.nack .auth)
  else if p.kind = .close then
    -- a held RSTREL is discarded with its segment
    { s with segments := s.segments.filter (!·.owns p) }.answer p (.ok 0 false)
  else if counted p.kind || p.kind = .rstrel then
    match s.openSegment p with
    | none => s.answer p (.nack .busy)
    | some s1 =>
      if p.kind = .rstrel then
        { s1 with segments := modIf (·.owns p) (fun x => { x with held := x.held ++ [p] }) s1.segments }
      else s1.serve p
  else s.serve p

/-- Is a function between step 2 of the stop phase and the switch (15 R348)? -/
def Func.holding (f : Func) : Bool := ((f.migration).map fun m => decide (2 ≤ m.phase)).getD false

/-- Requests that the hold area takes (15 R348). -/
abbrev holdSize : Nat := 524288

/-- A request arrives at its target device (15 R348 to R351): held, forwarded, refused as moved, or taken. -/
def State.arriveAt (s : State) (p : Packet) : State :=
  let f := s.func p.func
  match f.mirror with
  | some m => { s with sent := s.sent ++ [.forward m.dev p] }
  | none =>
    if f.moved then s.answer p .moved
    else if f.holding then
      if holdSize ≤ f.hold.length then s.answer p (.nack .busy)
      else { s.modFunc p.func fun f => { f with hold := f.hold ++ [p] } with
             sent := s.sent ++ [.forward ((f.migration.map (·.dev)).getD 0) p] }
    else if !f.hold.isEmpty then s.modFunc p.func fun f => { f with hold := f.hold ++ [p] }
    else s.accept p

/-- A packet reaches this device: its target, whose router adds to its age as well (05 R109), or a router on the way. -/
def State.receive (s : State) (p : Packet) : State :=
  if p.dst ≠ s.device then { s with router := s.router ++ [p] }
  else
    let p1 := { p with age := p.age + Config.transit s.free }
    let s1 := { s with free := s.free + 1 }
    if 2000 < p1.age then s1.answer p1 (.nack .age) else s1.arriveAt p1

def execFabricRead (p : Packet) (s : State) : Out :=
  .next (if p.kind == .read || p.kind == .copyRead then s.receive p else s)
def execFabricStore (p : Packet) (s : State) : Out :=
  .next (if p.kind == .store || p.kind == .strel || p.kind == .rfence || p.kind == .copyWrite then s.receive p else s)
def execFabricAtomic (p : Packet) (s : State) : Out :=
  .next (if p.kind == .atom || p.kind == .atomr || p.kind == .cas then s.receive p else s)
def execFabricRstrel (p : Packet) (s : State) : Out := .next (if p.kind == .rstrel then s.receive p else s)
def execFabricRstarv (p : Packet) (s : State) : Out := .next (if p.kind == .rstarv then s.receive p else s)
def execFabricReducingWrite (p : Packet) (s : State) : Out := .next (if p.kind == .reduce then s.receive p else s)
def execFabricClosePacket (p : Packet) (s : State) : Out := .next (if p.kind == .close then s.receive p else s)

/-- The packets of an `RSTREL` may be performed: all of them are here, and the N packets of the segment are settled (05 R119). -/
def Segment.ready (x : Segment) : Bool :=
  match x.held with
  | [] => false
  | p :: _ => decide (p.group ≤ x.held.length) && decide (p.count ≤ x.settled)

/-- Insert a packet by its lane. -/
def insertLane (p : Packet) : List Packet → List Packet
  | [] => [p]
  | q :: t => if p.lane < q.lane then p :: q :: t else q :: insertLane p t

/-- The held packets of a segment are performed in increasing lane order, and the segment closes. -/
def execRstrelPerform (src launch team gang : Nat) (s : State) : Out :=
  .next (match s.segments.find? fun x => x.src == src && x.launch == launch && x.team == team && x.gang == gang && x.ready with
    | none => s
    | some x =>
      let s1 := { s with segments := s.segments.filter fun y =>
        !(y.launch == x.launch && y.team == x.team && y.gang == x.gang && y.func == x.func && y.seg == x.seg) }
      (x.held.foldl (fun l p => insertLane p l) []).foldl (fun s p => s.serve p) s1)

/-! ### The router (05 R103, R104, R106, R109) -/

/-- Column and row of a device. -/
def colOf (dev : Nat) : Nat := dev % 16
def rowOf (dev : Nat) : Nat := dev / 16

/-- Ports of a device that lead along a row to column `c`, or along a column to row `r`: the pair links add a second one. -/
def rowPorts (x c : Nat) : List Nat := if c = x then [] else if c = (x ^^^ 1) then [min c x, max c x] else [c]
def colPorts (y r : Nat) : List Nat := (rowPorts y r).map (16 + ·)

/-- Far device of a port (05 R103). -/
def farDevice (dev port : Nat) : Nat :=
  let x := colOf dev
  let y := rowOf dev
  if port < 16 then y * 16 + (if port = x then x ^^^ 1 else port) else (if port - 16 = y then y ^^^ 1 else port - 16) * 16 + x

/-- Does a port lead to a device of the grid? -/
def State.portUsed (s : State) (port : Nat) : Bool :=
  let d := farDevice s.device port
  decide (port < 32) && decide (colOf d < s.gridW) && decide (rowOf d < s.gridH)
def State.portUp (s : State) (port : Nat) : Bool := ((s.ports[port]?).map (·.up)).getD false && s.portUsed port

/-- Virtual channels (05 Table 5-1). -/
inductive Channel where
  | minimal | detour | reply
deriving DecidableEq, Repr
def Channel.num : Channel → Nat
  | .minimal => 0
  | .detour => 1
  | .reply => 2

/-- Credits that a port holds on a channel. -/
def State.credit (s : State) (c : Channel) (port : Nat) : Nat := Config.credits s.free (32 * c.num + port)

/-- The port with the most credits among those up; a tie goes to the lower number. -/
def State.bestPort (s : State) (c : Channel) (ps : List Nat) : Option Nat :=
  (ps.filter s.portUp).foldl (fun b p =>
    match b with
    | none => some p
    | some q => if s.credit c q < s.credit c p then some p else some q) none

/-- Ports of the first minimal hop to a device (05 R106). -/
def State.minPorts (s : State) (dst : Nat) : List Nat :=
  if colOf dst ≠ colOf s.device then rowPorts (colOf s.device) (colOf dst) else colPorts (rowOf s.device) (rowOf dst)
/-- Ports of a detour's first hop: other devices of the dimension that is crossed first. -/
def State.detourPorts (s : State) (dst : Nat) : List Nat :=
  let base := if colOf dst ≠ colOf s.device then 0 else 16
  (rangeFrom base 16).filter fun k => !(s.minPorts dst).contains k && farDevice s.device k != s.device

/-- What the router decides for a packet. -/
inductive Route where
  | go (port : Nat) (detour : Bool)
  | wait
  | none
deriving DecidableEq, Repr

/-- A port is taken when it has a credit on the channel, else the packet waits where it stands (05 R105, R107). -/
def State.viaPort (s : State) (port : Nat) (detour : Bool) : Route :=
  if s.credit (if detour then .detour else .minimal) port = 0 then .wait else .go port detour

/-- The router's choice for a packet (05 R106): the port to send it on and whether it is a detour. A router on the way that has no
route keeps the packet until a port is up. -/
def State.route (s : State) (p : Packet) : Route :=
  let src := p.src = s.device && p.via.isNone
  match s.bestPort .minimal (s.minPorts p.dst), s.bestPort .detour (s.detourPorts p.dst) with
  | some k, some j =>
    let turn := src && decide (4 * s.credit .minimal k < Config.portCredits) && decide (Config.portCredits < 2 * s.credit .detour j)
    if turn then s.viaPort j true else s.viaPort k false
  | some k, none => s.viaPort k false
  | none, some j => if src then s.viaPort j true else .wait
  | none, none => if src then .none else .wait

/-- A request leaves in first-in first-out order of the port that it leaves on (05 R105). -/
def State.routerTurn (s : State) (k : Nat) (p : Packet) : Bool :=
  !((s.router.take k).any fun q => q.chan == p.chan && s.minPorts q.dst == s.minPorts p.dst && q.dst != s.device && p.dst != s.device)

/-- The router takes the k-th of its requests: it ages the request, and drops, delivers or sends it on. -/
def State.routeRequest (s : State) (k : Nat) (p : Packet) : State :=
  if !s.routerTurn k p then s
  else
    let s0 := { s with free := s.free + 1 }
    let s1 := { s0 with router := s.router.take k ++ s.router.drop (k + 1) }
    let p1 := { p with age := p.age + Config.transit s.free }
    if 2000 < p1.age then s1.answer p1 (.nack .age)
    else if p1.dst = s.device then s1.arriveAt p1
    else
      match s.route p1 with
      | .go port detour =>
        let p2 := if detour then { p1 with chan := .detour, via := some (farDevice s.device port) } else { p1 with chan := .minimal }
        { s1 with sent := s1.sent ++ [.packet port p2] }
      | .none => s1.answer p1 (.nack .route)
      | .wait => s0

/-- The router sends the k-th of its answers on, by a minimal route; answers have no order and no age, and are never dropped. -/
def State.routeReply (s : State) (k : Nat) : State :=
  match s.replies[k]? with
  | none => s
  | some (r, a) =>
    let s0 := { s with free := s.free + 1 }
    match s.bestPort .reply (s.minPorts r.dst) with
    | some port =>
      if s.credit .reply port = 0 then s0
      else { s0 with replies := s.replies.take k ++ s.replies.drop (k + 1), sent := s.sent ++ [.reply port r a] }
    | none => s0

/-- The router takes one of its packets: a request, or after those an answer (05 Table 5-1). -/
def execRouterPacket (k : Nat) (s : State) : Out :=
  .next (match s.router[k]? with
    | some p => s.routeRequest k p
    | none => s.routeReply (k - s.router.length))

def execLinkDown (port : Nat) (s : State) : Out := .next { s with ports := modAt s.ports port fun x => { x with up := false } }
/-- A link trains; a port beyond the grid stays down (05 R103). -/
def execLinkUp (port : Nat) (s : State) : Out :=
  .next (if s.portUsed port then { s with ports := modAt s.ports port fun x => { x with up := true } } else s)

/-! ### Held and forwarded requests at a destination (15 R350, R351) -/

/-- Does a held request reach a buffer window, which waits for the restore (15 R350)? -/
def State.toBuffer (s : State) (p : Packet) : Bool :=
  match s.stage2 p.func p.gpa with
  | (.leaf e lvl, _) => (match targetOf e lvl p.gpa with
    | .buf _ _ _ _ => true
    | _ => false)
  | _ => false

/-- The destination performs the held requests in arrival order, those to buffer windows only after the restore. -/
def State.replayHeld (s : State) (func : Nat) : State :=
  let f := s.func func
  if f.holding then s
  else
    match f.hold with
    | [] => s
    | p :: rest =>
      if f.receive.isSome && s.toBuffer p then s
      else (s.modFunc func fun f => { f with hold := rest }).accept p

/-- Requests that a function's home has held back go on: a copy's read whose tile is no longer EMPTY (07 R163), else those of a
migration. -/
def execHeldRequestReplay (func : Nat) (s : State) : Out :=
  .next (match s.tileWait.findIdx? fun p => p.func == func && !s.tileHolds p with
    | none => s.replayHeld func
    | some k =>
      match s.tileWait[k]? with
      | none => s
      | some p => State.arriveAt { s with tileWait := s.tileWait.take k ++ s.tileWait.drop (k + 1) } p)

/-- The slot and function that a forwarded request has at its destination: the forward table maps the old device and function to the
new ones (15 R351). -/
def State.forwarded (s : State) (p : Packet) : Option Packet :=
  (s.forwards.find? fun x => x.1 == p.dst && x.2.1 == p.func).map fun x =>
    { p with kslot := (s.func x.2.2.2).cfg.kslot, func := x.2.2.2, dst := s.device }

/-- A forward packet (15 R351): the inner request is held until the held ones are done, then performed; the answer goes straight to its
requester. -/
def execForwardPacket (p : Packet) (s : State) : Out :=
  .next (match s.forwarded p with
    | none => s.answer p .moved
    | some q =>
      let f := s.func q.func
      if f.receive.isSome || !f.hold.isEmpty then s.modFunc q.func fun f => { f with hold := f.hold ++ [q] } else s.accept q)

end Sys2Proof.Machine
end

