-- ==== Sys2Proof/Machine/Walks.lean ====
section
/-! DEFINITION. Events of the cores' own agents: promotion and retests of entries, page-table walks, page replies, pool grants (03
R68 to R72, 07 R164, 08 R181, 13 R290, 14 R316). -/

namespace Sys2Proof.Machine

/-! ### Entries -/

/-- An entry whose age has reached 256 is promoted (13 R290); entries promoted at one issue carry its number. -/
def execEntryPromotion (l t gi eid : Nat) (s : State) : Out :=
  .next (s.modGang l t gi fun g => g.modEntry eid fun e =>
    if 256 ≤ e.age && e.promoted.isNone then { e with promoted := some g.lastIssue } else e)

/-- The retest of a polling entry, every 64 cycles (07 R164): it reissues when its tile has left EMPTY, and otherwise moves into the
wait table when that has room. -/
def execPollingRetest (l t gi eid : Nat) (s : State) : Out :=
  .next (match (s.gang? l t gi).bind (·.entry? eid) with
    | none => s
    | some e =>
      match e.st with
      | .polling core b n since =>
        if s.now < since + 64 then s
        else
          let st := if !s.tileEmpty core b n then ESt.ready
            else if s.waiters (s.coreOf l t) < Config.waitTable then ESt.tile core b n
            else ESt.polling core b n s.now
          s.modEntry l t gi eid fun e => { e with st := st }
      | _ => s)

/-! ### Walks (03 R68, R72) -/

/-- Walkers of a die at work. -/
def Die.walking (d : Die) : Nat := (d.walks.filter (·.started)).length

/-- A walker takes the next walk; the oldest waiting walk of every other function has been passed once more. -/
def execWalkStart (die : Nat) (s : State) : Out :=
  let d := s.die die
  .next (match d.nextWalk with
    | none => s
    | some w =>
      if Config.walkers ≤ d.walking then s
      else
        let waiting := d.walks.filter (!·.started)
        let heads := waiting.filter fun x => x.func != w.func && (waiting.find? fun (y : Walk) => y.func == x.func) == some x
        s.setDie { d with
          lastFunc := w.func
          walks := d.walks.map fun x =>
            if x.id == w.id then { x with started := true }
            else if heads.any (fun y => y.id == x.id) then { x with passed := x.passed + 1 } else x })

/-- Core of a sharer. -/
def State.waiterCore (s : State) : Waiter → Nat
  | .op l t _ _ _ => s.coreOf l t
  | .entry l t _ _ => s.coreOf l t
  | .chunk core _ _ => core
  | .cpyt core _ _ => core
  | .queue _ _ => schedulerCore
  | .list l t => s.coreOf l t
  | .pref core _ => core

/-- The kind of access that a sharer makes. An entry waits for a fetch, or for a step of `CPYQ`. -/
def State.waiterAccess (s : State) (sh : Sharer) : Access :=
  match sh.who with
  | .op l t gi id _ => (match (s.gang? l t gi).bind (·.op? id) with
    | some o => o.kind.use.access o.kind.size
    | none => .thread 4)
  | .entry _ _ _ _ => if sh.need = .fetch then .fetch else if sh.need = .rw then .atomic else .thread 8
  | .chunk _ _ _ => .copy
  | .cpyt _ _ _ => .copy
  | _ => .thread 8

/-- Active lanes of an entry at its instruction: those that a PRED before it leaves (02 R32). -/
def State.activeMask (s : State) (t : Team) (g : Gang) (e : Entry) : Mask :=
  match s.peek t.core t.func e.pc with
  | none => e.mask
  | some h =>
    match decode16 h.toNat with
    | .ok (.pred p n) => e.mask &&& (if n then ~~~ (g.pred p.toNat) else g.pred p.toNat)
    | _ => e.mask

/-- A step of `CPYQ` that waited for a walk takes its fault: a miss parks the active lanes at the step, any other fault is the
instruction's (06 R151). -/
def State.walkStep (s : State) (t : Team) (g : Gang) (e : Entry) (sh : Sharer) (f : Flt) : State :=
  let m := s.activeMask t g e
  if classOf f.code = .retryable then
    let (req, s1) := s.pageMiss t.func f ⟨.entry t.launch t.num g.idx s.fresh, sh.need, sh.gva⟩
    s1.park t.launch t.num g.idx e.eid m e.pc req e.resume
  else
    let (pc, w) := s.instrAt t.core t.func e.pc
    let c : Cur := ⟨t.launch, t.num, g.idx, e.eid, pc, e.pc, m, w, 4, e.since⟩
    let s1 := s.raiseAll c f
    if classOf f.code != .rollback && ((s1.gang? t.launch t.num g.idx).bind (·.entry? e.eid)).isSome then
      s1.newRegion t.launch t.num g.idx
    else s1

/-- A walk's result reaches an element that waits for it. A fault other than a miss is left to `walkElemFault`. -/
def State.walkElem (s : State) (l t gi id lane : Nat) (sh : Sharer) (r : Except Flt Trans) : State :=
  match ((s.gang? l t gi).bind (·.op? id)).bind fun o => (o.elems.find? (·.lane == lane)).map fun e => (o, e) with
  | none => s
  | some (o, e) =>
    if e.st != .walking then s
    else
      match r with
      | .ok tr =>
        (match s.checkTail (s.coreOf l t) (s.funcOf l t) o.kind.use e.va o.kind.size tr with
         | some _ => s
         | none => s.modElem l t gi id lane fun e => { e with st := .pending, trans := some tr })
      | .error f =>
        if classOf f.code = .retryable then s.elemMiss l t gi id lane f sh.need sh.gva
        else s

/-- The fault that a walk's result gives an element, other than a miss. -/
def State.walkElemFault (s : State) (l t gi id lane : Nat) (r : Except Flt Trans) : Option LaneFlt :=
  match ((s.gang? l t gi).bind (·.op? id)).bind fun o => (o.elems.find? (·.lane == lane)).map fun e => (o, e) with
  | none => none
  | some (o, e) =>
    if e.st != .walking then none
    else
      match r with
      | .ok tr => s.checkTail (s.coreOf l t) (s.funcOf l t) o.kind.use e.va o.kind.size tr
      | .error f => if classOf f.code = .retryable then none else some ⟨f, none⟩

/-- The faults that a walk's end gives its sharers that are elements of operations. -/
def State.walkFaults (s : State) (e : WalkEnd) (sharers : List Sharer) : List ElemFlt :=
  sharers.filterMap fun sh =>
    match sh.who with
    | .op l t gi id lane =>
      (s.walkElemFault l t gi id lane (judgeEnd e sh.gva sh.need (s.waiterAccess sh))).map fun f => ((l, t, gi, id), lane, f)
    | _ => none

/-- A walk's result reaches a chunk. -/
def State.walkChunk (s : State) (core id k : Nat) (sh : Sharer) (r : Except Flt Trans) : State :=
  match s.copy? core id with
  | none => s
  | some x =>
    if (x.chunk k).st != .walking then s
    else
      match r with
      | .ok _ => s.modChunk core id k fun c => { c with st := .running }
      | .error f =>
        if classOf f.code = .retryable then
          let (req, s1) := s.pageMiss (s.copyFunc x) f sh
          s1.modChunk core id k fun c => { c with st := .parked req.1 req.2 }
        else s.chunkFault core id k f.code f.detail

/-- A walk's result reaches a lane of a `CPYT`. -/
def State.walkCpyt (s : State) (core id lane : Nat) (sh : Sharer) (r : Except Flt Trans) : State :=
  match (s.cpyt? core id).bind fun x => (x.lanes.find? (·.lane == lane)).map fun y => (x, y) with
  | none => s
  | some (x, y) =>
    if y.st != .walking then s
    else
      match r with
      | .ok _ => s.modCpytLane core id lane fun z => { z with st := .pending }
      | .error f =>
        if classOf f.code = .retryable then
          let (req, s1) := s.pageMiss (s.funcOf x.launch x.team) f sh
          s1.modCpytLane core id lane fun z => { z with st := .parked req.1 req.2 }
        else s.cpytFault core id lane f.code f.detail

/-- A walk's result reaches a sharer. -/
def State.walkShare (s : State) (func : Nat) (sh : Sharer) (r : Except Flt Trans) : State :=
  match sh.who with
  | .op l t gi id lane => s.walkElem l t gi id lane sh r
  | .entry l t gi eid =>
    (match r, s.team? l t, s.gang? l t gi with
     | .error f, some x, some g =>
       (match g.entry? eid with
        | some e =>
          if e.st != .stalled .walk then s
          else if sh.need = .fetch then s.fetchFault l t gi eid sh.gva f
          else s.walkStep x g e sh f
        | none => s)
     | _, _, _ => s)
  | .chunk core id k => s.walkChunk core id k sh r
  | .cpyt core id lane => s.walkCpyt core id lane sh r
  | .pref core home =>
    (match r with
     | .ok tr => s.prefAt core func s.fresh home (BitVec.ofInt 64 (sext sh.gva 55)).toNat tr
     | .error _ => s)
  | _ => s

/-- A walk ends: every sharer receives its result. A translation that ended without a fault is installed, unless an invalidation
passed over it meanwhile. -/
def execWalkComplete (die id : Nat) (s : State) : Out :=
  .next (match (s.die die).walks.find? fun w => w.id == id && w.started with
    | none => s
    | some w =>
      let (e, s1) := s.walk w.func (w.page * 65536) (w.sharers.map (·.need))
      let s2 := s1.modDie die fun d => { d with walks := d.walks.filter fun x => x.id != id }
      let s4 := w.sharers.foldl (fun s sh =>
        let r := judgeEnd e sh.gva sh.need (s.waiterAccess sh)
        let s3 := match e, r with
          | .leaf e1 l1 (.leaf e2 l2), .ok _ =>
            if w.noInstall then s else s.install (s.waiterCore sh.who) (tlbEntryOf w.func sh.gva e1 l1 e2 l2)
          | _, _ => s
        s3.walkShare w.func sh r) s2
      s4.elemFaultsOf (s2.walkFaults e w.sharers))

/-! ### Page replies (14 R316) -/

def State.pageReq? (s : State) (owner id : Nat) : Option PageReq := s.pageReqs.find? fun p => p.owner == owner && p.id == id
def State.dropPageReq (s : State) (owner id : Nat) : State :=
  { s with pageReqs := s.pageReqs.filter fun p => !(p.owner == owner && p.id == id) }

/-- Chunks and `CPYT` lanes that wait on a request go on. -/
def Core.unpark (c : Core) (owner id : Nat) : Core :=
  let chunk (k : Chunk) : Chunk := if k.st == .parked owner id then { k with st := .running } else k
  let lane (y : CpytLane) : CpytLane := if y.st == .parked owner id then { y with st := .pending } else y
  { c with copies := c.copies.map fun x => { x with chunks := x.chunks.map chunk }
           cpyts := c.cpyts.map fun x => { x with lanes := x.lanes.map lane } }

/-- A queue's outstanding access is answered. -/
def State.unparkQueues (s : State) (p : PageReq) : State :=
  p.sharers.foldl (fun s sh =>
    match sh.who with
    | .queue func page => s.modQueue func page fun q => { q with parked := false }
    | _ => s) s

/-- Retry: every waiter walks again. -/
def execPageReplyRetry (owner id : Nat) (s : State) : Out :=
  .next (match s.pageReq? owner id with
    | none => s
    | some p =>
      let s1 := (s.dropPageReq owner id).unparkQueues p
      let wake (e : Entry) : Entry := if e.st == .parked owner id then { e with st := .ready } else e
      State.watchFrom { s1 with teams := s1.teams.map fun t => { t with gangs := t.gangs.map fun g => g.mapEntries wake }
                                cores := s1.cores.map (·.unpark owner id) } s p.func)

/-- The fault that a refused request gives its waiters. -/
def refused : Flt := ⟨.perm, 8⟩

/-- Elements of operations that wait on a request, with their operation's place. -/
def State.parkedElems (s : State) (owner id : Nat) : List ((Nat × Nat × Nat × Nat) × Nat) :=
  s.teams.flatMap fun t => t.gangs.flatMap fun g => g.ops.flatMap fun o =>
    (o.elems.filter fun e => e.st == .parked owner id).map fun e => ((t.launch, t.num, g.idx, o.id), e.lane)
/-- Entries that wait on a request. -/
def State.parkedEntries (s : State) (owner id : Nat) : List (Nat × Nat × Nat × Entry) :=
  s.teams.flatMap fun t => t.gangs.flatMap fun g =>
    (g.frontier.filter fun e => e.st == .parked owner id).map fun e => (t.launch, t.num, g.idx, e)
def State.parkedChunks (s : State) (owner id : Nat) : List (Nat × Nat × Nat) :=
  s.cores.flatMap fun c => c.copies.flatMap fun x => ((x.chunks.mapIdx fun i k => (i, k)).filter fun y =>
    y.2.st == .parked owner id).map fun y => (c.id, x.id, y.1)
def State.parkedCpyts (s : State) (owner id : Nat) : List (Nat × Nat × Nat) :=
  s.cores.flatMap fun c => c.cpyts.flatMap fun x => (x.lanes.filter fun y => y.st == .parked owner id).map fun y =>
    (c.id, x.id, y.lane)

/-- The lanes of an entry whose request is refused: a fetch names its halfword, any other access its instruction. -/
def State.refuseEntry (s : State) (p : PageReq) (l t gi : Nat) (e : Entry) : State :=
  let fetch := p.sharers.find? fun sh => sh.who == .entry l t gi e.eid && sh.need == .fetch
  match fetch with
  | some sh => s.raiseAt l t gi e.mask refused.code refused.detail sh.gva 0
  | none =>
    let (pc, w) := s.instrAt (s.coreOf l t) (s.funcOf l t) e.pc
    s.raiseAt l t gi e.mask refused.code refused.detail pc w

/-- A queue or a successor list whose request is refused. -/
def State.refuseOther (s : State) (sh : Sharer) : State :=
  match sh.who with
  | .queue func page =>
    (match s.queue? func page with
     | none => s
     | some q => (s.modQueue func page fun q => { q with parked := false }).startedFault func page q.idx q.site refused sh.need sh.gva)
  | .list l t =>
    (match s.team? l t with
     | none => s
     | some x =>
       if x.st != .reading then s
       else
         let k := (sh.gva - gvaOf (BitVec.ofNat 64 x.slist)) / 64
         let (ps, _, s1) := s.readList x (rangeFrom 0 k)
         s1.endList x ps (some (k, refused)))
  | _ => s

/-- Refuse: every waiter faults PERM with detail 8. -/
def execPageReplyRefuse (owner id : Nat) (s : State) : Out :=
  .next (match s.pageReq? owner id with
    | none => s
    | some p =>
      let s0 := s.dropPageReq owner id
      let s1 := s0.elemFaultsOf ((s.parkedElems owner id).map fun x => (x.1, x.2, ⟨refused, none⟩))
      let s2 := (s1.parkedEntries owner id).foldl (fun s x => s.refuseEntry p x.1 x.2.1 x.2.2.1 x.2.2.2) s1
      let s3 := (s2.parkedChunks owner id).foldl (fun s x => s.chunkFault x.1 x.2.1 x.2.2 refused.code refused.detail) s2
      let s4 := (s3.parkedCpyts owner id).foldl (fun s x => s.cpytFault x.1 x.2.1 x.2.2 refused.code refused.detail) s3
      p.sharers.foldl (fun s sh => s.refuseOther sh) s4)

/-! ### Pool grants (08 R181) -/

/-- Is what a claim waits for still there? -/
def State.claimLive (s : State) (x : Claim) : Bool :=
  match s.gang? x.launch x.team x.gang with
  | none => false
  | some g => if x.kind == .completion then (g.op? x.ref).isSome else (g.entry? x.ref).isSome

/-- A granted `REGCLAIM` goes on past its instruction, in a new region. -/
def State.grantRegclaim (s : State) (x : Claim) : State :=
  match s.gang? x.launch x.team x.gang with
  | none => s
  | some g =>
    let pc := ((g.entry? x.ref).map (·.pc)).getD 0
    let next := ((s.instrAt (s.coreOf x.launch x.team) (s.funcOf x.launch x.team) pc).1 + 4) % 2 ^ 55
    s.putGang x.launch x.team x.gang (((g.addQuota x.uni x.count).modEntry x.ref fun e =>
      { e with pc := next, st := .ready, resume := .none, progress := 0, since := 0 }).beginRegion allRegs allRegs)

/-- Every team with a claim on the core is tested for CLAIM_DEADLOCK (08 R182): a gang's end may leave only waiting gangs. -/
def State.claimTests (s : State) (core : Nat) : State :=
  (s.core core).claims.foldl (fun s x => s.claimDeadlock x.launch x.team) s

/-- A pool grants its oldest claim whole, when it has the registers; otherwise the waiting teams are tested. -/
def execPoolGrant (core : Nat) (uni : Bool) (s : State) : Out :=
  .next (match (s.core core).claims.find? fun x => x.uni == uni with
    | none => s
    | some x =>
      let same (y : Claim) : Bool := y == x
      let drop := s.modCore core fun c => { c with claims := c.claims.filter (!same ·) }
      if !s.claimLive x then drop
      else if (if uni then (s.core core).poolS else (s.core core).poolV) < x.count then s.claimTests core
      else if x.kind == .regclaim then drop.grantRegclaim x
      else
        match drop.gang? x.launch x.team x.gang with
        | none => drop
        | some g => drop.putGang x.launch x.team x.gang { g with lent := g.lent ++ [⟨x.kind, x.ref, uni, x.count⟩] })

end Sys2Proof.Machine
end

