-- ==== Sys2Proof/Machine/Caches.lean ====
section
/-! DEFINITION. Events of the caches and the stacks: write-backs, evictions, way reductions, scrubbing, tag parity (03 R60, 04 R78, R83
to R86, 14 R338). -/

namespace Sys2Proof.Machine

/-! ### Core caches (04 R83) -/

/-- Marker drain: a line that stands ahead of a release marker is written back to its home. -/
def execDirtyLineWriteback (core line : Nat) (s : State) : Out :=
  .next (if (s.core core).markers.any fun m => m.lines.contains line then s.drainLine core line else s)

/-- Age: a line has been in the dirty-line FIFO for 65,536 cycles. -/
def execDirtyLineAgeExpiry (core line : Nat) (s : State) : Out :=
  .next (if (s.core core).fifo.any fun f => f.line == line && decide (f.since + 65536 ≤ s.now) then s.drainLine core line else s)

/-- Capacity: a line is chosen for eviction; which one, and when, changes only timing. -/
def execCacheEviction (core line : Nat) (s : State) : Out :=
  .next (if (findLine (s.core core).cache line).isSome then s.evict core line else s)

/-! ### Home and stack caches (04 R78, R86) -/

/-- The home's dirty lines leave for the stack caches in FIFO order. -/
def execHomeWriteback (line : Nat) (s : State) : Out :=
  .next (if (s.die (homeDie (line * 128))).fifo.head? == some line then s.writeHomeLine line else s)

/-- Ways that a command has removed from a tenant's masks. -/
def Func.goneHome (f : Func) (way : Nat) : Bool := f.oldHways.getLsbD way && !f.cfg.hways.getLsbD way
def Func.goneStack (f : Func) (way : Nat) : Bool := f.oldSways.getLsbD way && !f.cfg.sways.getLsbD way

/-- The cache reaches a line of the tenant in a removed way: it is written back if dirty, and invalidated. -/
def execWayReductionLine (func : Nat) (stack : Bool) (line : Nat) (s : State) : Out :=
  let f := s.func func
  .next (match findLine (if stack then s.stack else s.home) line with
    | none => s
    | some l =>
      if l.func != func || !(if stack then f.goneStack l.way else f.goneHome l.way) then s
      else if stack then s.writeStackLine line
      else (s.homeOut line).dropHome line)

/-- No removed way holds a line of the tenant: the reduction is reported (04 R86, 16 Table 16-1 STATUS bit 2). -/
def execWayReductionComplete (func : Nat) (s : State) : Out :=
  let f := s.func func
  let left := s.home.any (fun l => l.func == func && f.goneHome l.way) || s.stack.any fun l => l.func == func && f.goneStack l.way
  .next (if (f.oldHways == 0 && f.oldSways == 0) || left then s
    else s.modFunc func fun f => { f with oldHways := 0, oldSways := 0, status := f.status ||| 4 })

/-! ### Scrubbing and tag parity (03 R60, 14 R338) -/

/-- Function whose allotment of a buffer covers a block (07 R155). -/
def State.blockOwner (s : State) (core : Nat) (b : Buf) (block : Nat) : Option Nat :=
  (s.teams.find? fun t => t.core == core && decide (t.base b * tileSize b ≤ 32 * block) &&
    decide (32 * block < (t.base b + t.tilesIn b) * tileSize b)).map (·.func)

/-- An upset strikes (log 28). A buffer corrects a single-bit error by itself and counts it; a larger one marks the block and is
counted as an uncorrectable error (07 R157, 14 R339). The others wait for the unit that meets them. -/
def State.strike (s : State) (u : Upset) : State :=
  match u with
  | .cell sec => { s with dieFlips := insertNat sec s.dieFlips }
  | .flip sec b => { s with flips := (sec, b) :: s.flips }
  | .buffer core b k single =>
    (if single then s else s.modCore core fun c => c.modBuf b fun x => { x with poison := insertNat k x.poison }).countStack
      (s.blockOwner core b k) (if single then 3 else 4)
  | .pipe core p => s.modCore core fun c => { c with upsets := c.upsets ++ [p] }
  | .engine core again => s.modCore core fun c => { c with engineUpsets := c.engineUpsets ++ [again] }
  | .record func => s.modFunc func fun f => { f with pend := match f.pend with
      | [] => []
      | r :: rest => { r with corrupt := true } :: rest }

/-- The patrol scrubber reads a sector of its stack. -/
def execPatrolScrub (sector : Nat) (s : State) : Out :=
  .next (if inDevice (32 * sector) then s.readSector sector none else s)

/-- Reset the partitions of functions that satisfy `p`, with a cause (14 R334). -/
def State.resetSoon (s : State) (p : Func → Bool) (cause : Nat) : State :=
  let fs := (s.funcs.filter fun f => f.cfg.bays != 0 && p f).map (·.id)
  { s with agenda := fs.map (fun f => Act.event (.partitionReset f cause)) ++ s.agenda }

/-- Count a cache-tag parity error, shared: for the functions that satisfy `p`, or for every function when none does. -/
def State.countParity (s : State) (p : Func → Bool) : State :=
  let q (f : Func) : Bool := f.cfg.bays != 0 && p f
  if s.funcs.any q then s.countShared q 7
  else (rangeFrom 0 64).foldl (fun s f => s.modFunc f fun x =>
    { x with errcnt := modAt x.errcnt 7 fun c => (c.1, satInc c.2) }) s

/-- A parity error in the tag of a line (14 R338). In a home or stack cache the line is lost, and every tenant whose mask includes its way
has its partition reset. In a core cache every team of the core has consumed UNCORR_DATA. -/
def execTagParityError (level : CacheLevel) (unit line : Nat) (s : State) : Out :=
  .next (match level with
    | .core =>
      if (findLine (s.core unit).cache line).isNone then s
      else
        let ts := s.teams.filter fun t => t.core == unit && t.st != .waiting
        let s1 := if ts.isEmpty then s else s.countShared (fun f => ts.any fun t => t.func == f.id) 7
        ts.foldl (fun s t => s.rollback t.launch t.num (s.record t.launch t.num 0xFF 1 .uncorrData 0 0 0 0 0 255 4)) s1
    | .home =>
      (match findLine s.home line with
       | none => s
       | some l =>
         let owns (f : Func) : Bool := f.cfg.hways.getLsbD l.way
         ((s.countParity owns).dropHome line).resetSoon owns 2)
    | .stack =>
      (match findLine s.stack line with
       | none => s
       | some l =>
         let owns (f : Func) : Bool := f.cfg.sways.getLsbD l.way
         ({ s.countParity owns with stack := dropLine s.stack line }).resetSoon owns 2))

end Sys2Proof.Machine
end

