-- ==== Sys2Proof/Machine/Matrix.lean ====
section
/-! DEFINITION. The matrix engine (chapter 11): signing and issue, block sums of 09 R199 and R200, `MZERO`, `MRD`, `MWR`, `MSTORE` and
`MPROG`. -/

namespace Sys2Proof.Machine

/-! ### Fields of the instruction word (11 Table 11-3) -/

def mmaAcc (w : W32) : Nat := fld w.toNat 10 3
def mmaCv (w : W32) : Nat := fld w.toNat 13 3
def mmaA (w : W32) : Nat := fld w.toNat 16 4
def mmaB (w : W32) : Nat := fld w.toNat 20 4
def mmaIx (w : W32) : Nat := fld w.toNat 24 6
def mmaMode (w : W32) : Nat := fld w.toNat 30 2
/-- The two low bits of the major: gather, scaled. -/
def mmaGather (w : W32) : Bool := w.getLsbD 1
def mmaScaled (w : W32) : Bool := w.getLsbD 2

/-! ### The word mscale (11 Table 11-2) -/

def mscaleGm (v : W64) : Nat := fld v.toNat 16 8
def mscaleBen (v : W64) : Bool := v.getLsbD 9
def mscaleAen (v : W64) : Bool := v.getLsbD 8
def mscaleB (v : W64) : Nat := fld v.toNat 4 4
def mscaleA (v : W64) : Nat := fld v.toNat 0 4
def mscaleOk (v : W64) : Bool := zeroBits v.toNat 24 40 && zeroBits v.toNat 10 6 && decide (mscaleGm v ≤ 128)

/-- Table 11-8. -/
def mfmtOk (v : W64) : Bool :=
  let x := v.toNat
  zeroBits x 56 8 && zeroBits x 36 4 && decide (fld x 48 8 ≤ 128) && decide (fld x 40 8 ≤ 128) &&
  [1, 6, 7, 8, 9, 10].contains (fld x 32 4) && decide (fld x 0 32 % elemSize (fld x 32 4) = 0)

/-! ### An operation's shape -/

/-- Does a side of the operation carry affine pairs? -/
def MatOp.scaledA (o : MatOp) : Bool := mmaScaled o.word && mscaleAen o.mscale
def MatOp.scaledB (o : MatOp) : Bool := mmaScaled o.word && mscaleBen o.mscale
/-- M, N and K (11 R233, R237). -/
def MatOp.m (o : MatOp) : Nat := if mmaGather o.word then mscaleGm o.mscale else (descOf o.descA).rows
def MatOp.n (o : MatOp) : Nat := (descOf o.descB).rows
def MatOp.k (o : MatOp) : Nat := (descOf o.descA).cols
/-- Source row of output row `m`. -/
def MatOp.row (o : MatOp) (m : Nat) : Nat := if mmaGather o.word then o.idx.getD m 0 else m

/-- Operand groups of Table 11-1: 1 tapered, 2 integer, 3 sixteen-bit, 4 single; 0 for any other tag. -/
def groupOf (t : Nat) : Nat :=
  match t with
  | 9 => 1
  | 10 => 1
  | 4 => 2
  | 5 => 2
  | 7 => 3
  | 8 => 3
  | 6 => 4
  | _ => 0
def MatOp.group (o : MatOp) : Nat := groupOf (descOf o.descA).tag
/-- Accumulator kind of Table 11-1: is it I32? -/
def MatOp.int (o : MatOp) : Bool := o.group == 2 && !mmaScaled o.word

/-! ### Checks at issue (11 Table 11-4) -/

def mismatchOf (n tag : Nat) : Flt := ⟨.tagMismatch, n + tag * 256 + 4096⟩

/-- Order 1: buffers and rights. -/
def State.matRights (s : State) (t : Team) (o : MatOp) : Bool :=
  let ab (d : Desc) : Bool := (d.buf == .wb || d.buf == .ab) && (s.holder t d).isSome
  let sb (d : Desc) : Bool := d.buf == .sb && (s.holder t d).isSome
  let a := descOf o.descA
  ab a && ab (descOf o.descB) && (!mmaGather o.word || a.buf == .ab) && (!o.scaledA || sb (descOf o.descSA)) &&
    (!o.scaledB || sb (descOf o.descSB))

/-- Order 2: tags. `ixTags` are the tags of the index registers that the operation reads. -/
def MatOp.tagFault (o : MatOp) (ixTags : List Tag) (accInt : Bool) : Option Flt :=
  let ta := (descOf o.descA).tag
  let tb := (descOf o.descB).tag
  let ix := (rangeFrom 0 ixTags.length).map fun k => (mmaIx o.word + k, ixTags.getD k .none)
  let acc := mmaMode o.word == 0 || mmaMode o.word == 2
  match ix.find? (fun x => x.2 == .poison) with
  | some x => some ⟨.uncorrData, x.1⟩
  | none =>
    if o.group = 0 || (mmaScaled o.word && decide (2 < o.group)) then some (mismatchOf (mmaA o.word) ta)
    else if groupOf tb ≠ o.group then some (mismatchOf (mmaB o.word) tb)
    else if o.scaledA && (descOf o.descSA).tag != 3 then some (mismatchOf (mscaleA o.mscale) (descOf o.descSA).tag)
    else if o.scaledB && (descOf o.descSB).tag != 3 then some (mismatchOf (mscaleB o.mscale) (descOf o.descSB).tag)
    else
      match ix.find? (fun x => x.2 != .i16x2 && x.2 != .none) with
      | some x => some ⟨.tagMismatch, x.1 + x.2.code * 256⟩
      | none =>
        if acc && accInt != o.int then some (mismatchOf (mmaAcc o.word) (if accInt then 1 else 6)) else none

/-- Order 3: shapes. -/
def MatOp.badShape (o : MatOp) : Bool :=
  let a := descOf o.descA
  let b := descOf o.descB
  let scale (sd d : Desc) : Bool := decide (sd.rows < d.rows) || decide (sd.cols < ceilDiv o.k 32)
  decide (128 < o.m) || decide (128 < o.n) || a.cols != b.cols || (o.scaledA && scale (descOf o.descSA) a) ||
    (o.scaledB && scale (descOf o.descSB) b) || (mmaGather o.word && mmaIx o.word % 2 == 1)

/-- Order 4: tile sets and gather indices. -/
def State.matBounds (s : State) (t : Team) (o : MatOp) : Bool :=
  let out (x : BitVec 128) : Bool := ((s.holder t (descOf x)).map fun h => (descOf x).outside h).getD true
  out o.descA || out o.descB || (o.scaledA && out o.descSA) || (o.scaledB && out o.descSB) ||
    (mmaGather o.word && (rangeFrom 0 o.m).any fun m => decide ((descOf o.descA).rows ≤ o.row m))

/-- The first check of Table 11-4 that fails. -/
def State.matCheck (s : State) (t : Team) (o : MatOp) (ixTags : List Tag) : Option Flt :=
  let used := if !mmaGather o.word || o.m == 0 then [] else ixTags.take (if 64 < o.m then 2 else 1)
  if !s.matRights t o then some ⟨.bufRights, 0⟩
  else
    (o.tagFault used (t.accInt (mmaAcc o.word))).orElse fun _ =>
      if o.badShape then some ⟨.illEnc, 0⟩ else if s.matBounds t o then some ⟨.bufBound, 0⟩ else none

/-! ### Faults of an operation (11 R246) -/

/-- The gangs of a signer list, each with the address of its last signature. -/
def signerGangs (l : List Signer) : List (Nat × Nat) :=
  l.foldl (fun acc y => putBy (fun x => x.1 == y.gang) (y.gang, y.pc) acc) []

/-- Count down the flag of every matrix signer. -/
def State.signersDone (s : State) (l t : Nat) (ys : List Signer) : State :=
  (ys.filter (·.matrix)).foldl (fun s y => s.modGang l t y.gang (·.flagDown y.flag)) s

/-- The operation has left the engine: every gang on its list takes the fault on every lane that has not exited. For a rollback
code each gang has its record, and the cluster rolls back once. -/
def State.matFault (s : State) (o : MatOp) (f : Flt) : State :=
  let l := o.launch
  let t := o.team
  let s1 := s.signersDone l t o.signers
  let live (s : State) (g : Nat) : Mask := ((s.gang? l t g).map (·.live)).getD 0
  let unit := mmaAcc o.word
  match classOf f.code, signerGangs o.signers with
  | .rollback, (g, pc) :: rest =>
    let again := s1.rollback l t (s1.record l t g 1 f.code (live s1 g) o.word pc f.detail 0 unit 0)
    let ok := ((s1.team? l t).map fun x => s1.mayRollBack l x.cluster).getD false
    rest.foldl (fun s y =>
      let r := { s1.record l t y.1 1 f.code (live s1 y.1) o.word y.2 f.detail 0 unit 0 with extra := if ok then 0 else 1 }
      (s.post r).modFunc 0 fun f => { f with pend := f.pend ++ [{ r with ring := 3 }] }) again
  | _, gs => gs.foldl (fun s y => s.raiseAt l t y.1 (live s y.1) f.code f.detail y.2 o.word unit) s1

/-! ### Signing and issue (11 R238 to R241) -/

/-- The 128 gather indices in registers ix and ix + 1 (11 R237). -/
def Gang.gather (g : Gang) (ix : Nat) : List Nat :=
  (rangeFrom 0 128).map fun m =>
    let r := if m < 64 then ix else ix + 1
    fld ((g.lanes r).getD (m % 64 / 2) 0).toNat (16 * (m % 2)) 16

def Gang.capture (g : Gang) (w : W32) : Capture :=
  let ix := mmaIx w
  ⟨g.idx, w, g.tregs, if mmaGather w then g.gather ix else [], if mmaGather w then [g.tag ix, g.tag (ix + 1)] else []⟩

/-- The operation of a complete list: it is checked, and joins the engine's queue. -/
def State.issueMat (s : State) (l t : Nat) (k : Capture) (ys : List Signer) : State :=
  match s.team? l t with
  | none => s
  | some x =>
    let (id, s1) := s.take
    let reg (n : Nat) : BitVec 128 := k.tregs.getD n 0
    let o : MatOp := ⟨id, l, t, k.word, k.issuer, reg (mmaA k.word), reg (mmaB k.word), reg (mscaleA x.mscale), reg (mscaleB x.mscale),
      k.idx, x.mscale, ys, 0, false, false, none⟩
    match s.matCheck x o k.ixTags with
    | some f => s1.matFault o f
    | none => s1.modCore x.core fun c => { c with engine := c.engine ++ [o] }

/-- Add a signature to a convergence register; the one that brings the list to the declared count empties it and issues. -/
def State.addSignature (s : State) (l t cv : Nat) (y : Signer) (k : Option Capture) : State :=
  match s.team? l t with
  | none => s
  | some x =>
    let v := x.conv cv
    let ys := v.signers ++ [y]
    let cap := match k with
      | some c => some c
      | none => v.cap
    if v.declared ≤ ys.length then
      let s1 := s.modTeam l t (·.setConv cv { v with signers := [], cap := none })
      match cap with
      | some c => s1.issueMat l t c ys
      | none => s1
    else s.modTeam l t (·.setConv cv { v with signers := ys, cap := cap })

/-- Would this signature issue an operation while the engine's queue is full? -/
def State.signWaits (s : State) (t : Team) (v : Conv) (isMatrix : Bool) : Bool :=
  decide (v.declared ≤ v.signers.length + 1) && (isMatrix || v.cap.isSome) && decide (16 ≤ (s.core t.core).engine.length)

/-- `MMA`, `MMAG`, `MMAS` and `MMAGS` (11 R238, R242): they form a region of their own (02 R40). -/
def State.signMatrix (s : State) (i : Instr) : Out :=
  s.withActive fun c t g =>
    let w := BitVec.ofNat 32 (encodeWord i)
    let v := t.conv (mmaCv w)
    let flag := g.setBOf c.eid
    if t.acc ≤ mmaAcc w || t.tiles ≤ mmaA w || t.tiles ≤ mmaB w then s.illField c
    else if v.signers.any fun y => y.matrix && y.word != w then s.illValue c
    else if g.flagFull flag then s.stall c (.flagFull flag)
    else if s.signWaits t v true then s.stall c .engineFull
    else
      let s1 := (s.newRegion c.launch c.team c.gang).modGang c.launch c.team c.gang (·.flagUp flag)
      (s1.advanceRegion c).addSignature c.launch c.team (mmaCv w) ⟨c.gang, flag, true, w, c.pc⟩ (some (g.capture w))

def execMma (k c : BitVec 3) (a b : BitVec 4) (m : BitVec 2) (s : State) : Out := s.signMatrix (.mma k c a b m)
def execMmag (k c : BitVec 3) (a b : BitVec 4) (x : BitVec 6) (m : BitVec 2) (s : State) : Out := s.signMatrix (.mmag k c a b x m)
def execMmas (k c : BitVec 3) (a b : BitVec 4) (m : BitVec 2) (s : State) : Out := s.signMatrix (.mmas k c a b m)
def execMmags (k c : BitVec 3) (a b : BitVec 4) (x : BitVec 6) (m : BitVec 2) (s : State) : Out := s.signMatrix (.mmags k c a b x m)

/-- `CVSIGN` (13 R304). -/
def execCvsign (d : BitVec 6) (s : State) : Out :=
  s.withActive fun c t _ =>
    let v := t.conv d.toNat
    if v.declared = 0 then s.advanceRegion c
    else if s.signWaits t v false then s.stall c .engineFull
    else (s.advanceRegion c).addSignature c.launch c.team d.toNat ⟨c.gang, 15, false, 0, c.pc⟩ none

/-! ### The engine (11 R241, R244) -/

def State.matOp? (s : State) (core id : Nat) : Option MatOp := (s.core core).engine.find? (·.id == id)
def State.modMat (s : State) (core id : Nat) (f : MatOp → MatOp) : State :=
  s.modCore core fun c => { c with engine := modIf (·.id == id) f c.engine }

/-- May the engine start an operation: no earlier one on its accumulator, no earlier `MSTORE` that still reads it, and no baton in
other hands? -/
def State.mayStart (s : State) (core : Nat) (o : MatOp) : Bool :=
  let c := s.core core
  !o.started && !c.opsOn o.launch o.team (mmaAcc o.word) o.id && !c.storesOn o.launch o.team (mmaAcc o.word) o.id &&
  (match c.baton with
   | .free => true
   | .gang l t g => l == o.launch && t == o.team && g == o.issuer
   | .team l t => l == o.launch && t == o.team)

/-- The tiles of a captured descriptor: core, buffer and physical tiles. -/
def State.tilesOf (s : State) (t : Team) (x : BitVec 128) : List (Nat × Buf × Nat) :=
  let d := descOf x
  match s.holder t d with
  | none => []
  | some h => d.set.map fun k => (h.core, d.buf, d.tile h k)

/-- Tiles that the operation waits for. -/
def State.matTiles (s : State) (t : Team) (o : MatOp) : List (Nat × Buf × Nat) :=
  s.tilesOf t o.descA ++ s.tilesOf t o.descB ++ (if o.scaledA then s.tilesOf t o.descSA else []) ++
    (if o.scaledB then s.tilesOf t o.descSB else [])

/-- First byte of an accumulator's element in the core's CB. -/
def Team.accElem (t : Team) (k m n : Nat) : Nat := t.accByte k + 4 * (128 * m + n)

/-- The kind of an accumulator. -/
def Team.setKind (t : Team) (k : Nat) (int : Bool) : Team :=
  { t with akind := if int then t.akind ||| (1#8 <<< k) else t.akind &&& ~~~ (1#8 <<< k) }

/-- Write `n` elements of a row of an accumulator. -/
def State.putAccRow (s : State) (t : Team) (k m : Nat) (vals : List Nat) : State :=
  s.modBuf t.core .cb fun b => b.put (t.accElem k m 0) (vals.flatMap fun v => leBytes v 4) false

/-- An initialising mode writes +0 and sets the kind. -/
def State.matInit (s : State) (t : Team) (o : MatOp) : State :=
  if (mmaMode o.word == 1 || mmaMode o.word == 3) && o.m != 0 && o.n != 0 then
    let s1 := (rangeFrom 0 o.m).foldl (fun s m => s.putAccRow t (mmaAcc o.word) m (List.replicate o.n 0)) s
    s1.modTeam t.launch t.num (·.setKind (mmaAcc o.word) o.int)
  else s

/-- The elements `lo .. hi - 1` of row `r` of a tile, and whether one lies in a marked block. -/
def State.tileRow (s : State) (h : Team) (d : Desc) (r lo hi : Nat) : List Nat × Bool :=
  let b := (s.core h.core).buf d.buf
  let e := elemSize d.tag
  let at_ (k : Nat) : Nat := d.phys h (d.place (r * d.pitch + e * k))
  ((rangeFrom lo (hi - lo)).map fun k => leNat (b.get (at_ k) e), (rangeFrom lo (hi - lo)).any fun k => b.marked (at_ k) e)

/-- The rows that a gather takes into the operand latch as it begins, each element with its mark (11 R237). -/
def State.latched (s : State) (t : Team) (o : MatOp) : List (List (Nat × Bool)) :=
  let d := descOf o.descA
  (rangeFrom 0 o.m).map fun m => (rangeFrom 0 o.k).map fun k =>
    let (x, bad) := s.tileRow ((s.holder t d).getD t) d (o.row m) k (k + 1)
    (x.getD 0 0, bad)

/-- The elements `lo .. hi - 1` of output row `m`'s source: from the latch, or from the tile. -/
def State.rowA (s : State) (h : Team) (o : MatOp) (m lo hi : Nat) : List Nat × Bool :=
  match o.latch with
  | none => s.tileRow h (descOf o.descA) (o.row m) lo hi
  | some rows =>
    let p := ((rows.getD m []).drop lo).take (hi - lo)
    (p.map (·.1), p.any (·.2))

/-- The engine takes up the oldest operation that may start, and begins it once none of its tiles is EMPTY. -/
def execMatrixOpStart (core id : Nat) (s : State) : Out :=
  .next (match s.matOp? core id with
    | none => s
    | some o =>
      let older := (s.core core).engine.any fun x => decide (x.id < id) && s.mayStart core x
      let takes := s.mayStart core o && !older
      if o.begun || !(o.started || takes) then s
      else
        let s1 := s.modMat core id fun o => { o with started := true }
        match s1.team? o.launch o.team with
        | none => s1
        | some t =>
          if (s.func t.func).frozen || (s1.matTiles t o).any fun x => s1.tileEmpty x.1 x.2.1 x.2.2 then s1
          else
            let latch := if mmaGather o.word then some (s1.latched t o) else none
            (if o.progress = 0 then s1.matInit t o else s1).modMat core id fun o => { o with begun := true, latch := latch })

/-! ### Block sums (09 R199, R200) -/

/-- Decoded value of an element of a tile under its tag. -/
def tileVal (tag x : Nat) : Val :=
  match tag with
  | 9 => t8Val x
  | 10 => t6Val x
  | 4 => .ofInt (sext x 8)
  | 5 => .ofInt x
  | 7 => fF16.val x
  | 8 => fBF16.val x
  | _ => fF32.val x

/-- An affine pair: scale and zero point. -/
structure Pair where
  s : Val
  z : Int
deriving DecidableEq, Repr
def Pair.unit : Pair := ⟨.ofInt 1, 0⟩

/-- Element minus the zero point, on the decoded value. -/
def Val.less (v : Val) (z : Int) : Val :=
  match v with
  | .fin n q => if z = 0 then .fin n q else
      let r := q.add (Q.ofInt (-z))
      .fin (decide (r.n < 0)) r
  | v => v

/-- An exact zero of a block is +0. -/
def Val.plusZero (v : Val) : Val :=
  match v with
  | .fin n q => if q.n = 0 then .fin false q else .fin n q
  | v => v

/-- V of a block: one rounding of the exact product of the scales and the sum. -/
def blockV (a b : List Val) (pa pb : Pair) : Nat :=
  let terms := (a.zip b).map fun x => Val.mul (x.1.less pa.z) (x.2.less pb.z)
  let sum := (Val.sum .rne terms).plusZero
  let v := match pa.s, pb.s with
    | .nan, _ => Val.nan
    | _, .nan => Val.nan
    | x, y => (Val.mul (Val.mul x y) sum).plusZero
  fF32.round .rne v

/-- acc := RoundF32(acc + V). -/
def accAdd (acc v : Nat) : Nat := fF32.round .rne (Val.sum .rne [fF32.val acc, fF32.val v])

/-- The block rule of kind I32. -/
def accAddInt (acc : Nat) (a b : List Nat) (ta tb : Nat) : Nat :=
  let int (t x : Nat) : Int := if t = 4 then sext x 8 else x
  let sum := (a.zip b).foldl (fun n x => n + int ta x.1 * int tb x.2) (0 : Int)
  (((acc : Int) + sum) % (2 ^ 32 : Nat)).toNat

/-- Consecutive groups of at most `n` elements. -/
def groups {α : Type} (n : Nat) (l : List α) : Nat → List (List α)
  | 0 => []
  | k + 1 => if l.isEmpty then [] else l.take n :: groups n (l.drop n) k

/-- The affine pair of row `r` and block `j`, and whether its entry is marked. -/
def State.pairAt (s : State) (h : Team) (d : Desc) (r j : Nat) : Pair × Bool :=
  let (x, bad) := s.tileRow h d r j (j + 1)
  let v := x.getD 0 0
  (⟨scaleVal (v % 256), sext (v / 256) 8⟩, bad)

/-- One K step of an operation (11 R244): the new rows of the accumulator, or poison met among the bytes it uses. -/
def State.kStep (s : State) (t : Team) (o : MatOp) : Option (List (List Nat)) :=
  let da := descOf o.descA
  let db := descOf o.descB
  let lo := o.progress
  let hi := min o.k (lo + 32)
  let k := mmaAcc o.word
  let cb := (s.core t.core).buf .cb
  let ha := (s.holder t da).getD t
  let hb := (s.holder t db).getD t
  let hsa := (s.holder t (descOf o.descSA)).getD t
  let hsb := (s.holder t (descOf o.descSB)).getD t
  let ms := rangeFrom 0 o.m
  let ns := rangeFrom 0 o.n
  let rowsA := ms.map fun m => s.rowA ha o m lo hi
  let rowsB := ns.map fun n => s.tileRow hb db n lo hi
  let pairA := ms.map fun m => if o.scaledA then s.pairAt hsa (descOf o.descSA) (o.row m) (lo / 32) else (Pair.unit, false)
  let pairB := ns.map fun n => if o.scaledB then s.pairAt hsb (descOf o.descSB) n (lo / 32) else (Pair.unit, false)
  if o.m = 0 || o.n = 0 then some []
  else if rowsA.any (·.2) || rowsB.any (·.2) || pairA.any (·.2) || pairB.any (·.2) ||
      ms.any (fun m => cb.marked (t.accElem k m 0) (4 * o.n)) then none
  else
    some ((ms.zip (rowsA.zip pairA)).map fun x =>
      (ns.zip (rowsB.zip pairB)).map fun y =>
        let acc := leNat (cb.get (t.accElem k x.1 y.1) 4)
        let a := x.2.1.1
        let b := y.2.1.1
        if o.int then accAddInt acc a b da.tag db.tag
        else
          let size := if o.group = 4 then 4 else 32
          let as := groups size (a.map (tileVal da.tag)) 8
          let bs := groups size (b.map (tileVal db.tag)) 8
          (as.zip bs).foldl (fun acc p => accAdd acc (blockV p.1 p.2 x.2.2.1 y.2.2.1)) acc)

/-- The operation leaves the engine. -/
def State.dropMat (s : State) (core id : Nat) : State :=
  s.modCore core fun c => { c with engine := c.engine.filter (·.id != id) }

/-- The check of a K step (11 R247): the step takes the next upset of the engine, if one is there. One that the retry does not repeat
counts a corrected compute error; the result is none when the retry fails as well. -/
def State.checkStep (s : State) (core func : Nat) : Bool × State :=
  match (s.core core).engineUpsets with
  | [] => (true, s)
  | again :: rest =>
    let s1 := s.modCore core fun c => { c with engineUpsets := rest }
    if again then (false, s1) else (true, s1.countErr func 5)

/-- A K step that the engine performs; a poisoned byte, or a check that its retry fails as well, faults the operation. -/
def execMatrixKStep (core id : Nat) (s : State) : Out :=
  .next (match s.matOp? core id with
    | none => s
    | some o =>
      match s.team? o.launch o.team with
      | none => s
      | some t =>
        -- a stop takes effect at the next K step boundary (11 R248)
        if !o.begun || decide (o.k ≤ o.progress) || (s.func t.func).frozen then s
        else
          match s.kStep t o with
          | none => (s.dropMat core id).matFault o ⟨.uncorrData, 0⟩
          | some rows =>
            match s.checkStep core t.func with
            | (false, s1) => (s1.dropMat core id).matFault o ⟨.checkFail, 0⟩
            | (true, s1) =>
              let s2 := ((rangeFrom 0 rows.length).zip rows).foldl (fun s x => s.putAccRow t (mmaAcc o.word) x.1 x.2) s1
              s2.modMat core id fun o => { o with progress := min o.k (o.progress + 32) })

/-- The end of an operation: consumption, the accumulator's arrival, the signers' flags. -/
def execMatrixOpComplete (core id : Nat) (s : State) : Out :=
  .next (match s.matOp? core id with
    | none => s
    | some o =>
      match s.team? o.launch o.team with
      | none => s
      | some t =>
        if !o.begun || decide (o.progress < o.k) then s
        else
          let s1 := if mmaMode o.word == 2 || mmaMode o.word == 3 then
              (s.tilesOf t o.descA ++ s.tilesOf t o.descB).foldl (fun s x => s.tileConsume x.1 x.2.1 x.2.2) s
            else s
          let s2 := if o.m = 0 || o.n = 0 then s1
            else s1.tileArrive core .cb (t.accBase + mmaAcc o.word) (4 * o.m * o.n)
          let s3 := (s2.dropMat core id).signersDone o.launch o.team o.signers
          (signerGangs o.signers).foldl (fun s y => s.endGang o.launch o.team y.1) s3)

/-! ### MZERO, MRD and MWR (11 R249 to R251) -/

def BufState.clear (x : BufState) (lo n : Nat) : BufState :=
  { x with bytes := x.bytes.filter fun p => !(decide (lo ≤ p.1) && decide (p.1 < lo + n))
           poison := x.poison.filter fun k => !(decide (lo ≤ 32 * k) && decide (32 * k < lo + n)) }

/-- An instruction that names an accumulator: one that the team has not declared faults ILL_ENC before predication (02 R28, R37), and
with no active lane the instruction is ignored. -/
def State.withAcc (s : State) (k : Nat) (f : Cur → Team → Gang → State) : Out :=
  s.withCur fun c t g => if t.acc ≤ k then s.illField c else if c.mask = 0 then s.advance c else f c t g

def execMzero (k : BitVec 3) (m : BitVec 2) (s : State) : Out :=
  s.withAcc k.toNat fun c t _ =>
    let a := k.toNat
    if s.accBusy t a true then s.stall c (.accBusy a true)
    else
      let s1 := s.modBuf t.core .cb fun b => b.clear (t.accByte a) 65536
      (s1.modTeam c.launch c.team (·.setKind a (m == 1))).advance c

/-- Fault of a lane's element index. -/
def accFault (f x : Nat) : Option Flt :=
  if (if f = 2 then 16380 else 16383) < x then some ⟨.bufBound, 0⟩
  else if f = 2 && x % 4 != 0 then some ⟨.misalign, 0⟩
  else none

/-- What `MRD` and `MWR` share: the checks in order, the stall, and the lanes that go on with their element indices. -/
def State.accAccess (s : State) (k f : Nat) (a : Opnd) (data : Team → Gang → List Src × List Tag) (stores : Bool)
    (go : State → Cur → Team → List (Nat × Nat) → State) : Out :=
  s.withAcc k fun c t g =>
    let x := g.srcA a
    let (ds, ok) := data t g
    if s.accBusy t k stores then s.stall c (.accBusy k stores)
    else
      match (poisonCheck (x :: ds)).orElse fun _ => (Machine.accept W32tags [x]).orElse fun _ => Machine.accept ok ds with
      | some (.ill d) => s.illValue c d
      | some (.flt e) => s.raiseAll c e
      | none =>
        let lanes := lanesOf c.mask
        let bad := lanes.filterMap fun i => (accFault f (x.val i)).map fun e => (i, e)
        let live := (lanes.filter fun i => (accFault f (x.val i)).isNone).map fun i => (i, x.val i)
        let s1 := s.raiseLanes c bad
        if live.isEmpty then s1.advance c else go s1 c t live

def execMrd (d : BitVec 6) (k f : BitVec 4) (a : Opnd) (s : State) : Out :=
  s.accAccess k.toNat f.toNat a (fun _ _ => ([], [])) false fun s1 c t live =>
    if s1.tileEmpty t.core .cb (t.accBase + k.toNat) then s1.waitTile c t.core .cb (t.accBase + k.toNat)
    else
      match s1.gang? c.launch c.team c.gang with
      | none => s1
      | some g =>
        let cb := (s1.core t.core).buf .cb
        let n := widthBytes f.toNat
        let at_ (i : Nat) : Nat := t.accByte k.toNat + 4 * (((live.find? (·.1 == i)).map (·.2)).getD 0)
        let bad := live.any fun y => cb.marked (at_ y.1) n
        let tag := if bad then Tag.poison else if t.accInt k.toNat then .i32 else .f32
        let regs := (rangeFrom 0 (widthRegs f.toNat)).map (d.toNat + ·)
        let g1 := (g.freeLast [a] regs).putLoad d.toNat f.toNat (maskOf (live.map (·.1))) tag fun i =>
          BitVec.ofNat 128 (leNat (cb.get (at_ i) n))
        s1.commitGang c g g1

def execMwr (d : BitVec 6) (k f : BitVec 4) (a : Opnd) (s : State) : Out :=
  s.accAccess k.toNat f.toNat a
    (fun t g => (g.dataRegs d.toNat f.toNat, if t.accInt k.toNat then [.i32, .u32, .none] else [.f32, .none])) true fun s1 c t live =>
      match s1.gang? c.launch c.team c.gang with
      | none => s1
      | some g =>
        let s2 := live.foldl (fun s y => s.modBuf t.core .cb fun b =>
          b.put (t.accByte k.toNat + 4 * y.2) (leBytes (g.storeData d.toNat f.toNat y.1).toNat (widthBytes f.toNat)) false) s1
        s2.putGang c.launch c.team c.gang ((g.freeLast [a] []).advance c)

/-! ### MPROG and MSTORE (11 R252, R253) -/

def execMprogWrite (a : Opnd) (w : BitVec 3) (s : State) : Out :=
  s.withActive fun c _ g =>
    let v := g.uniOp a
    let bad := (w == 0 && !mscaleOk v) || (w == 2 && !mfmtOk v)
    if bad then s.illValue c
    else
      let s1 := s.putGang c.launch c.team c.gang (g.freeLastS a [])
      (s1.modTeam c.launch c.team fun t =>
        if w = 0 then { t with mscale := v } else if w = 1 then { t with mbase := v } else { t with mfmt := v }).advance c

def execMprogRead (d : BitVec 6) (w : BitVec 3) (s : State) : Out :=
  s.gangOp fun t g => .ok (g.putS d.toNat (if w = 0 then t.mscale else if w = 1 then t.mbase else t.mfmt))

/-- Bytes that an `MSTORE` of at least one element may touch (06 R136). -/
def MStore.span (m : MStore) : Int × Int := spanOf (m.mbase.toNat : Int) m.size [(m.cols, m.size), (m.rows, m.pitch)]

/-- Range-lock entry of an `MSTORE` (06 R136): none when it stores nothing. -/
def MStore.locks (m : MStore) (id func : Nat) : List Lock :=
  let lo := (m.span.1 / 32 * 32 % (2 ^ 64 : Nat)).toNat
  if m.rows * m.cols = 0 then []
  else [⟨id, false, func, true, lo, lo + ((m.span.2 / 32 + 1) * 32 - m.span.1 / 32 * 32).toNat, [], 0⟩]

def execMstore (k : BitVec 3) (s : State) : Out :=
  s.withAcc k.toNat fun c t g =>
    let a := k.toNat
    let flag := g.setBOf c.eid
    let core := s.core t.core
    let after := (core.engine.filter fun o => o.launch == c.launch && o.team == c.team && mmaAcc o.word == a).map (·.id)
    let m : MStore := ⟨a, t.mbase, t.mfmt, after⟩
    let n := m.rows * m.cols
    if t.mfmt = 0 then s.illValue c
    else if t.mbase.toNat % m.size ≠ 0 || m.pitch % m.size ≠ 0 then s.raiseAll c ⟨.misalign, 0⟩
    else
      let isSeq := n != 0 && s.touchesSeq t.core t.func .write m.span
      if isSeq && s.seqPending c.launch c.team c.gang g c.seq then s.stall c .seqAccess
      else if !s.copySlotFree t.core c.seq then s.stall c .copySlot
      else if !s.lockFree t.core c.seq (m.locks 0 0).length then s.stall c .rangeLock
      else if g.flagFull flag then s.stall c (.flagFull flag)
      else
        let x : Copy := ⟨0, .gang c.launch c.team c.gang, [], c.pc, c.word, c.mask, flag, 31, false, 0, isSeq, some m, chunksOf n 1, []⟩
        let (_, s1) := s.startCopy t.core x fun id => m.locks id t.func
        (s1.modGang c.launch c.team c.gang (·.flagUp flag)).advance c

end Sys2Proof.Machine
end

