-- ==== Sys2Proof/Machine/Traps.lean ====
section
/-! DEFINITION. The reporting port, the resume and reply registers, rollback, the watchdog, partition resets and the thermal limits
(chapter 14, 16 R362, R366). -/

namespace Sys2Proof.Machine

/-! ### Records (14 R312 to R315) -/

def needByte : Need → Nat
  | .read => 0
  | .write => 1
  | .rw => 2
  | .fetch => 3

/-- The 64 bytes of a record: Table 14-3 for a page request, else Table 14-2 with its seq. -/
def Record.bytes (r : Record) (seq : Nat) : List Byte :=
  if r.ring = 0 then
    leBytes (codeByte r.code) 1 ++ leBytes (needByte r.need) 1 ++ leBytes r.func 2 ++ leBytes r.reqId 4 ++ leBytes r.detail.toNat 8 ++
      List.replicate 48 0
  else
    leBytes (codeByte r.code) 1 ++ leBytes r.flags 1 ++ leBytes r.func 2 ++ leBytes seq 4 ++ leBytes r.launch 8 ++
      leBytes r.team 4 ++ leBytes r.gang 1 ++ leBytes r.unit 1 ++ [0, 0] ++ leBytes r.lanes.toNat 4 ++ leBytes r.word.toNat 4 ++
      leBytes r.pc 8 ++ leBytes r.detail.toNat 8 ++ leBytes r.extra.toNat 8 ++ List.replicate 8 0

/-- Ring of the function whose port holds the record; the physical function's copy goes to its terminal ring. -/
def Record.ringOf (r : Record) : Nat := if r.ring = 3 then 1 else r.ring

/-- Can a ring take a record? -/
def Ring.free (x : Ring) : Bool := x.set && decide ((x.wr + 2 ^ 32 - x.rd) % 2 ^ 32 < 2 ^ x.k)
def Func.takes (f : Func) (r : Record) : Bool := ((f.rings[r.ringOf]?).map Ring.free).getD false

/-- First record of a list that a ring can take, and the others. -/
def firstTaken (p : Record → Bool) : List Record → Option (Record × List Record)
  | [] => none
  | r :: rest =>
    if p r then some (r, rest) else (firstTaken p rest).map fun x => (x.1, r :: x.2)

/-- A round of the port (14 R314): each function with a record that can be written, as often as its weight allows. -/
def State.newRound (s : State) : List Nat :=
  ((rangeFrom 0 64).filter fun f => s.funcs.any fun x => x.id == f).flatMap fun f =>
    let x := s.func f
    List.replicate (min (max 1 x.cfg.weight) (x.pend.filter x.takes).length) f

/-- Records that find their ring full wait, and count once each (14 R313). -/
def State.countWaits (s : State) : State :=
  { s with funcs := s.funcs.map fun f =>
      let late := f.pend.filter fun r => !f.takes r && !r.waited
      if late.isEmpty then f
      else { f with pend := f.pend.map fun r => if f.takes r then r else { r with waited := true }
                    errcnt := modAt f.errcnt 11 fun c => (min (2 ^ 32 - 1) (c.1 + late.length), c.2) } }

/-- Write a record into its ring, and do what its arrival there does: a terminal fault stops the queue of its launch's root packet
(14 R317). -/
def State.writeRecord (s : State) (f : Nat) (r : Record) (rest : List Record) : State :=
  let x := (((s.func f).rings[r.ringOf]?).getD Ring.reset)
  let seq := r.seqOf.getD (x.seq % 2 ^ 32)
  let at_ := x.base + 64 * (x.wr % 2 ^ x.k)
  let s1 := if inDevice at_ then s.homeWrite at_ f (r.bytes seq) false else s
  let s2 := s1.modFunc f fun y =>
    { y with pend := rest
             rings := modAt y.rings r.ringOf fun (z : Ring) =>
               { z with wr := (z.wr + 1) % 2 ^ 32, seq := if r.seqOf.isSome || r.ring == 0 then z.seq else z.seq + 1 } }
  let s3 := if r.ring = 0 then
      { s2 with pageReqs := modIf (fun p => p.owner == f && p.id == r.reqId) (fun p => { p with posted := true }) s2.pageReqs }
    else s2
  match r.queue with
  | some (page, _) =>
    if r.ring = 1 && classOf r.code == FClass.terminal then
      s3.modQueue r.func page fun q => { q with stopped := true, readable := false }
    else s3
  | none => s3

/-! ### Resume and replies (14 R319, R320, 16 R366) -/

/-- RESUME: bits 31..0 name the team, bits 63..32 the low half of its launch. -/
def execTeamResume (func : Nat) (v : W64) (s : State) : Out :=
  .next (match s.teams.find? fun t =>
      t.func == func && t.stopped && t.num == fld v.toNat 0 32 && t.launch % 2 ^ 32 == fld v.toNat 32 32 with
    | none => s
    | some t => (s.resumeTeam t.launch t.num).watchFrom s func)

/-- SVCREPLY at 0x0068. -/
def execSvcReplySeq (func : Nat) (v : W64) (s : State) : Out :=
  .next (if s.bringUp != 5 then s else s.modFunc func fun f => { f with svcSeq := some (fld v.toNat 0 32) })

/-- SVCREPLY at 0x0070: the reply is delivered when its seq is outstanding. -/
def execSvcReplyValue (func : Nat) (v : W64) (s : State) : Out :=
  .next (match (s.func func).svcSeq with
    | none => s
    | some q =>
      State.watchFrom (s.modFunc func fun f =>
        { f with svcSeq := none
                 svcGot := if f.svcWait.any (·.1 == q) && !f.svcGot.any (·.1 == q) then f.svcGot ++ [(q, v)] else f.svcGot }) s func)

/-! ### Rollback (14 R331) -/

/-- Drop a team's uncommitted sectors from its core's cache without write-back. -/
def Line.dropOwned (l : Line) (me : Nat × Nat) : Line :=
  (rangeFrom 0 4).foldl (fun l k =>
    if (l.owner[k]?).join = some me then
      { l with valid := l.valid &&& ~~~ (l.dirty &&& sectorMask k)
               dirty := l.dirty &&& ~~~ sectorMask k
               priv := l.priv &&& ~~~ sectorMask k
               owner := setAt l.owner k none }
    else l) l

def Core.dropOwned (c : Core) (me : Nat × Nat) : Core :=
  let cache := c.cache.map (·.dropOwned me)
  let clean (a : Nat) : Bool := ((findLine cache a).map (·.dirty == 0)).getD true
  { c with cache := cache.filter (·.valid != 0)
           fifo := c.fifo.filter fun f => !clean f.line
           markers := (c.markers.map fun m => { m with lines := m.lines.filter (!clean ·) }).filter (!·.lines.isEmpty) }

/-- Work in flight of a team: copies and their locks, `CPYT`s, matrix operations, fabric requests. -/
def Core.dropWork (c : Core) (l t : Nat) : Core :=
  let mineCopy (x : Copy) : Bool := x.team == some (l, t)
  let mineCpyt (x : Cpyt) : Bool := x.launch == l && x.team == t
  let gone := ((c.copies.filter mineCopy).map (·.id), (c.cpyts.filter mineCpyt).map (·.id))
  let mineReq (r : FabReq) : Bool := match r.owner with
    | .op l' t' _ _ _ => l' == l && t' == t
    | .store l' t' _ _ _ _ => l' == l && t' == t
    | .chunkRead _ id _ => gone.1.contains id
    | .chunkWrite _ id _ => gone.1.contains id
    | .cpyt _ id _ => gone.2.contains id
    | .fetch who _ => who == .list l t
    | .fill _ _ _ => false
    | .queue _ _ _ => false
  { c with copies := c.copies.filter (!mineCopy ·)
           cpyts := c.cpyts.filter (!mineCpyt ·)
           locks := c.locks.filter fun k => !(if k.cpyt then gone.2.contains k.copy else gone.1.contains k.copy)
           engine := c.engine.filter fun o => !(o.launch == l && o.team == t)
           reqs := c.reqs.filter (!mineReq ·) }

/-- A team stops and leaves its core, its work abandoned and its uncommitted stores dropped. -/
def State.pullTeam (s : State) (t : Team) : State :=
  let s1 := if t.st = .waiting then s
    else s.modCore t.core fun c =>
      { ((c.dropWork t.launch t.num).dropOwned (t.launch, t.num)).dropTeam t.launch t.num with
        poolV := c.poolV + t.takenV, poolS := c.poolS + t.takenS }
  { s1 with teams := s1.teams.filter fun x => !(x.launch == t.launch && x.num == t.num) }

/-- Where a rolled-back cluster goes: another bay with the same core numbers, `bay` first; else its own bay, on the same cores while
they are in use. None while there is no room. -/
def State.rollbackCores (s : State) (func : Nat) (p : LaunchPkt) (old : List Nat) (bay : Nat) : Option (List Nat) :=
  let home := bayOf (old.headD 0)
  let same (b : Nat) : List Nat := old.map fun k => 8 * b + k % 8
  let others := (bay :: (s.func func).bayList).filter (· != home)
  match others.find? fun b => s.clusterFits func b (same b) p with
  | some b => some (same b)
  | none =>
    if old.any fun k => (s.core k).outOfUse then s.bayChoice func home p
    else if s.clusterFits func home old p then some old
    else none

/-- The teams of a cluster stop, lose their work and their uncommitted stores, and wait as at an ordinary start, with the same numbers
(14 R331 steps 1 to 3). Other clusters on a core taken out of use are pre-empted and restored elsewhere (R333). -/
def State.stopCluster (s : State) (l : Launch) (ts : List Team) : State :=
  let out (k : Nat) : Bool := (s.core k).outOfUse && ts.any (·.core == k)
  let mine (t : Team) : Bool := ts.any fun x => x.launch == t.launch && x.num == t.num
  let s0 := if s.teams.any fun t => out t.core && !mine t then { s with agenda := Act.event (.preemption l.func) :: s.agenda } else s
  let (eid, s1) := (ts.foldl (fun s t => s.pullTeam t) s0).take
  { s1 with teams := s1.teams ++ ts.map fun t =>
      { newTeam l t.num t.tic t.core eid (0, 0, 0, 0) t.start.toNat t.stop.toNat with
        cluster := t.cluster, rollbacks := t.rollbacks + 1, st := .waiting } }

/-- A stopped cluster is placed again (14 R331 step 4), when a bay has room; a launch that no bay can hold any more faults RESOURCE
(R333). -/
def State.placeAgain (s : State) (l : Launch) (ts : List Team) (bay : Nat) : State :=
  let gone (t : Team) : Bool := ts.any fun x => x.launch == t.launch && x.num == t.num
  if (s.func l.func).frozen then s
  else
    match s.rollbackCores l.func l.pkt (ts.map (·.core)) bay with
    | some ks =>
      let s1 := { s with teams := s.teams.filter (!gone ·) }
      (ts.zip ks).foldl (fun s x =>
        match s.fits x.2 l.pkt with
        | none => s
        | some (a, b, c, d) =>
          s.addTeam { x.1 with st := .running, core := x.2, wbBase := a, abBase := b, sbBase := c, accBase := d }) s1
    | none =>
      if !s.cannotFit l.func l.pkt then s
      else
        let s1 := { s with teams := s.teams.filter (!gone ·) }.modLaunch l.id fun y => { y with left := y.left - ts.length }
        match l.root with
        | some (page, slot) => s1.queueFault l.func page slot .resource 0
        | none => s1

/-- Roll a cluster back: it stops, and starts again at once or when there is room. -/
def execClusterRollback (launch cluster bay : Nat) (s : State) : Out :=
  .next (match s.launch? launch with
    | none => s
    | some l =>
      let ours (s : State) (waits : Bool) : List Team := s.teams.filter fun t =>
        t.launch == launch && t.cluster == cluster && (t.st == .waiting) == waits
      let s1 := if (ours s false).isEmpty then s else s.stopCluster l (ours s false)
      if (ours s1 true).isEmpty then s1 else s1.placeAgain l (ours s1 true) bay)

/-! ### Partition reset (14 R334, R335) -/

/-- A queue replays from its replay index. -/
def Queue.replayed (q : Queue) : Queue :=
  if q.seen then
    { q with stopped := false, readable := true, restarted := false, force := max q.force q.lastRd, lastRd := q.replay, running := []
             parked := false, wrote := 0 }
  else { q with stopped := false, restarted := false, running := [], parked := false, wrote := 0 }

/-- A core of a partition that resets: no line, buffer byte, claim, baton or work is left. -/
def Core.cleared (c : Core) : Core := { Core.reset c.id with outOfUse := c.outOfUse, start := c.start, tlb := c.tlb }

/-- Function of a reader through a peer window. -/
def Waiter.func? (w : Waiter) (s : State) : Option Nat :=
  match w with
  | .queue f _ => some f
  | .list l t => (s.team? l t).map (·.func)
  | _ => none

/-- Walks and requests of the function go, their waiters with them; an `RSTREL` that is held for it is discarded (05 R119). -/
def State.dropFunc (s : State) (func : Nat) : State :=
  { s with dies := s.dies.map fun d => { d with walks := d.walks.filter (·.func != func) }
           pageReqs := s.pageReqs.filter (·.func != func)
           segments := s.segments.map fun x => if x.func == func then { x with held := [] } else x
           tileWait := s.tileWait.filter (·.func != func)
           fetched := s.fetched.filter fun x => !(x.who.func? s == some func)
           teams := s.teams.filter (·.func != func)
           launches := s.launches.filter (·.func != func) }

/-- Write a queue's rd back into its header. -/
def State.writeRd (s : State) (func : Nat) (q : Queue) : State :=
  if !q.seen then s
  else
    match s.qAccess func (q.header + 24) 8 .strel with
    | (.ok ⟨_, .mem a, _, _⟩, s1) => s1.homeWrite a func (leBytes q.replay 8) false
    | _ => s

/-- The record of a reset (14 R334). A reset by a parity error or by the temperature has a shared origin (R312, R339). -/
def resetRecord (func cause : Nat) : Record :=
  { queueRecord func 0 0 .hang 0 with
    flags := if cause = 2 || cause = 5 then 4 else 0, extra := BitVec.ofNat 64 cause, ring := 1 }

/-- What a reset does to its partition (14 R334, R335). -/
def State.resetPartition (s : State) (func cause : Nat) : State :=
  let f := s.func func
  let s2 := (if cause = 2 || cause = 5 then s.countShared (fun x => x.id == func) 10 else s.countErr func 10).dropFunc func
  let s3 := { s2 with cores := s2.cores.map fun (c : Core) => if f.hasBay (bayOf c.id) then c.cleared else c }
  let s4 := f.queues.foldl (fun s q => s.writeRd func q) s3
  s4.modFunc func fun x => { x with queues := x.queues.map Queue.replayed, svcWait := [], svcGot := [], retired := s.now }

/-- A record for the physical function's ring as well. -/
def State.postCopy (s : State) (r : Record) : State := s.modFunc 0 fun x => { x with pend := x.pend ++ [{ r with ring := 3 }] }

def execPartitionReset (func cause : Nat) (s : State) : Out :=
  .next (((s.post (resetRecord func cause)).postCopy (resetRecord func cause)).resetPartition func cause)

/-- The port finds a record corrupted (00 R4): the partition resets, and its record stands in that one's place. -/
def State.replaceRecord (s : State) (f : Nat) (r : Record) (rest : List Record) : State :=
  let n := resetRecord r.func 3
  let s1 := s.modFunc f fun y => { y with pend := { n with ring := if r.ring = 3 then 3 else 1 } :: rest }
  (if r.ring = 3 then s1.post n else s1.postCopy n).resetPartition r.func 3

/-- The reporting port writes one record. -/
def execFaultRecordWrite (s : State) : Out :=
  let s1 := s.countWaits
  let round := if s1.reportRound.isEmpty then s1.newRound else s1.reportRound
  .next (match round with
    | [] => s1
    | f :: more =>
      let s2 := { s1 with reportRound := more }
      match firstTaken (s1.func f).takes (s1.func f).pend with
      | none => s2
      | some (r, rest) => if r.corrupt then s2.replaceRecord f r rest else s2.writeRecord f r rest)

/-- 100 ms without a retired clause while work is pending (14 R334). -/
def execWatchdogHang (func : Nat) (s : State) : Out :=
  if s.pendingWork func && decide ((s.func func).retired + 100000 * Config.cyclesPerUs ≤ s.now) then execPartitionReset func 0 s
  else .next s

/-! ### Temperature (16 R362) -/

def execThermalThrottle (s : State) : Out :=
  .next ((rangeFrom 0 64).foldl (fun s f => s.modFunc f fun x => { x with status := x.status ||| 2 }) { s with overTemp := true })

def execThermalShutdown (s : State) : Out :=
  .next { s.resetSoon (fun _ => true) 5 with linkUp := false }

end Sys2Proof.Machine
end

