-- ==== Sys2Proof/Machine/Image.lean ====
section
/-! DEFINITION. Pre-emption, quiescence and the context image (14 R321 to R328, 11 R248, 13 R310). -/

namespace Sys2Proof.Machine

/-! ### The stop (14 R321, R322) -/

def OpKind.isAtomic : OpKind → Bool
  | .atom _ _ _ => true
  | .cas _ _ => true
  | _ => false
def OpKind.isRfence : OpKind → Bool
  | .rfence _ _ _ => true
  | _ => false

/-- Is an instruction in flight kept at a stop: one of an older region, an atomic, an `RFENCE`? -/
def Gang.keepsOp (g : Gang) (o : MemOp) : Bool := o.region != g.region.num || o.kind.isAtomic || o.kind.isRfence

/-- Is a lane's part of an instruction not yet under way at a stop? Its entry stands at the instruction, or parked there, and takes it
again after the restore (14 Tables 14-5, 14-6). A load of an older region that has gone on past its instruction runs to its end; the
flag store of an `RFENCE` that is still to leave is saved. -/
def OpKind.repeats (k : OpKind) (e : ElSt) : Bool :=
  match e with
  | .todo => true
  | .parked _ _ => true
  | .walking => !k.isLoad
  | .pending => !k.isLoad && !k.isRfence
  | _ => false

/-- The memory-return instructions of the current region are abandoned, and the lanes that are to take their instruction again. -/
def Gang.abandon (g : Gang) : Gang :=
  { g with ops := (g.ops.filter g.keepsOp).map fun o => o.mapElems fun e => if o.kind.repeats e.st then { e with st := .ended } else e }

/-- Requests and claims of instructions that are no longer in flight. -/
def State.dropAbandoned (s : State) (func : Nat) : State :=
  let gone (l t g id : Nat) : Bool := s.funcOf l t == func && (((s.gang? l t g).bind (·.op? id)).isNone)
  { s with cores := s.cores.map fun (c : Core) => { c with
      reqs := c.reqs.filter fun r => match r.owner with
        | .op l t g id _ => !gone l t g id
        | _ => true
      claims := c.claims.filter fun x => !(x.kind == .completion && gone x.launch x.team x.gang x.ref) } }

/-- Stop the issue of a partition. A function that has stopped already goes on stopping. -/
def State.preempt (s : State) (func : Nat) : State :=
  if (s.func func).frozen then s
  else
    let s1 := s.modFunc func fun f => { f with frozen := true, frozenAt := s.now }
    State.dropAbandoned { s1 with teams := s1.teams.map fun (t : Team) =>
      if t.func == func then { t with gangs := t.gangs.map Gang.abandon } else t } func

def execPreemption (func : Nat) (s : State) : Out := .next (s.preempt func)

/-! ### Quiescence (14 Table 14-5) -/

/-- 300 µs after the stop, requests without a response are uncertain. -/
def State.late (s : State) (func : Nat) : Bool := decide ((s.func func).frozenAt + 300 * Config.cyclesPerUs ≤ s.now)

/-- Has a request that may be saved reached its end: NACKed, not sent, or without a response for 300 µs? -/
def State.reqRests (s : State) (func core id : Nat) : Bool :=
  s.late func || ((s.core core).reqs.find? (·.id == id)).any fun r => r.retryAt.isSome || r.held

def State.elemRests (s : State) (func core : Nat) (k : OpKind) (e : Elem) : Bool :=
  match e.st with
  | .walking => false
  | .slot _ => false
  | .pending => !k.isLoad
  | .fabric id => k.isRfence && s.reqRests func core id
  | _ => true

def State.chunkRests (s : State) (func core : Nat) (c : Chunk) : Bool :=
  match c.st with
  | .walking => false
  | .running => c.phase != 2
  | .fabric id => s.reqRests func core id
  | .ack id => s.reqRests func core id
  | _ => true

def State.laneRests (s : State) (func core : Nat) (y : CpytLane) : Bool :=
  match y.st with
  | .walking => false
  | .pending => y.got == 0
  | .fabric id => s.reqRests func core id
  | _ => true

def State.gangRests (s : State) (t : Team) (g : Gang) : Bool :=
  g.stq.isEmpty && g.ops.all (fun o => o.elems.all (s.elemRests t.func t.core o.kind)) &&
  (s.core t.core).reqs.all fun r => !(r.storeOf t.launch t.num g.idx) || s.reqRests t.func t.core r.id

def State.coreRests (s : State) (func core : Nat) : Bool :=
  ((s.core core).copies.all fun x => x.chunks.all (s.chunkRests func core)) &&
  (s.core core).cpyts.all fun x => x.lanes.all (s.laneRests func core)

/-- Is the partition quiescent? -/
def State.quiescent (s : State) (func : Nat) : Bool :=
  ((s.teams.filter (·.func == func)).all fun t => t.st == .waiting || t.st == .running && t.gangs.all fun g => g.ended || s.gangRests t g) &&
  (s.cores.filter fun c => (s.func func).hasBay (bayOf c.id)).all fun c => s.coreRests func c.id

/-! ### Records (14 R324) -/

/-- Zeros to a multiple of 8. -/
def pad8 (l : List Byte) : List Byte := l ++ List.replicate ((8 - l.length % 8) % 8) 0

/-- A record: its kind, its length and its body from byte 8. -/
def imgRec (kind : Nat) (body : List Byte) : List Byte :=
  let b := pad8 body
  leBytes kind 2 ++ [0, 0] ++ leBytes (8 + b.length) 4 ++ b

/-- The header address of a launch's queue, and its slot; zero for a successor. -/
def State.queueOf (s : State) (func : Nat) (q : Option (Nat × Nat)) : Nat × Nat :=
  match q with
  | none => (0, 0)
  | some (page, slot) => (((s.queue? func page).map (·.header)).getD 0, slot)

def State.launchRec (s : State) (l : Launch) : List Byte :=
  let q := s.queueOf l.func l.queue
  imgRec 2 (leBytes l.id 8 ++ leBytes q.1 8 ++ leBytes q.2 4 ++ leBytes l.nextCluster 4 ++ leBytes l.left 4 ++ leBytes l.succ 4 ++
    leBytes l.parent 8 ++ slice l.pkt.raw 0 64)

def signerBytes (y : Signer) : List Byte := leBytes (y.gang + (if y.matrix then 128 else 0)) 1 ++ leBytes y.flag 1

def Bar.bytes (b : Bar) : List Byte :=
  if !b.set then List.replicate 24 0
  else leBytes b.m 1 ++ leBytes (maskCount b.arrived) 1 ++ leBytes b.phase 2 ++ leBytes b.arrived.toNat 4 ++ leBytes b.e 8 ++ leBytes b.b 8

def Conv.bytes (v : Conv) : List Byte :=
  leBytes v.declared 1 ++ leBytes v.signers.length 1 ++ [0, 0] ++
    leBytes (((v.signers.find? (·.matrix)).map (·.word.toNat)).getD 0) 4

/-- The baton byte of a team. -/
def batonByte (b : Baton) (l t : Nat) : Nat :=
  match b with
  | .team l' t' => if l' == l && t' == t then 0x40 else 0
  | .gang l' t' g => if l' == l && t' == t then 0x80 + g else 0
  | .free => 0

/-- 14 Table 14-8. -/
def State.teamRec (s : State) (t : Team) : List Byte :=
  imgRec 3 (leBytes t.launch 8 ++ leBytes t.num 4 ++ leBytes t.cluster 4 ++ leBytes t.tic 1 ++ leBytes t.gangs.length 1 ++
    leBytes t.lanes 1 ++ leBytes t.acc 1 ++ leBytes t.tiles 1 ++ leBytes t.wbTiles 1 ++ leBytes t.abTiles 1 ++ leBytes t.sbTiles 1 ++
    leBytes t.cur.toNat 8 ++ leBytes t.stop.toNat 8 ++ leBytes t.slist 8 ++ leBytes t.sn 1 ++
    leBytes (batonByte (s.core t.core).baton t.launch t.num) 1 ++ leBytes t.akind.toNat 1 ++ leBytes t.stopped.toNat 1 ++
    leBytes t.rollbacks 1 ++ leBytes (t.core % 8) 1 ++ [0, 0] ++ leBytes t.mscale.toNat 8 ++ leBytes t.mbase.toNat 8 ++
    leBytes t.mfmt.toNat 8 ++ t.cv.flatMap Conv.bytes ++ t.bars.flatMap Bar.bytes ++ t.inherit.flatMap (fun w => leBytes w.toNat 4) ++
    leBytes t.finfo.toNat 4 ++ leBytes t.fdetail.toNat 8 ++ t.cv.flatMap fun v => v.signers.flatMap signerBytes)

/-! ### Gang records (14 R323, R326) -/

/-- Results of instructions issued before the region that have completed or been performed enter the register map and the record. -/
def Gang.collect (g : Gang) : Gang :=
  g.ops.foldl (fun g o =>
    if o.region = g.region.num then g
    else
      match o.written g with
      | none => g
      | some g1 => g1.lateLiveIn g o) g

/-- Does a word hold a region-ending instruction at which lanes park for a replay (02 Table 2-21)? -/
def parksInRegion (w : W32) : Bool :=
  match decode32 w.toNat with
  | .ok (.atom _ _ _ _ _) => true
  | .ok (.atomr _ _ _ _ _) => true
  | .ok (.cas _ _ _ _) => true
  | .ok (.rstrel _ _ _ _) => true
  | .ok (.rstarv _ _ _ _) => true
  | .ok (.rfence _ _ _) => true
  | .ok (.cpyq _ _ _ _) => true
  | _ => false

/-- Saved state and detail of an entry (14 Table 14-6). -/
def State.savedState (s : State) (t : Team) (g : Gang) (r : RecEntry) : Nat × Nat :=
  let now := (g.frontier.find? fun e => e.pc == r.pc && e.mask == r.mask).map (·.st)
  let base (core : Nat) (b : Buf) (n : Nat) : Nat :=
    bufCode b * 256 + (n - (((s.teams.find? fun x => x.core == core && x.holdsTile b n).map (·.base b)).getD 0)) % 256
  let st := match now with
    | some (.tile c b n) => ESt.tile c b n
    | some (.polling c b n k) => ESt.polling c b n k
    | _ => r.st
  match st with
  | .parked _ _ => ((parksInRegion (s.instrAt t.core t.func r.pc).2).toNat, 0)
  | .barrier k _ => (2, k)
  | .claim uni n => (3, uni.toNat * 32768 + n)
  | .stalled (.tags m) => (4, m.toNat)
  | .reconv => (5, 0)
  | .tile c b n => (6, base c b n)
  | .polling c b n _ => (7, base c b n)
  | .stalled (.svc _) => (8, fld (s.instrAt t.core t.func r.pc).2.toNat 24 8)
  | _ => (0, 0)

def State.entryBytes (s : State) (t : Team) (g : Gang) (r : RecEntry) : List Byte :=
  let x := s.savedState t g r
  leBytes r.pc 8 ++ leBytes r.mask.toNat 4 ++ leBytes r.prio 1 ++ leBytes x.1 1 ++ leBytes x.2 2

def vregBytes (v : VReg) : List Byte :=
  leBytes v.tag.code 1 ++ leBytes (if v.form == .full then 0 else 1) 1 ++ List.replicate 6 0 ++ v.lanes.flatMap fun x => leBytes x.toNat 4

/-- Entries of the region record without the lanes that have ended. -/
def Gang.savedEntries (g : Gang) : List RecEntry :=
  (g.region.entries.map fun r => { r with mask := r.mask &&& ~~~ g.exited }).filter (·.mask != 0)

def State.gangRec (s : State) (t : Team) (g : Gang) : List Byte :=
  let r := g.region
  let es := g.savedEntries
  let maskOf_ (l : List Nat) : Nat := l.foldl (fun n k => n + 2 ^ k) 0
  imgRec 4 (leBytes g.idx 1 ++ leBytes es.length 1 ++ leBytes g.qv 1 ++ leBytes g.qs 1 ++ leBytes r.lpa.toNat 2 ++ leBytes r.lpb.toNat 2 ++
    leBytes r.step.toNat 8 ++ leBytes r.round.toNat 1 ++ leBytes r.draws.length 1 ++ List.replicate 6 0 ++
    (rangeFrom 0 8).flatMap (fun k => leBytes (g.ctags.getD k 0) 1) ++
    leBytes (maskOf_ (r.vlive.map (·.1))) 8 ++ leBytes (maskOf_ (r.slive.map (·.1))) 8 ++
    (rangeFrom 0 8).flatMap (fun k => leBytes (r.draws.getD k 0).toNat 8) ++
    (rangeFrom 1 7).flatMap (fun k => leBytes (r.preds.getD k 0).toNat 4) ++ List.replicate 4 0 ++
    (rangeFrom 0 16).flatMap (fun k => leBytes (r.tregs.getD k 0).toNat 16) ++
    es.flatMap (s.entryBytes t g) ++ r.slive.flatMap (fun x => leBytes x.2.toNat 8) ++ r.vlive.flatMap fun x => vregBytes x.2)

/-! ### Buffer and matrix records (14 R327, R328) -/

def State.bufRec (s : State) (t : Team) (b : Buf) : List Byte :=
  let n := t.tilesIn b
  let x := if t.st = .waiting then BufState.reset else (s.core t.core).buf b
  let blocks := tileSize b / 32
  if n = 0 then []
  else
    imgRec 5 (leBytes (bufCode b) 1 ++ [0] ++ leBytes n 2 ++ List.replicate 4 0 ++
      pad8 ((rangeFrom (t.base b) n).flatMap fun k => leBytes (x.presence k).word 4) ++
      (rangeFrom (t.base b) n).flatMap (fun k =>
        leBytes ((x.poison.filter fun j => j / blocks == k).foldl (fun m j => m + 2 ^ (j % blocks)) 0) (tileSize b / 256)) ++
      x.get (t.base b * tileSize b) (n * tileSize b))

def matRec (o : MatOp) (pos : Nat) : List Byte :=
  imgRec 6 (leBytes o.word.toNat 4 ++ leBytes (mmaAcc o.word) 1 ++ leBytes pos 1 ++ [0, 0] ++ leBytes o.progress 4 ++
    leBytes o.signers.length 2 ++ [0, 0] ++ leBytes o.descA.toNat 16 ++ leBytes o.descB.toNat 16 ++ leBytes o.descSA.toNat 16 ++
    leBytes o.descSB.toNat 16 ++ leBytes o.mscale.toNat 8 ++ (rangeFrom 0 128).flatMap (fun k => leBytes (o.idx.getD k 0) 2) ++
    o.signers.flatMap signerBytes)

/-- Matrix records of a team, with the places of its operations in the engine's queue. -/
def State.matRecs (s : State) (t : Team) : List (List Byte) :=
  (((s.core t.core).engine.mapIdx fun i o => (i, o)).filter fun x => x.2.launch == t.launch && x.2.team == t.num).map fun x =>
    matRec x.2 x.1

/-! ### Copy, lock and fabric records (14 Table 14-7) -/

/-- The eight descriptor words of a copy; an `MSTORE` is a copy from the accumulator's offset. -/
def Copy.saved (x : Copy) : List W64 :=
  match x.store with
  | some m => [BitVec.ofNat 64 (3 * 2 ^ 16), BitVec.ofNat 64 (m.acc * 65536), m.mbase, 0, 0, 0, m.mfmt, 0]
  | none => (rangeFrom 0 8).map fun k => x.words.getD k 0

/-- The replay entry of a chunk that is neither done nor faulted nor still to start: its code and the address of its element. -/
def State.replayOf (s : State) (core : Nat) (x : Copy) (k : Nat) (c : Chunk) : List Byte :=
  let uncertain (id : Nat) : Bool := !((s.core core).reqs.find? (·.id == id)).any fun r => r.retryAt.isSome || r.held
  let req (o i : Nat) : Option PageReq := s.pageReqs.find? fun p => p.owner == o && p.id == i
  let d := cdescOf x.words
  let va := match x.store with
    | some m => (m.mbase.toNat + m.pitch * (c.next / max 1 m.cols) + m.size * (c.next % max 1 m.cols)) % 2 ^ 64
    | none =>
      if c.phase = 0 then d.rowAt c.next
      else if c.phase = 2 then (d.dstAt c.next % (2 ^ 64 : Nat)).toNat
      else (d.srcAt c.next c.row % (2 ^ 64 : Nat)).toNat
  let line (code a : Nat) : List Byte := leBytes k 1 ++ leBytes code 1 ++ List.replicate 6 0 ++ leBytes c.next 8 ++ leBytes a 8
  match c.st with
  | .done => []
  | .fault => []
  | .idle => []
  | .parked o i => line (((req o i).map fun p => codeByte p.code).getD 4) (((req o i).map (·.addr)).getD va)
  | .fabric id => line (if uncertain id then 0x0D else 4) va
  | .ack id => line (if uncertain id then 0x0D else 4) va
  | _ => line 4 va

def State.copyRec (s : State) (core : Nat) (x : Copy) : List Byte :=
  let ended (k : Nat) : Bool := (x.chunk k).st == .done || (x.chunk k).st == .fault
  let rs := (rangeFrom 0 64).flatMap fun k => s.replayOf core x k (x.chunk k)
  let q := match x.owner with
    | .gang _ _ g => ((g, 0, 0, 0) : Nat × Nat × Nat × Nat)
    | .queue f page idx _ => (0, 4, (s.queueOf f (some (page, idx))).1, idx)
  imgRec 7 (x.saved.flatMap (fun w => leBytes w.toNat 8) ++
    leBytes ((rangeFrom 0 64).foldl (fun n k => if ended k then n + 2 ^ k else n) 0) 8 ++ leBytes q.1 1 ++ leBytes x.bar 1 ++
    leBytes x.flag 1 ++ leBytes (x.ord.toNat + (if x.store.isSome then 2 else 0) + q.2.1) 1 ++ leBytes (rs.length / 24) 2 ++ [0, 0] ++
    leBytes q.2.2.1 8 ++ leBytes q.2.2.2 4 ++ List.replicate 4 0 ++ rs)

def cpytRec (x : Cpyt) : List Byte :=
  let live (i : Nat) : Option CpytLane := x.lanes.find? fun y => y.lane == i && y.st != .done && y.st != .ended
  let lane (i : Nat) : List Byte := match live i with
    | some y => leBytes y.off 4 ++ leBytes y.valid 4 ++ leBytes y.va 8
    | none => List.replicate 16 0
  imgRec 8 (leBytes x.gang 1 ++ leBytes x.tag 1 ++ leBytes x.flag 1 ++ [0] ++
    leBytes (maskOf (lanes32.filter fun i => (live i).isSome)).toNat 4 ++
    lanes32.flatMap lane)

def lockRec (k : Lock) (gang : Nat) : List Byte :=
  imgRec 9 (leBytes gang 1 ++ leBytes k.dest.toNat 1 ++ [0, 0] ++ leBytes k.cookie.toNat 4 ++ leBytes k.lo 8 ++ leBytes k.hi 8)

/-- Kind of a saved request. -/
def reqKind : PktKind → Option Nat
  | .store => some 0
  | .strel => some 0
  | .rstrel => some 1
  | .rstarv => some 2
  | .rfence => some 3
  | .atomr => some 4
  | _ => none

/-- A saved request: op in bits 2..0, scope in bits 5..3 and the class of the data in bits 7..6 of an `ATOMR`. -/
def reqBytes (r : FabReq) : List Byte :=
  let p := r.pkt
  let x := if p.kind == .atomr then p.op % 8 + p.scope % 8 * 8 + p.rtype % 4 * 64 else 0
  leBytes ((reqKind p.kind).getD 0) 1 ++ leBytes (if r.retryAt.isSome || r.held then 0 else 1) 1 ++ leBytes p.size 1 ++ leBytes x 1 ++
    List.replicate 4 0 ++ leBytes p.gpa 8 ++ leBytes p.data.toNat 16 ++ List.replicate 8 0

/-- A stream of a gang with its requests. One whose `RSTREL` is not performed is saved at that instruction's segment and count. -/
def State.streamRec (s : State) (t : Team) (g : Gang) (x : Stream) : List Byte :=
  let rs := (s.core t.core).reqs.filter fun r =>
    r.storeOf t.launch t.num g.idx && (reqKind r.pkt.kind).isSome && r.pkt.dst == x.dev && r.pkt.func == x.func
  let rel := rs.find? fun r => r.pkt.kind == .rstrel
  let sent := (rel.map (·.pkt.count)).getD x.sent
  let seg := (rel.map (·.pkt.seg)).getD x.seg
  imgRec 10 (leBytes g.idx 1 ++ leBytes x.func 1 ++ leBytes x.vdn 2 ++ leBytes sent 4 ++ leBytes seg 1 ++ leBytes (min 255 rs.length) 1 ++
    List.replicate 6 0 ++ (rs.take 255).flatMap reqBytes)

/-- An `RFENCE` whose flag store has not been sent yet is saved as a request not performed. -/
def State.rfenceRecs (s : State) (t : Team) (g : Gang) : List (List Byte) :=
  (g.ops.filter fun o => o.kind.isRfence && !(g.frontier.any fun e => e.resume == .op o.id)).flatMap fun o =>
    (o.elems.filter (·.st == .pending)).filterMap fun e =>
      match o.kind, e.tgt? with
      | .rfence n _ f, some (.peer v gpa) =>
        let d := match s.resolve t.func v with
          | .ok d => d.dev
          | .error _ => 0
        let x := g.stream d f
        some (imgRec 10 (leBytes g.idx 1 ++ leBytes f 1 ++ leBytes v 2 ++ leBytes x.sent 4 ++ leBytes x.seg 1 ++ leBytes 1 1 ++
          List.replicate 6 0 ++ leBytes 3 2 ++ leBytes n 1 ++ List.replicate 5 0 ++ leBytes gpa 8 ++ leBytes e.src.toNat 16 ++
          List.replicate 8 0))
      | _, _ => none

/-! ### The image (14 R324) -/

/-- What follows a team record. -/
def State.partRecs (s : State) (t : Team) : List (List Byte) :=
  let c := s.core t.core
  let gs := (t.gangs.filter (!·.ended)).map Gang.collect
  let mine (x : Copy) : Option Nat := match x.owner with
    | .gang l n g => if l == t.launch && n == t.num then some g else none
    | .queue _ _ _ _ => none
  gs.map (s.gangRec t) ++ ([Buf.wb, Buf.ab, Buf.cb, Buf.sb].map (s.bufRec t)).filter (!·.isEmpty) ++ s.matRecs t ++
  (c.copies.filter fun x => (mine x).isSome).map (s.copyRec t.core) ++
  (c.cpyts.filter fun x => x.launch == t.launch && x.team == t.num).map cpytRec ++
  (c.locks.filterMap fun k => if k.cpyt then none
    else ((c.copies.find? (·.id == k.copy)).bind mine).map fun g => lockRec k g) ++
  gs.flatMap fun g => g.streams.map (s.streamRec t g) ++ s.rfenceRecs t g

/-- Launches that the image holds: those with a cluster placed, and successors. -/
def State.savedLaunches (s : State) (func : Nat) : List Launch :=
  s.launches.filter fun l => l.func == func && (l.nextCluster != 0 || l.queue.isNone)

/-- Copies of queue packets on the partition's cores. -/
def State.queueCopies (s : State) (func : Nat) : List (Nat × Copy) :=
  s.cores.flatMap fun c => (c.copies.filter fun x => match x.owner with
    | .queue f _ _ _ => f == func
    | .gang _ _ _ => false).map fun x => (c.id, x)

def State.imageRecs (s : State) (func : Nat) : List (List Byte) :=
  (s.savedLaunches func).flatMap (fun l =>
    [s.launchRec l] ++ (s.teams.filter (·.launch == l.id)).flatMap fun t => [s.teamRec t] ++ s.partRecs t) ++
  (s.queueCopies func).map fun x => s.copyRec x.1 x.2

/-- The setting of reflection checking that an image saves: that of its launches, which CONFIG may since have left behind (10 R214). The
header has one bit; it is the oldest launch's (log 84). -/
def State.savedCheck (s : State) (func : Nat) : Bool :=
  (((s.savedLaunches func).head?).map (·.check)).getD (!(s.func func).cfg.nochk || (s.func func).fixedOrder)

/-- The image of a quiescent partition. -/
def State.imageOf (s : State) (func : Nat) : List Byte :=
  let f := s.func func
  let rs := s.imageRecs func
  let len := 64 + rs.foldl (fun n r => n + r.length) 0
  imgRec 1 (leBytes 1 2 ++ leBytes func 1 ++ leBytes (s.savedCheck func).toNat 1 ++ leBytes (rs.length + 1) 4 ++ leBytes len 8 ++
    leBytes f.vfstatus.toNat 4 ++ List.replicate 36 0) ++ rs.flatten

/-! ### What the stop leaves behind -/

/-- Every line of the partition's core caches is written back and leaves them (15 Table 15-1). -/
def State.flushCores (s : State) (func : Nat) : State :=
  let ids := (s.cores.filter fun c => (s.func func).hasBay (bayOf c.id)).map (·.id)
  ids.foldl (fun s k => ((s.core k).cache.map (·.addr)).foldl (fun s a => s.evict k a) s) s

/-- Page requests are not carried (14 R329): those of a function go, but for what its queues wait for. -/
def State.dropPageReqs (s : State) (func : Nat) : State :=
  let queues (p : PageReq) : List Sharer := p.sharers.filter fun x => match x.who with
    | .queue _ _ => true
    | _ => false
  { s with pageReqs := (s.pageReqs.map fun p => if p.func == func then { p with sharers := queues p } else p).filter fun p =>
      p.func != func || !p.sharers.isEmpty }

/-- The saved teams, launches and copies leave the partition. Its queues keep their packets. -/
def State.vacate (s : State) (func : Nat) : State :=
  let saved := (s.savedLaunches func).map (·.id)
  let s1 := (s.teams.filter (·.func == func)).foldl (fun s t => s.pullTeam t) (s.dropPageReqs func)
  let mine (x : Copy) : Bool := match x.owner with
    | .queue f _ _ _ => f == func
    | .gang _ _ _ => false
  { s1 with launches := s1.launches.filter fun l => !saved.contains l.id
            cores := s1.cores.map fun (c : Core) =>
              let gone := (c.copies.filter mine).map (·.id)
              { c with copies := c.copies.filter (!mine ·), locks := c.locks.filter fun k => k.cpyt || !gone.contains k.copy } }

/-- The partition is quiescent: the image is taken and the partition given up. -/
def State.takeImage (s : State) (func : Nat) : List Byte × State :=
  let s1 := s.flushCores func
  (s1.imageOf func, s1.vacate func)

/-- Quiescence of a partition that a slice end stopped (14 R321): a migration or a checkpoint takes its image in its own steps. -/
def execQuiescenceReached (func : Nat) (s : State) : Out :=
  let f := s.func func
  .next (if !f.frozen || f.image.isSome || f.migration.isSome || f.checkpoint.any (fun k => k.firstStop.isSome) || !s.quiescent func then s
    else
      let (img, s1) := s.takeImage func
      s1.modFunc func fun f => { f with image := some img })

end Sys2Proof.Machine
end

