-- ==== Sys2Proof/Machine/Restore.lean ====
section
/-! DEFINITION. The restore of a context image: its check, placement, and the state it writes (14 R324 to R329, 13 R298). -/

namespace Sys2Proof.Machine

/-! ### The check of an image (14 R329) -/

/-- The records of an image; none when a length does not fit. -/
def splitRecs : Nat → List Byte → Option (List (List Byte))
  | 0, _ => none
  | n + 1, b =>
    if b.isEmpty then some []
    else
      let len := leField b 4 4
      if !zeroBytes b 2 2 || decide (len < 8) || len % 8 != 0 || decide (b.length < len) then none
      else (splitRecs n (b.drop len)).map (b.take len :: ·)
def imageParts (img : List Byte) : Option (List (List Byte)) := splitRecs (img.length / 8 + 1) img

def recKind (r : List Byte) : Nat := leField r 0 2
def up8 (n : Nat) : Nat := (n + 7) / 8 * 8
/-- Are the bytes from `n` to the end of a record zero? -/
def tailZero (r : List Byte) (n : Nat) : Bool := (r.drop n).all (· == 0)
/-- Consecutive groups of `n` bytes. -/
def chunksBy (n : Nat) : Nat → List Byte → List (List Byte)
  | 0, _ => []
  | k + 1, b => if b.isEmpty then [] else b.take n :: chunksBy n k (b.drop n)

/-- The signatures of a team record, register by register. -/
def sigCounts (r : List Byte) : List Nat := (rangeFrom 0 8).map fun k => leField r (88 + 8 * k + 1) 1

/-- Bytes of a buffer record's presence words. -/
def presLen (n : Nat) : Nat := up8 (4 * n)

/-- A record's reserved bytes are zero and its length agrees with its counts. -/
def recOk (total count : Nat) (r : List Byte) : Bool :=
  let f (o n : Nat) : Nat := leField r o n
  match recKind r with
  | 1 => r.length == 64 && f 8 2 == 1 && decide (f 11 1 ≤ 1) && f 12 4 == count && f 16 8 == total && zeroBytes r 28 36
  | 2 => r.length == 112
  | 3 =>
    let n := (sigCounts r).foldl (· + ·) 0
    r.length == up8 (568 + 2 * n) && decide (f 59 1 ≤ 1) && zeroBytes r 62 2 &&
    ((rangeFrom 0 8).all fun k => zeroBytes r (90 + 8 * k) 2) &&
    ((rangeFrom 0 n).all fun k => f (568 + 2 * k) 1 / 32 % 4 == 0) && tailZero r (568 + 2 * n)
  | 4 =>
    let v := popcount (f 40 8) 64
    let u := popcount (f 48 8) 64
    let e := f 9 1
    r.length == 408 + 16 * e + 8 * u + 136 * v && decide (e ≤ 32) && decide (f 25 1 ≤ 8) && zeroBytes r 26 6 && zeroBytes r 148 4 &&
    ((rangeFrom 0 v).all fun k => zeroBytes r (408 + 16 * e + 8 * u + 136 * k + 2) 6)
  | 5 =>
    let n := f 10 2
    let b := bufOf (f 8 1)
    decide (f 8 1 ≤ 3) && zeroBytes r 9 1 && zeroBytes r 12 4 &&
    r.length == up8 (16 + presLen n + n * (tileSize b / 256) + n * tileSize b) &&
    ((rangeFrom 0 n).all fun k => decide (f (16 + 4 * k) 4 < 2 ^ 31)) && zeroBytes r (16 + 4 * n) (presLen n - 4 * n)
  | 6 =>
    let n := f 20 2
    r.length == up8 (352 + 2 * n) && zeroBytes r 14 2 && zeroBytes r 22 2 && tailZero r (352 + 2 * n)
  | 7 =>
    let n := f 84 2
    r.length == 104 + 24 * n && zeroBytes r 86 2 && zeroBytes r 100 4 && decide (f 83 1 ≤ 7) &&
    ((rangeFrom 0 n).all fun k => zeroBytes r (104 + 24 * k + 2) 6)
  | 8 => r.length == 528 && zeroBytes r 11 1
  | 9 => r.length == 32 && zeroBytes r 10 2
  | 10 =>
    let n := f 17 1
    r.length == 24 + 40 * n && zeroBytes r 18 6 &&
    ((rangeFrom 0 n).all fun k => zeroBytes r (24 + 40 * k + 4) 4 && zeroBytes r (24 + 40 * k + 32) 8)
  | _ => false

/-- Queue of a function bound at a header address. -/
def State.queueAt (s : State) (func header : Nat) : Option Queue := (s.func func).queues.find? (·.header == header)

/-- The records of an image that may be restored for a function; none for a refused image. -/
def State.checkedImage (s : State) (func : Nat) (img : List Byte) : Option (List (List Byte)) :=
  match imageParts img with
  | none => none
  | some rs =>
    let header := match rs with
      | r :: _ => recKind r == 1
      | [] => false
    let bound := rs.all fun r => recKind r != 2 || leField r 16 8 == 0 || (s.queueAt func (leField r 16 8)).isSome
    if header && bound && rs.all (recOk img.length rs.length) then some rs else none

/-! ### Parts of an image -/

/-- A team's records: its own, then those that follow it. -/
structure TeamPart where
  team : List Byte
  parts : List (List Byte)
deriving DecidableEq, Repr

/-- Gather the records of each team. A queue packet's copy belongs to none. -/
def teamParts (rs : List (List Byte)) : List TeamPart :=
  rs.foldl (fun acc r =>
    match recKind r with
    | 1 => acc
    | 2 => acc
    | 3 => acc ++ [⟨r, []⟩]
    | _ => if recKind r == 7 && leField r 83 1 / 4 == 1 then acc
      else
        match acc.reverse with
        | [] => acc
        | p :: before => before.reverse ++ [{ p with parts := p.parts ++ [r] }]) []

def TeamPart.launch (p : TeamPart) : Nat := leField p.team 8 8
def TeamPart.num (p : TeamPart) : Nat := leField p.team 16 4
def TeamPart.cluster (p : TeamPart) : Nat := leField p.team 20 4
def TeamPart.corek (p : TeamPart) : Nat := leField p.team 61 1 % 8
def TeamPart.of (p : TeamPart) (kind : Nat) : List (List Byte) := p.parts.filter (recKind · == kind)

/-! ### Flag fields of a restored entry (02 R18, R20) -/

/-- Does code that begins with the clause header at `a` run without another header up to `pc`? -/
def State.clauseReaches (s : State) (core func : Nat) : Nat → Nat → Nat → Bool
  | 0, _, _ => false
  | n + 1, a, pc =>
    if a = pc then true
    else if pc < a || s.headerAt core func a then false
    else
      match s.peek core func a with
      | some h => s.clauseReaches core func n (if h.toNat % 2 = 0 then a + 2 else a + 4) pc
      | none => false

/-- setA and setB of the clause that an address stands in: of the nearest header from which code runs up to it. An address at a
header has none yet. -/
def State.clauseSets (s : State) (core func pc : Nat) : Nat × Nat :=
  if s.headerAt core func pc then (16, 16)
  else
    match (rangeFrom 2 2048).find? fun k =>
        decide (2 * k ≤ pc) && s.headerAt core func (pc - 2 * k) && s.clauseReaches core func (k + 1) (pc - 2 * k + 4) pc with
    | none => (15, 15)
    | some k =>
      let hi := ((s.peek core func (pc - 2 * k + 2)).getD 0).toNat
      (fld hi 0 4, fld hi 4 4)

/-! ### Gangs (13 R298, 14 R326) -/

/-- Registers of a mask, in order. -/
def maskRegs (m : Nat) : List Nat := regs64.filter m.testBit

def vregOf (b : List Byte) : VReg :=
  ⟨(rangeFrom 0 32).map fun k => BitVec.ofNat 32 (leField b (8 + 4 * k) 4), tagOf (leField b 0 1),
   if leField b 1 1 = 0 then .full else .uni⟩

/-- An entry of a gang record. One that had arrived at a barrier waits there again for its phase, and goes on where that phase has
completed (13 R302). -/
def State.restEntry (s : State) (func : Nat) (bars : List Bar) (gi eid : Nat) (b : List Byte) : Entry :=
  let pc := leField b 0 8
  let detail := leField b 14 2
  let sets := s.clauseSets schedulerCore func pc
  let (st, res, prog) : ESt × Resume × Nat := match leField b 13 1 with
    | 2 =>
      let x := bars.getD detail .none_
      if x.arrived.getLsbD gi then (.barrier detail x.phase, .progress, x.phase + 1) else (.ready, .progress, x.phase)
    | 4 => (.stalled (.tags (BitVec.ofNat 8 detail)), .progress, 0)
    | 5 => (.reconv, .none, 0)
    | _ => (.ready, .none, 0)
  { eid := eid, prio := leField b 12 1, pc := pc, mask := BitVec.ofNat 32 (leField b 8 4), age := 0, promoted := none, yielded := []
    setA := sets.1, setB := sets.2, resume := res, progress := prog, since := 0, st := st }

/-- A barrier of a team record. Its phases go on from the saved number, kept above zero so that one before it has a number. -/
def barOf (b : List Byte) : Bar :=
  let m := leField b 0 1
  if m = 0 then .none_
  else ⟨true, m, leField b 8 8, BitVec.ofNat 32 (leField b 4 4), leField b 16 8, leField b 8 8 != leField b 16 8, 65536 + leField b 2 2, 0⟩

/-- A gang that had ended before the image was taken. -/
def Gang.gone (idx : Nat) : Gang :=
  let g := Gang.start idx 0 0 0 0 0 0
  { g with ended := true, smap := List.replicate 64 none, qs := 0, frontier := []
           region := { g.region with entries := [], vlive := [], slive := [] } }

def State.restGang (s : State) (func : Nat) (bars : List Bar) (eid0 : Nat) (r : List Byte) : Gang :=
  let f (o n : Nat) : Nat := leField r o n
  let e := f 9 1
  let gi := f 8 1
  let us := maskRegs (f 48 8)
  let vs := maskRegs (f 40 8)
  let at1 := 408 + 16 * e
  let at2 := at1 + 8 * us.length
  let slive : List (Nat × W64) := us.mapIdx fun i k => (k, BitVec.ofNat 64 (f (at1 + 8 * i) 8))
  let vlive : List (Nat × VReg) := vs.mapIdx fun i k => (k, vregOf ((r.drop (at2 + 136 * i)).take 136))
  let es := (rangeFrom 0 e).map fun i => s.restEntry func bars gi (eid0 + i) ((r.drop (408 + 16 * i)).take 16)
  let draws : List W64 := (rangeFrom 0 (f 25 1)).map fun i => BitVec.ofNat 64 (f (56 + 8 * i) 8)
  let preds : List Mask := 0 :: (rangeFrom 0 7).map fun i => BitVec.ofNat 32 (f (120 + 4 * i) 4)
  let tregs : List (BitVec 128) := (rangeFrom 0 16).map fun i => BitVec.ofNat 128 (f (152 + 16 * i) 16)
  let ph := bars.map fun b => if b.arrived.getLsbD gi then some b.phase else none
  let reg : Region := ⟨1, es.map Entry.record, BitVec.ofNat 64 (f 40 8), BitVec.ofNat 64 (f 48 8), vlive, slive, 0, 0, preds, tregs, BitVec.ofNat 16 (f 12 2), BitVec.ofNat 16 (f 14 2),
    BitVec.ofNat 2 (f 24 1), BitVec.ofNat 64 (f 16 8), draws⟩
  { Gang.gone gi with
    ended := false
    vmap := regs64.map fun k => (vlive.find? (·.1 == k)).map (·.2)
    smap := regs64.map fun k => (slive.find? (·.1 == k)).map (·.2)
    preds := preds
    tregs := tregs
    lpa := reg.lpa
    lpb := reg.lpb
    round := reg.round
    step := reg.step
    ctags := (rangeFrom 0 8).map fun i => f (32 + i) 1
    qv := f 10 1
    qs := f 11 1
    frontier := es
    region := reg
    replay := draws
    barPhase := ph }

/-! ### Teams (14 R325) -/

def signerOf (w : W32) (b : List Byte) : Signer :=
  let m := leField b 0 1
  ⟨m % 32, leField b 1 1, decide (128 ≤ m), if 128 ≤ m then w else 0, 0⟩

/-- The convergence registers. The captured registers of an operation not yet issued are those of its last matrix signer. -/
def convsOf (r : List Byte) (gs : List Gang) : List Conv :=
  ((rangeFrom 0 8).foldl (fun (acc : Nat × List Conv) k =>
    let n := leField r (88 + 8 * k + 1) 1
    let w := BitVec.ofNat 32 (leField r (88 + 8 * k + 4) 4)
    let ys := (rangeFrom acc.1 n).map fun i => signerOf w ((r.drop (568 + 2 * i)).take 2)
    let cap := (ys.reverse.find? (·.matrix)).bind fun y => (gs.find? (·.idx == y.gang)).map fun g => g.capture w
    (acc.1 + n, acc.2 ++ [⟨leField r (88 + 8 * k) 1, ys, cap⟩])) (0, [])).2

/-- A team from its records, on no core yet. -/
def State.restTeam (s : State) (func : Nat) (check : Bool) (pkt : LaunchPkt) (p : TeamPart) (eid0 : Nat) : Team :=
  let r := p.team
  let f (o n : Nat) : Nat := leField r o n
  let bars0 := (rangeFrom 0 16).map fun k => barOf ((r.drop (152 + 24 * k)).take 24)
  let recs := p.of 4
  let gs := (rangeFrom 0 (f 25 1)).map fun i =>
    match recs.find? fun x => leField x 8 1 == i with
    | some x => s.restGang func bars0 (eid0 + 32 * i) x
    | none => Gang.gone i
  let endedMask : Mask := maskOf ((gs.filter (·.ended)).map (·.idx))
  let range := pkt.range
  { launch := f 8 8, num := f 16 4, func := func, cluster := f 20 4, tic := f 24 1, coords := pkt.coords (f 16 4), core := 0, st := .running
    stopped := f 59 1 == 1, gangs := gs, lanes := f 26 1, acc := f 27 1, tiles := f 28 1, wbBase := 0, wbTiles := f 29 1, abBase := 0
    abTiles := f 30 1, sbBase := 0, sbTiles := f 31 1, accBase := 0, akind := BitVec.ofNat 8 (f 58 1), range := range
    start := BitVec.ofNat 64 (f 32 8), cur := BitVec.ofNat 64 (f 32 8), stop := BitVec.ofNat 64 (f 40 8), slist := f 48 8, sn := f 56 1
    faulted := false, rollbacks := f 60 1, committed := true, wroteOut := false, fedFromOut := false, inPlace := false, didSvc := false
    mscale := BitVec.ofNat 64 (f 64 8), mbase := BitVec.ofNat 64 (f 72 8), mfmt := BitVec.ofNat 64 (f 80 8), cv := convsOf r gs
    bars := bars0.map fun b => { b with lower := maskCount (b.arrived &&& endedMask) }
    inherit := (rangeFrom 0 5).map fun k => BitVec.ofNat 32 (f (536 + 4 * k) 4), finfo := BitVec.ofNat 32 (f 556 4)
    fdetail := BitVec.ofNat 64 (f 560 8), check := check }

/-! ### Placement (14 R329, step 1) -/

/-- First tiles of a restored team on a core that can take it. -/
def State.restFits (s : State) (core : Nat) (t : Team) (baton : Bool) : Option (Nat × Nat × Nat × Nat) :=
  let ts := s.teams.filter fun x => x.core == core && x.st != .waiting
  let k := s.core core
  let used (b : Buf) : List (Nat × Nat) := ts.map fun x => (x.base b, x.tilesIn b)
  let slots := (rangeFrom 0 4).all fun q =>
    decide ((ts.map fun x => slotsIn x.gangs.length q).foldl (· + ·) (slotsIn t.gangs.length q) ≤ 256)
  if k.outOfUse || !slots || decide (k.poolV < t.takenV) || decide (k.poolS < t.takenS) || (baton && k.baton != .free) then none
  else
    match lowestRun (used .wb) t.wbTiles 192, lowestRun (used .ab) t.abTiles 192, lowestRun (used .sb) t.sbTiles 16,
          lowestRun (used .cb) t.acc 8 with
    | some a, some b, some c, some d => some (a, b, c, d)
    | _, _, _, _ => none

/-- A team takes its place: its registers and tiles, and the baton it held. -/
def State.seat (s : State) (core : Nat) (t : Team) (baton : Nat) : Option State :=
  (s.restFits core t (baton != 0)).map fun x =>
    (s.addTeam { t with core := core, wbBase := x.1, abBase := x.2.1, sbBase := x.2.2.1, accBase := x.2.2.2 }).modCore core fun c =>
      if baton = 0x40 then { c with baton := .team t.launch t.num }
      else if 0x80 ≤ baton then { c with baton := .gang t.launch t.num (baton - 0x80) } else c

/-- The teams of a cluster on one bay, each on its core number. -/
def State.seatAll (s : State) (bay : Nat) : List (Team × TeamPart) → Option State
  | [] => some s
  | (t, p) :: rest => (s.seat (8 * bay + p.corek) t (leField p.team 57 1)).bind fun s1 => s1.seatAll bay rest

/-- Place the clusters in turn; `bays` names a bay for each, else the first that fits is taken. -/
def State.seatClusters (s : State) (func : Nat) : List (List (Team × TeamPart)) → List Nat → Option State
  | [], _ => some s
  | c :: rest, bays =>
    let own := (bays.head?).toList.filter (s.func func).hasBay
    match (own ++ (s.func func).bayList).findSome? fun b => s.seatAll b c with
    | none => none
    | some s1 => s1.seatClusters func rest bays.tail

/-- Teams with the same launch and cluster, in order. -/
def clustersOf (l : List (Team × TeamPart)) : List (List (Team × TeamPart)) :=
  l.foldl (fun acc x =>
    let mine (c : List (Team × TeamPart)) : Bool := (c.head?).any fun y => y.1.launch == x.1.launch && y.1.cluster == x.1.cluster
    if acc.any mine then modIf mine (· ++ [x]) acc else acc ++ [[x]]) []

/-! ### Launches and queues -/

/-- Add the launch of a record; a successor's root is its parent's. -/
def State.restLaunch (s : State) (func : Nat) (check : Bool) (teams : List TeamPart) (r : List Byte) : State :=
  let f (o n : Nat) : Nat := leField r o n
  let id := f 8 8
  let q := if f 16 8 = 0 then none else (s.queueAt func (f 16 8)).map fun q => (q.page, f 24 4)
  let parent := f 40 8
  let root := match q with
    | some x => some x
    | none => (s.launch? parent).bind (·.root)
  let pkt := launchOf (slice r 48 64)
  let nums := (teams.filter fun p => p.launch == id).map fun p => p.num + 1
  let l : Launch := ⟨id, func, q, root, f 16 8, parent, pkt, f 28 4, nums.foldl max (f 28 4 * pkt.teams), f 32 4, f 36 4, s.stamp, check⟩
  let s1 := { s with launches := (s.launches.filter (·.id != id)) ++ [l] }
  match q with
  | none => s1
  | some (page, slot) => s1.modQueue func page fun q =>
      { q with running := putBy (·.slot == slot) ⟨slot, 1, slice r 48 64, false, none⟩ q.running }

/-- The oldest of some slots of one queue, whose numbers go on modulo 2^32. -/
def oldestSlot (l : List Nat) : Option Nat := l.find? fun a => l.all fun b => decide ((b + 2 ^ 32 - a) % 2 ^ 32 < 2 ^ 31)

/-- The replay index of each queue is the slot of its oldest restored launch. -/
def State.restReplay (s : State) (func : Nat) (rs : List (List Byte)) : State :=
  let ls := rs.filter fun r => recKind r == 2 && leField r 16 8 != 0
  ls.foldl (fun s r =>
    let h := leField r 16 8
    match s.queueAt func h, oldestSlot ((ls.filter fun x => leField x 16 8 == h).map fun x => leField x 24 4) with
    | some q, some n => s.modQueue func q.page fun q => { q with replay := n }
    | _, _ => s) s

/-! ### Buffers, matrix operations, copies (step 2 and 4) -/

def presenceOf (w : Nat) : Presence := ⟨w.testBit 28, w.testBit 29, w.testBit 30, fld w 0 20, fld w 20 8⟩

def State.restBuf (s : State) (t : Team) (r : List Byte) : State :=
  let b := bufOf (leField r 8 1)
  let n := leField r 10 2
  let blocks := tileSize b / 32
  let masks := r.drop (16 + presLen n)
  let bytes := (masks.drop (n * (tileSize b / 256))).take (n * tileSize b)
  let base := t.base b
  s.modBuf t.core b fun x =>
    let x1 := x.put (base * tileSize b) bytes false
    let x2 := (rangeFrom 0 n).foldl (fun x k => x.setPresence (base + k) (presenceOf (leField r (16 + 4 * k) 4))) x1
    let mask (k : Nat) : Nat := leField masks (k * (tileSize b / 256)) (tileSize b / 256)
    let marks := (rangeFrom 0 n).flatMap fun k => ((rangeFrom 0 blocks).filter (mask k).testBit).map fun j => (base + k) * blocks + j
    { x2 with poison := marks.foldl (fun p j => insertNat j p) x2.poison }

/-- A matrix operation with its place in its queue. -/
def matOf (t : Team) (id : Nat) (r : List Byte) : MatOp :=
  let w := BitVec.ofNat 32 (leField r 8 4)
  let d (o : Nat) : BitVec 128 := BitVec.ofNat 128 (leField r o 16)
  let ys := (rangeFrom 0 (leField r 20 2)).map fun i => signerOf w ((r.drop (352 + 2 * i)).take 2)
  let idx := (rangeFrom 0 128).map fun i => leField r (96 + 2 * i) 2
  ⟨id, t.launch, t.num, w, ((ys.reverse.find? (·.matrix)).map (·.gang)).getD 0, d 24, d 40, d 56, d 72,
   if mmaGather w then idx else [], BitVec.ofNat 64 (leField r 88 8), ys, leField r 16 4, false, false, none⟩

/-- Requeue the operations of all teams in their original order (11 R248), which is that of their places in their queues; each counts
up the flags of its signers. -/
def State.restMats (s : State) (parts : List TeamPart) : State :=
  let all := parts.flatMap fun p => (p.of 6).map fun r => (p, r)
  let sorted := (rangeFrom 0 16).flatMap fun k => all.filter fun x => leField x.2 13 1 == k
  sorted.foldl (fun s x =>
    match s.team? x.1.launch x.1.num with
    | none => s
    | some t =>
      let (id, s1) := s.take
      let o := matOf t id x.2
      let s2 := s1.modCore t.core fun c => { c with engine := c.engine ++ [o] }
      o.signers.foldl (fun s y => s.modGang t.launch t.num y.gang (·.flagUp y.flag)) s2) s

/-- The chunks of a restored copy. -/
def restChunks (n phase : Nat) (r : List Byte) : List Chunk :=
  let bm := leField r 72 8
  let es := (rangeFrom 0 (leField r 84 2)).map fun i => (r.drop (104 + 24 * i)).take 24
  (chunksOf n phase).mapIdx fun k c =>
    if bm.testBit k then { c with st := .done }
    else
      match es.find? fun e => leField e 0 1 == k with
      | some e => { c with next := leField e 8 8, st := .running }
      | none => c

/-- Detail of the FABRIC_TIMEOUT of a request that was left uncertain (05 Table 5-2a). -/
def State.lostDetail (s : State) (func va : Nat) (need : Need) : Nat :=
  match (s.translate func (gvaOf (BitVec.ofNat 64 va)) need .copy).1 with
  | .ok ⟨_, .peer v gpa, _, _⟩ =>
    (match s.resolve func v with
     | .ok d => 15 * 2 ^ 60 + d.dev * 2 ^ 52 + gpa % 2 ^ 52
     | .error _ => 15 * 2 ^ 60 + gpa % 2 ^ 52)
  | _ => 15 * 2 ^ 60

/-- Had the copy of a record begun to read: does any chunk stand beyond its start? -/
def copyBegun (r : List Byte) : Bool := leField r 72 8 != 0 || leField r 84 2 != 0

/-- Range-lock entries of the copy of a record, as its descriptor gives them (06 R136). -/
def copyLocks (func : Nat) (r : List Byte) : List Lock :=
  let ws : List W64 := (rangeFrom 0 8).map fun k => BitVec.ofNat 64 (leField r (8 + 8 * k) 8)
  let d := cdescOf ws
  if (leField r 83 1).testBit 1 then MStore.locks ⟨d.src / 65536, ws.getD 2 0, ws.getD 6 0, []⟩ 0 func else d.locks 0 func

/-- Give each wanted lock the interval of the first lock record of the gang for its side and cookie; a copy without such a record holds
no lock there. What is left of the records goes to the copies that follow. -/
def takeLocks (gang : Nat) : List Lock → List (List Byte) → List Lock × List (List Byte)
  | [], rs => ([], rs)
  | k :: rest, rs =>
    let mine (r : List Byte) : Bool := leField r 8 1 == gang && leField r 9 1 == k.dest.toNat && leField r 12 4 == k.cookie.toNat
    match rs.find? mine with
    | none => takeLocks gang rest rs
    | some r =>
      let x := takeLocks gang rest (rs.eraseP mine)
      let lo := leField r 16 8
      let hi := leField r 24 8
      ({ k with lo := lo, hi := if hi ≤ lo then hi + 2 ^ 64 else hi } :: x.1, x.2)

/-- The copies of a team with their range locks, from its copy and lock records, which stand in one order. -/
def pairLocks (func : Nat) : List (List Byte) → List (List Byte) → List (List Byte × List Lock)
  | [], _ => []
  | r :: rest, ls =>
    let x := takeLocks (leField r 80 1) (copyLocks func r) ls
    (r, x.1) :: pairLocks func rest x.2

/-- Restore a copy on a core: it goes on at its replay entries, and uncertain elements end in FABRIC_TIMEOUT. An `MSTORE` that has not
begun to read waits for the operations that are restored before it (log 86). -/
def State.restCopy (s : State) (core func : Nat) (owner : CopyOwner) (mask : Mask) (r : List Byte) (locks : List Lock) : State :=
  let ws : List W64 := (rangeFrom 0 8).map fun k => BitVec.ofNat 64 (leField r (8 + 8 * k) 8)
  let fl := leField r 83 1
  let d := cdescOf ws
  let m : MStore := ⟨d.src / 65536, ws.getD 2 0, ws.getD 6 0, []⟩
  let isStore := fl.testBit 1
  let n := if isStore then m.rows * m.cols else d.elems
  let seq := if isStore then n != 0 && s.touchesSeq core func .write m.span else d.seq s core func
  let after := match owner with
    | .gang l t _ => ((s.core core).engine.filter fun o => o.launch == l && o.team == t && mmaAcc o.word == m.acc).map (·.id)
    | .queue _ _ _ _ => []
  let x : Copy := ⟨0, owner, if isStore then [] else ws, 0, 0, mask, leField r 82 1, leField r 81 1, fl.testBit 0, 0, seq,
    if isStore then some { m with after := after } else none, restChunks n (if !isStore && d.ragged != 0 then 0 else 1) r, []⟩
  let (id, s1) := s.startCopy core x fun id => locks.map fun k => { k with copy := id }
  let s2 := match owner with
    | .gang l t g => s1.modGang l t g (·.flagUp x.flag)
    | .queue _ _ _ _ => s1
  (rangeFrom 0 (leField r 84 2)).foldl (fun s i =>
    if leField r (104 + 24 * i + 1) 1 = 0x0D then
      s.chunkFault core id (leField r (104 + 24 * i) 1) .fabricTimeout (s.lostDetail func (leField r (104 + 24 * i + 16) 8) .write)
    else s) s2

/-- Restore those of a team's copies that have begun to read, or those that have not. -/
def State.restCopies (s : State) (begun : Bool) (p : TeamPart) : State :=
  match s.team? p.launch p.num with
  | none => s
  | some t => (pairLocks t.func (p.of 7) (p.of 9)).foldl (fun s x =>
      let gi := leField x.1 80 1
      if copyBegun x.1 != begun then s
      else s.restCopy t.core t.func (.gang t.launch t.num gi) (((s.gang? t.launch t.num gi).map (·.live)).getD 0) x.1 x.2) s

/-- Restore a `CPYT` with its range lock. -/
def State.restCpyt (s : State) (t : Team) (r : List Byte) : State :=
  let m := leField r 12 4
  let ys : List CpytLane := (lanes32.filter m.testBit).map fun i =>
    ⟨i, leField r (16 + 16 * i) 4, leField r (16 + 16 * i + 4) 4, leField r (16 + 16 * i + 8) 8, .pending, 0, 0, false⟩
  let reads := ys.filter fun y => y.valid != 0
  let (id, s1) := s.take
  let gi := leField r 8 1
  let x : Cpyt := ⟨id, t.launch, t.num, gi, leField r 9 1, leField r 10 1, 0, 0, 0,
    reads.any fun y => s.touchesSeq t.core t.func .read (y.va, y.va), ys⟩
  let lock : Lock := ⟨id, true, t.func, false, 0, 0, reads.map fun y => y.va / 32, 0⟩
  (s1.modCore t.core fun c => { c with cpyts := c.cpyts ++ [x], locks := c.locks ++ (if reads.isEmpty then [] else [lock]) }).modGang
    t.launch t.num gi (·.flagUp x.flag)

/-! ### Fabric streams (step 4) -/

/-- Resend or give up the requests of a stream, in order. The ones after its `RSTREL` belong to the next segment. The image does not
give the types of their pages: what waits for SEQ stores waits for these (log 87). -/
def State.restStream (s : State) (t : Team) (r : List Byte) : State :=
  let gi := leField r 8 1
  let vdn := leField r 10 2
  let n := leField r 17 1
  let qs := (rangeFrom 0 n).map fun i => (r.drop (24 + 40 * i)).take 40
  let rels := (qs.filter fun q => leField q 0 1 == 1).length
  let seg := leField r 16 1
  match s.resolve t.func vdn with
  | .error _ => s
  | .ok d0 =>
    let d : Dest := { d0 with func := leField r 9 1 }
    let s0 := s.modGang t.launch t.num gi fun g =>
      g.putStream ⟨d.dev, d.func, if rels = 0 then leField r 12 4 else 0, if rels = 0 then seg else (seg + 1) % 256, vdn,
        if rels = 0 then [] else [seg]⟩
    (qs.foldl (fun (acc : Nat × State) q =>
      let (i, s) := acc
      let kind := leField q 0 1
      let size := leField q 2 1
      let gpa := leField q 8 8
      let data := BitVec.ofNat 128 (leField q 16 16)
      let x := leField q 3 1
      let lost := 15 * 2 ^ 60 + d.dev * 2 ^ 52 + gpa % 2 ^ 52
      let live := firstLane (((s.gang? t.launch t.num gi).map (·.live)).getD 1)
      let after := i = rels && rels != 0
      let own : ReqOwner := .store t.launch t.num gi (live % 32) 0 0
      let pkt (k : PktKind) : Packet := { d.packet k gpa size data with
        launch := t.launch, team := t.num, gang := gi, seg := if after then (seg + 1) % 256 else seg }
      let next := if kind = 1 then i + 1 else i
      if leField q 1 1 = 1 then (next, s.gangFault t.launch t.num gi (1#32 <<< (live % 32)) 0 0 .fabricTimeout lost 0)
      else if kind = 3 then
        let flag := ((((s.gang? t.launch t.num gi).map (·.frontier)).getD []).head?).map (·.setB)
        let (id, s1) := s.take
        let e : Elem := ⟨live % 32, id, 0, .pending, some ⟨gpa, .peer vdn gpa, .rel, 0⟩, data, 0, 0, false⟩
        let o : MemOp := ⟨id, id, .rfence size d.dev d.func, 0, 0, 0, flag.getD 15, 0, 1, 0, 15, 15, 0, .none, [e]⟩
        (next, s1.modGang t.launch t.num gi fun g => { g.flagUp (flag.getD 15) with ops := g.ops ++ [o] })
      else
        let p : Packet := match kind with
          | 1 => { pkt .rstrel with lane := i, count := leField r 12 4, group := rels, seg := seg }
          | 2 => pkt .rstarv
          | 4 => { pkt .atomr with op := x % 8, scope := x / 8 % 8, rtype := x / 64, wide := size == 8 }
          | _ => pkt .store
        let s1 := if after && kind != 2 then
            s.modGang t.launch t.num gi fun g => g.putStream { g.stream d.dev d.func with sent := (g.stream d.dev d.func).sent + 1 }
          else s
        (next, (s1.send t.core own 0 .seq t.func vdn p).2)) (0, s0)).2

/-! ### Service calls (14 R320) -/

/-- Post again the requests of entries that waited for a reply. -/
def State.restSvc (s : State) (t : Team) (p : TeamPart) : State :=
  (p.of 4).foldl (fun s r =>
    let gi := leField r 8 1
    ((rangeFrom 0 (leField r 9 1)).filter fun i => leField r (408 + 16 * i + 13) 1 == 8).foldl (fun s i =>
      match (s.gang? t.launch t.num gi).bind fun g => (g.frontier[i]?).map fun e => (g, e) with
      | none => s
      | some (g, e) =>
        let (pc, w) := s.instrAt t.core t.func e.pc
        let c : Cur := ⟨t.launch, t.num, gi, e.eid, pc, e.pc, e.mask, w, 4, 0⟩
        let (q, s1) := s.postSvc c t.func (g.uni (fld w.toNat 16 6)) (fld w.toNat 24 8) true
        s1.modEntry t.launch t.num gi e.eid fun e => { e with st := .stalled (.svc q), resume := .op q }) s) s

/-! ### The restore -/

/-- The buffers of a team. -/
def State.restBufs (s : State) (p : TeamPart) : State :=
  match s.team? p.launch p.num with
  | none => s
  | some t => (p.of 5).foldl (fun s r => s.restBuf t r) s

/-- The `CPYT`s, signatures, streams and service calls of a team. -/
def State.restRest (s : State) (p : TeamPart) : State :=
  match s.team? p.launch p.num with
  | none => s
  | some t =>
    let s4 := (p.of 8).foldl (fun s r => s.restCpyt t r) s
    let s5 := t.cv.foldl (fun s v => v.signers.foldl (fun s y =>
      if y.matrix then s.modGang t.launch t.num y.gang (·.flagUp y.flag) else s) s) s4
    let s6 := (p.of 10).foldl (fun s r => s.restStream t r) s5
    let s7 := t.gangs.foldl (fun s g => s.tryRfence t.launch t.num g.idx) s6
    s7.restSvc t p

/-- What follows the placement of the teams. Copies that have begun to read come before the matrix operations, which were issued after
them where they are on one accumulator (11 R253); the others come after. -/
def State.restParts (s : State) (parts : List TeamPart) : State :=
  let s1 := parts.foldl (fun s p => s.restBufs p) s
  let s2 := parts.foldl (fun s p => s.restCopies true p) s1
  let s3 := parts.foldl (fun s p => s.restCopies false p) (s2.restMats parts)
  parts.foldl (fun s p => s.restRest p) s3

/-- Queue packets' copies go to cores of the partition with room. -/
def State.restQueueCopies (s : State) (func : Nat) (rs : List (List Byte)) : State :=
  (rs.filter fun r => recKind r == 7 && leField r 83 1 / 4 == 1).foldl (fun s r =>
    match s.queueAt func (leField r 88 8),
          ((s.func func).bayList.flatMap fun b => rangeFrom (8 * b) 8).find? fun k =>
            !(s.core k).outOfUse && decide ((s.core k).copies.length < 16) with
    | some q, some k => s.restCopy k func (.queue func q.page (leField r 96 4) (leField r 96 4)) 0 r (copyLocks func r)
    | _, _ => s) s

/-- Restore a checked image; none while its teams cannot be placed. -/
def State.restore (s : State) (func : Nat) (rs : List (List Byte)) (bays : List Nat) : Option State :=
  let head := (rs.head?).getD []
  let check := leField head 11 1 == 1
  let parts := teamParts rs
  let s1 := (rs.filter (recKind · == 2)).foldl (fun s r => s.restLaunch func check parts r) s
  let pktOf (p : TeamPart) : LaunchPkt := ((s1.launch? p.launch).map (·.pkt)).getD (launchOf [])
  let teams := parts.mapIdx fun i p => (s1.restTeam func check (pktOf p) p (s1.fresh + 1024 * i), p)
  match { s1 with fresh := s1.fresh + 1024 * parts.length }.seatClusters func (clustersOf teams) bays with
  | none => none
  | some s2 =>
    let s3 := s2.restParts parts
    let s4 := (s3.restQueueCopies func rs).restReplay func rs
    some (State.watchFrom (s4.modFunc func fun f =>
      { f with frozen := false, image := none, receive := none, vfstatus := leField head 24 4 % 2 == 1 }) s func)

/-- Restore an image in a partition. A refused image changes nothing but bit 0 of the physical function's STATUS; one whose teams
cannot be placed yet waits. -/
def execImageRestore (func : Nat) (image : List Byte) (bays : List Nat) (s : State) : Out :=
  .next (match s.checkedImage func image with
    | none => s.modFunc 0 fun f => { f with status := f.status ||| 1 }
    | some rs => (s.restore func rs bays).getD s)

end Sys2Proof.Machine
end

