-- ==== Sys2Proof/Machine/Migrate.lean ====
section
/-! DEFINITION. Live migration, checkpoints and the record and replay modes (chapter 15, 16 R370, 19 R379). -/

namespace Sys2Proof.Machine

/-! ### Commands (16 R358, R370) -/

/-- A rejected command changes nothing but bit 0 of the function's STATUS. Before bring-up ends, requests are ignored (16 R361). -/
def State.reject (s : State) (func : Nat) : State :=
  if s.bringUp != 5 then s else s.modFunc func fun f => { f with status := f.status ||| 1 }

/-- Carry out a command when it is accepted. -/
def State.command (s : State) (func : Nat) (ok : Bool) (k : State → State) : State :=
  if s.bringUp != 5 then s else if ok then k s else s.reject func

def Func.marg (f : Func) (k : Nat) : Nat := (f.margs.getD k 0).toNat

/-- The entries of a range table at a system physical address. -/
def State.rangeTable (s : State) (at_ n : Nat) : List (Nat × Nat) :=
  (rangeFrom 0 n).map fun k => (leNat (s.homeRead (at_ + 16 * k) 8), leNat (s.homeRead (at_ + 16 * k + 8) 8))

/-- Are the bases and lengths of a range table multiples of 64 KiB? -/
def rangesAligned (l : List (Nat × Nat)) : Bool := l.all fun r => r.1 % 65536 == 0 && r.2 % 65536 == 0

/-- A table of 1 to 256 ranges of device memory. -/
def State.memTable (s : State) (at_ n : Nat) : Option (List (Nat × Nat)) :=
  if n = 0 || decide (256 < n) || decide (Config.deviceEnd < at_ + 16 * n) then none
  else
    let l := s.rangeTable at_ n
    if rangesAligned l && l.all fun r => decide (r.1 + r.2 ≤ Config.deviceEnd) then some l else none

/-- Does a migration or checkpoint of the function run (15 R342)? -/
def Func.busy (f : Func) : Bool := f.migration.isSome || f.checkpoint.isSome || f.receive.isSome

/-! ### Migration (15 R342 to R345) -/

def execMigrateStart (func : Nat) (s : State) : Out :=
  let f := s.func func
  .next (match s.memTable (f.marg 1) (f.marg 2) with
    | none => s.reject func
    | some l =>
      s.command func (!f.busy) fun s => s.modFunc func fun f =>
        { f with migration := some ⟨fld (f.marg 0) 0 8, fld (f.marg 0) 8 6, l, 0, 0, 0, 0⟩, mstate := 1, mround := 0, mdirty := 0 })

/-- The dirty count within which a stop is accepted: 2 GiB of granules. -/
abbrev dirtyBudget : Nat := 524288

/-- Start the stop phase: the partition is pre-empted. -/
def State.startStop (s : State) (func : Nat) : State :=
  (s.preempt func).modFunc func fun f =>
    { f with migration := f.migration.map fun m => { m with phase := 1 }, mstate := 2 }

/-- Are the rounds of a migration running? -/
def Func.inRounds (f : Func) : Bool := f.migration.any fun m => m.phase == 0

def execMigrateStop (func : Nat) (s : State) : Out :=
  let f := s.func func
  .next (s.command func (f.migration.any fun m => m.phase == 0 && decide (0 < m.round) && decide (m.last ≤ dirtyBudget))
    (·.startStop func))

def execMigrateForceStop (func : Nat) (s : State) : Out :=
  .next (s.command func (s.func func).inRounds (·.startStop func))

def execMigrateAbandon (func : Nat) (s : State) : Out :=
  .next (s.command func (s.func func).inRounds fun s => s.modFunc func fun f =>
    { f with migration := none, capNow := none, mstate := 4 })

/-- Prepare the destination function: the reserve, the ranges, and the forward table's entry. -/
def execMigrateReceive (func : Nat) (s : State) : Out :=
  let f := s.func func
  let base := f.marg 0
  .next (match s.memTable (f.marg 2) (f.marg 3) with
    | none => s.reject func
    | some l =>
      let ok := !f.busy && base % 2 ^ 30 == 0 && decide (base + 2 ^ 30 ≤ Config.deviceEnd) && decide (s.forwards.length < 64)
      let dev := fld (f.marg 1) 0 8
      let src := fld (f.marg 1) 8 6
      s.command func ok fun s =>
        { s.modFunc func fun f => { f with receive := some ⟨base, dev, src, l⟩, moved := false } with
          forwards := (s.forwards.filter fun x => !(x.1 == dev && x.2.1 == src)) ++ [(dev, src, 0, func)] })

/-! ### Rounds (15 R341, R343, R344, 19 R379) -/

/-- Does a granule lie in one of the ranges? -/
def inRanges (l : List (Nat × Nat)) (g : Nat) : Bool := l.any fun r => decide (r.1 ≤ g * 4096) && decide (g * 4096 < r.1 + r.2)
def granulesOf (l : List (Nat × Nat)) : List Nat := l.flatMap fun r => rangeFrom (r.1 / 4096) (r.2 / 4096)

/-- Every home cache writes its dirty lines of the ranges to the stack caches, in FIFO order (04 R78, 19 R379). The drain closes the
tenant's reduction entries (05 R117). -/
def State.drainHomes (s : State) (func : Nat) (l : List (Nat × Nat)) : State :=
  let s1 := ((s.dies.flatMap (·.fifo)).filter fun a => inRanges l (granuleOf (a * 128))).foldl (fun s a => s.homeOut a) s
  { s1 with reds := s1.reds.filter fun r => r.func != func && !inRanges l (granuleOf (r.sector * 32)) }

/-- Read and clear the dirty bits of the ranges. -/
def State.readClear (s : State) (l : List (Nat × Nat)) : List Nat × State :=
  (s.bitmap.filter (inRanges l), { s with bitmap := s.bitmap.filter (!inRanges l ·) })

/-- Where a granule lands: at the same offset of the same range of the destination's table. -/
def landingOf : List (Nat × Nat) → List (Nat × Nat) → Nat → Option Nat
  | r :: rs, d :: ds, a => if r.1 ≤ a && a < r.1 + r.2 then some (d.1 + (a - r.1)) else landingOf rs ds a
  | _, _, _ => none

/-- Granules are read at their home (R343) and leave for a device. Poison marks travel with the sectors (03 R59). -/
def State.sendOff (s : State) (func dev : Nat) (gs : List Nat) : State :=
  gs.foldl (fun s g =>
    let (bs, _, s1) := s.homeLoad (g * 4096) 4096 func
    let marks := (rangeFrom 0 128).foldl (fun (m : BitVec 128) k => if s1.homePoison (g * 128 + k) then m ||| (1#128 <<< k) else m) 0
    { s1 with sent := s1.sent ++ [.granule dev (g * 4096) bs marks] }) s

/-- Copy granules of a function to the destination: they leave for its device, or land in this one. -/
def State.sendGranules (s : State) (func : Nat) (m : Migration) (gs : List Nat) : State :=
  if m.dev = s.device then
    let ranges := (((s.func m.func).receive).map (·.ranges)).getD []
    gs.foldl (fun s g =>
      match landingOf m.ranges ranges (g * 4096) with
      | none => s
      | some a => (rangeFrom 0 128).foldl (fun s k =>
          let (bs, bad, s1) := s.homeLoad (g * 4096 + 32 * k) 32 func
          s1.homeWrite (a + 32 * k) m.func bs bad) s) s
  else s.sendOff func m.dev gs

/-- A round of pre-copy: round 0 copies every granule, a later one those whose bits it reads. The governor acts on its count. -/
def execPrecopyRound (func : Nat) (s : State) : Out :=
  let f := s.func func
  .next (match f.migration with
    | none => s
    | some m =>
      if m.phase != 0 then s
      else
        let (gs, s1) := if m.round = 0 then (granulesOf m.ranges, s) else (s.drainHomes func m.ranges).readClear m.ranges
        let d := gs.length
        let lower := decide (0 < m.round) && decide (dirtyBudget < d) && decide (m.last ≤ d)
        (s1.sendGranules func m gs).modFunc func fun f =>
          { f with migration := some { m with round := m.round + 1, prev := m.last, last := d }
                   mround := m.round % 256
                   mdirty := BitVec.ofNat 64 d
                   capNow := if lower then some (max 8 (f.missCap / 2)) else f.capNow })

/-! ### The stop phase (15 Table 15-1) -/

/-- Step 3: the image goes to the destination's reserve. -/
def State.sendImage (s : State) (m : Migration) (img : List Byte) : State :=
  if m.dev = s.device then s.modFunc m.func fun f => { f with image := some img }
  else { s with sent := s.sent ++ [.image m.dev 0 img] }

/-- Step 5: the entries of this device's virtual-device table that name the moved function name the destination, one generation on
(R349). -/
def State.switchTables (s : State) (func : Nat) (m : Migration) : State :=
  let f := s.func func
  (rangeFrom 0 f.cfg.vlimit).foldl (fun s v =>
    let a := s.vdnAddr func v
    let e := leNat (s.homeRead a 8)
    let here := fld e 0 1 == 1 && fld e 8 4 * 16 + fld e 4 4 == s.device && fld e 12 6 == func
    if here && inDevice a then
      let e1 := 1 + fld m.dev 0 4 * 2 ^ 4 + fld m.dev 4 4 * 2 ^ 8 + m.func * 2 ^ 12 + fld e 18 6 * 2 ^ 18 + (fld e 24 8 + 1) % 256 * 2 ^ 24
      s.homeWrite a func (leBytes e1 8) false
    else s) s

/-- A step of the stop phase: quiescence and write-back, image, last granules, switch. -/
def execStopPhase (func : Nat) (s : State) : Out :=
  let f := s.func func
  let phaseTo (s : State) (k : Nat) : State := s.modFunc func fun f => { f with migration := f.migration.map fun m => { m with phase := k } }
  .next (match f.migration with
    | none => s
    | some m =>
      match m.phase with
      | 0 => s
      | 1 => if s.quiescent func then phaseTo ((s.flushCores func).drainHomes func m.ranges) 2 else s
      | 2 =>
        let img := s.imageOf func
        phaseTo ((s.vacate func).sendImage m img) 3
      | 3 =>
        let (gs, s1) := if m.round = 0 then (granulesOf m.ranges, s) else (s.drainHomes func m.ranges).readClear m.ranges
        phaseTo (s1.sendGranules func m gs) 4
      | _ =>
        let s1 := s.switchTables func m
        let s2 := if m.dev = s1.device then
            s1.modFunc m.func fun g => { g with hold := g.hold ++ f.hold.map fun p => { p with func := m.func, kslot := g.cfg.kslot } }
          else s1
        s2.modFunc func fun f =>
          { f with migration := none, capNow := none, mstate := 3, hold := [], moved := true
                   mirror := some ⟨m.dev, m.func, s.now + 2000 * Config.cyclesPerUs⟩ })

/-- The mirror window closes (15 R351). -/
def execMirrorWindowExpiry (func : Nat) (s : State) : Out :=
  .next (if (s.func func).mirror.any fun m => decide (m.until_ ≤ s.now) then s.modFunc func fun f => { f with mirror := none } else s)

/-! ### Checkpoints (15 R352, R353) -/

/-- Arm a checkpoint. -/
def State.armCheckpoint (s : State) (func : Nat) (ok : Bool) (k : Checkpoint → Checkpoint) : State :=
  let f := s.func func
  match s.memTable (f.marg 1) (f.marg 2) with
  | none => s.reject func
  | some l =>
    s.command func (ok && !f.busy && decide (f.marg 0 < Config.deviceEnd)) fun s => s.modFunc func fun f =>
      { f with checkpoint := some (k ⟨f.marg 0, l, none, none, 0, none, [], none, false⟩), mstate := 5 }

def execCheckpointAtStep (func : Nat) (s : State) : Out :=
  .next (s.armCheckpoint func true fun k => { k with target := some (BitVec.ofNat 64 ((s.func func).marg 3)) })

def execCheckpointByTimer (func : Nat) (s : State) : Out :=
  let p := (s.func func).marg 3
  .next (s.armCheckpoint func (p != 0 && decide (p < 2 ^ 32)) fun k =>
    { k with period := some p, timerAt := s.now + p * Config.cyclesPerUs })

/-- The live gangs of a partition. -/
def State.liveGangs (s : State) (func : Nat) : List Gang :=
  (s.teams.filter (·.func == func)).flatMap fun t => t.gangs.filter (!·.ended)

/-- Has every gang of the partition reached the boundary? -/
def State.allReached (s : State) (func : Nat) : Bool := (s.liveGangs func).all (·.reachedStep)

/-- Ten milliseconds after the first gang's stop, the others are saved where they stand. -/
def execCheckpointPartialTimeout (func : Nat) (s : State) : Out :=
  let f := s.func func
  .next (match f.checkpoint with
    | none => s
    | some k =>
      if k.partial_ || s.allReached func || !(k.firstStop.any fun t => decide (t + 10000 * Config.cyclesPerUs ≤ s.now)) then s
      else (s.preempt func).modFunc func fun f => { f with checkpoint := some { k with partial_ := true } })

/-- The bays of the clusters, in the order in which an image holds them. -/
def State.clusterBays (s : State) (func : Nat) : List Nat :=
  let ts := (s.savedLaunches func).flatMap fun l => s.teams.filter (·.launch == l.id)
  (ts.foldl (fun (acc : List (Nat × Nat × Nat)) t =>
    if acc.any fun x => x.1 == t.launch && x.2.1 == t.cluster then acc else acc ++ [(t.launch, t.cluster, bayOf t.core)]) []).map (·.2.2)

/-- The checkpoint of a quiescent partition: image, granules, and issue resumes. -/
def State.capture (s : State) (func : Nat) (k : Checkpoint) : State :=
  let f := s.func func
  let left := ((s.liveGangs func).filter (!·.reachedStep)).length
  let bays := s.clusterBays func
  let s1 := (s.flushCores func).drainHomes func k.ranges
  let img := s1.imageOf func
  let s2 := (s1.vacate func).homeWrite k.image func img false
  let (gs, s3) := s2.readClear k.ranges
  let gs1 := if f.captured then gs else granulesOf k.ranges
  let s4 := s3.sendOff func s3.device gs1
  let next := k.period.map fun p =>
    { k with target := none, firstStop := none, replies := [], hold := none, partial_ := false
             timerAt := s.now + p * Config.cyclesPerUs }
  let s5 := s4.modFunc func fun f =>
    { f with checkpoint := next, captured := true, mstate := if next.isSome then 5 else 0, mpartial := k.partial_
             msaved := if k.partial_ then left else 0, image := some img }
  match (s5.checkedImage func img).bind fun rs => s5.restore func rs bays with
  | some s6 => s6
  | none => s5

/-- Every gang has reached N, or the time for it is over: the partition is pre-empted, and captured once it is quiescent. -/
def execCheckpointCapture (func : Nat) (s : State) : Out :=
  let f := s.func func
  .next (match f.checkpoint with
    | none => s
    | some k =>
      if k.firstStop.isNone || !(k.partial_ || s.allReached func) then s
      else if !f.frozen then s.preempt func
      else if s.quiescent func then s.capture func k else s)

/-- Highest SR_STEP among the gangs of a function. -/
def State.highestStep (s : State) (func : Nat) : W64 :=
  (s.liveGangs func).foldl (fun m g => if m.toNat < g.step.toNat then g.step else m) 0

/-- The initiator has every reply: N is one more than the highest. -/
def State.setStep (s : State) (func : Nat) : State :=
  match (s.func func).checkpoint with
  | none => s
  | some k =>
    let ds := s.tenantPeers func
    if k.replies.isEmpty || !(ds.all fun d => k.replies.any (·.1 == d.1)) then s
    else
      let n := k.replies.foldl (fun (m : W64) x => if m.toNat < x.2.toNat then x.2 else m) 0 + 1
      { s.modFunc func fun f => { f with checkpoint := some { k with target := some n, hold := some n, replies := [] } } with
        sent := s.sent ++ ds.map fun d => .stepSet d.1 d.2 n }

/-- The device-local timer expires: a query goes to every device of the tenant, this one among them. -/
def execCheckpointTimer (func : Nat) (s : State) : Out :=
  let f := s.func func
  .next (match f.checkpoint with
    | none => s
    | some k =>
      if k.period.isNone || k.target.isSome || !k.replies.isEmpty || k.hold.isSome || decide (s.now < k.timerAt) then s
      else
        let h := s.highestStep func
        State.setStep { s.modFunc func fun f =>
            { f with checkpoint := some { k with replies := [(s.device, h)], hold := some (h + 1) } } with
          sent := s.sent ++ (s.tenantPeers func).map fun d => .stepQuery d.1 d.2 } func)

/-- A query from another device. Of two that cross, the lower device's proceeds. -/
def execCheckpointQuery (func src : Nat) (s : State) : Out :=
  let f := s.func func
  let h := s.highestStep func
  let back := (((s.tenantPeers func).find? (·.1 == src)).map (·.2)).getD func
  let answer (s : State) : State := { s with sent := s.sent ++ [.stepReply src back h] }
  .next (if f.migration.isSome then s
    else
      match f.checkpoint with
      | none => answer s
      | some k =>
        if !k.replies.isEmpty && decide (s.device < src) then s
        else answer (s.modFunc func fun f => { f with checkpoint := some { k with replies := [], hold := some (h + 1) } }))

/-- A reply to this device's query. -/
def execCheckpointQueryReply (func src : Nat) (high : W64) (s : State) : Out :=
  .next (match (s.func func).checkpoint with
    | none => s
    | some k =>
      if k.replies.isEmpty || k.replies.any (·.1 == src) then s
      else (s.modFunc func fun f => { f with checkpoint := some { k with replies := k.replies ++ [(src, high)] } }).setStep func)

/-- N from the initiator. -/
def execCheckpointStepSet (func : Nat) (v : W64) (s : State) : Out :=
  .next (match (s.func func).checkpoint with
    | none => s
    | some k => s.modFunc func fun f => { f with checkpoint := some { k with target := some v, hold := some v } })

/-! ### Record and replay (15 R354 to R356, 16 Table 16-5) -/

/-- The input ranges of operations 8 and 9, read through the function's translation. A poisoned word gives none. -/
def State.inputTable (s : State) (func va n : Nat) : Option (List (Nat × Nat)) × State :=
  if 16 < n then (none, s)
  else
    let (ws, s1) := (rangeFrom 0 (2 * n)).foldl (fun (x : List Nat × State) k =>
      match x.2.qAccess func ((va + 8 * k) % 2 ^ 64) 8 .load with
      | (.ok ⟨_, .mem a, _, _⟩, s1) =>
        let (b, bad, s2) := s1.homeLoad a 8 func
        (if bad then x.1 else x.1 ++ [leNat b], s2)
      | (_, s1) => (x.1, s1)) (([], s) : List Nat × State)
    let l := (rangeFrom 0 n).map fun k => (ws.getD (2 * k) 0, ws.getD (2 * k + 1) 0)
    (if ws.length = 2 * n && rangesAligned l then some l else none, s1)

/-- Place a function in record or replay mode. -/
def State.enterMode (s : State) (func : Nat) (replaying : Bool) : State :=
  let f := s.func func
  match s.inputTable func (f.marg 2) (f.marg 3) with
  | (none, s1) => s1.reject func
  | (some l, s1) =>
    s1.command func (f.marg 1 % 32 == 0 && decide (f.marg 0 + f.marg 1 ≤ Config.deviceEnd)) fun s => s.modFunc func fun f =>
      { f with recmode := some ⟨replaying, f.marg 0, f.marg 1, 0, l, false, []⟩, mstate := if replaying then 7 else 6
               diverge := if replaying then 0 else f.diverge }

def execRecordMode (func : Nat) (s : State) : Out := .next (s.enterMode func false)
def execReplayMode (func : Nat) (s : State) : Out := .next (s.enterMode func true)
def execNormalMode (func : Nat) (s : State) : Out :=
  .next (s.modFunc func fun f => { f with recmode := none, mstate := if f.mstate = 6 || f.mstate = 7 then 0 else f.mstate })

end Sys2Proof.Machine
end

