-- ==== Sys2Proof/Machine/Host.lean ====
section
/-! DEFINITION. Host attachment and the module (chapter 16): bring-up, firmware, attestation, the memory window, management, and the
writes of the register window. -/

namespace Sys2Proof.Machine

/-! ### Bring-up (16 R361, R371) -/

/-- The ports train: those that lead to a device of the grid come up (05 R103). -/
def State.train (s : State) : State := { s with ports := (rangeFrom 0 32).map fun k => ⟨s.portUsed k⟩ }

/-- The next step of 16 Table 16-2. -/
def execBringUp (s : State) : Out :=
  .next (match s.bringUp with
    | 0 => { s with bringUp := 1 }
    | 1 => { s with bringUp := 2, mem := [], poison := [], flips := [], dieFlips := [], stack := [], home := [], reds := [], oldCode := [] }
    | 2 => { s with bringUp := 3, dies := []
                    cores := (rangeFrom 0 640).map fun k => { Core.reset k with outOfUse := (s.core k).outOfUse, start := s.now } }
    | 3 => { s.train with bringUp := 4 }
    | 4 => { s with bringUp := 5, linkUp := true }
    | _ => s)

/-- Does the device take requests of the host for a function's BARs? A virtual function appears once SR-IOV is enabled. -/
def State.reaches (s : State) (func : Nat) : Bool :=
  s.bringUp == 5 && s.linkUp && decide (func < 64) && (func == 0 || s.sriov)

/-- A configuration request (16 R361). -/
def execConfigurationRequest (write sriov : Bool) (s : State) : Out :=
  .next (if s.bringUp < 5 then { s with sent := s.sent ++ [.retryStatus] }
    else if write then { s with sriov := sriov } else s)

/-! ### Firmware and attestation (16 R360) -/

/-- Only firmware whose digest the release key has signed is loaded. -/
def execFirmwareLoad (image : List Byte) (sig : BitVec 512) (s : State) : Out :=
  .next (if Config.firmwareSigned image sig then { s with firmware := Config.sha512 image } else s)

/-- ID (16 Table 16-1). -/
def idWord (func : Nat) : Nat := 1 + func * 2 ^ 8 + 0x0640 * 2 ^ 16

/-- Is a way reduction in progress (16 Table 16-3)? -/
def Func.reducing (f : Func) : Bool := f.oldHways != 0 || f.oldSways != 0

/-- The words of CONFIG as a read returns them (16 Table 16-3). -/
def State.configWord (s : State) (func k : Nat) : Nat :=
  let f := s.func func
  let c := f.cfg
  match k with
  | 0 => fld c.bays.toNat 0 64
  | 1 => fld c.bays.toNat 64 16
  | 2 => c.kslot + c.share * 2 ^ 16 + c.weight * 2 ^ 32 + c.nochk.toNat * 2 ^ 40 + c.tlimit.toNat * 2 ^ 41
  | 3 => c.vbase + c.vlimit * 2 ^ 16
  | 4 => c.hways.toNat + c.sways.toNat * 2 ^ 32
  | 5 => c.capwb + c.capab * 2 ^ 8 + c.capsb * 2 ^ 16 + c.capacc * 2 ^ 24 + c.capv * 2 ^ 32 + c.capu * 2 ^ 48
  | 6 => f.reducing.toNat + (s.teams.any (·.func == func)).toNat * 2
  | _ => 0

/-- What is signed: the nonce, the firmware digest, ID, and the CONFIG of the requesting function. -/
def State.evidence (s : State) (func : Nat) (nonce : BitVec 256) : List Byte :=
  leBytes nonce.toNat 32 ++ leBytes s.firmware.toNat 64 ++ leBytes (idWord func) 8 ++
    (rangeFrom 0 7).flatMap fun k => leBytes (s.configWord func k) 8

def execAttestationRequest (func : Nat) (nonce : BitVec 256) (s : State) : Out :=
  .next { s with sent := s.sent ++ [.signature (Config.identitySign (Config.sha512 (s.evidence func nonce)))] }

/-! ### The memory window (16 R381) -/

/-- Device-memory address of a guest physical address for the host, or why the request is refused. A poisoned stage-2 entry is neither
absent nor malformed (03 R70; log 88). -/
def State.hostTarget (s : State) (func a : Nat) (need : Need) : Except Flt Nat × State :=
  match s.stage2 func a with
  | (.fault f, s1) => (.error (if f.code = .perm || f.code = .uncorrData then f else ⟨.perm, 9⟩), s1)
  | (.leaf e lvl, s1) =>
    if !permits2 e need then (.error ⟨.perm, 2⟩, s1)
    else
      match targetOf e lvl a with
      | .mem x => (if inDevice x then .ok x else .error ⟨.perm, 6⟩, s1)
      | _ => (.error ⟨.perm, 5⟩, s1)

/-- The address of each byte of a request, or the cause of the first refusal. -/
def State.hostTargets (s : State) (func a n : Nat) (need : Need) : Except Flt (List Nat) × State :=
  match n with
  | 0 => (.ok [], s)
  | k + 1 =>
    match s.hostTarget func a need with
    | (.error c, s1) => (.error c, s1)
    | (.ok x, s1) =>
      match s1.hostTargets func (a + 1) k need with
      | (.error c, s2) => (.error c, s2)
      | (.ok l, s2) => (.ok (x :: l), s2)

/-- A host request that is not performed: Unsupported Request, and a record in the physical function's terminal ring. -/
def State.hostRefused (s : State) (func off : Nat) (f : Flt) : State :=
  let r : Record := { queueRecord func off 0 f.code f.detail with ring := 3 }
  { s.modFunc 0 fun f => { f with pend := f.pend ++ [r] } with sent := s.sent ++ [.unsupported func] }

/-- A read through BAR4. Poisoned data is returned marked (03 R59; log 88). -/
def execHostWindowRead (func off n : Nat) (s : State) : Out :=
  .next (if !s.reaches func || decide (2 ^ 36 < off + n) then s
    else
      match s.hostTargets func off n .read with
      | (.error f, s1) => s1.hostRefused func off f
      | (.ok l, s1) =>
        let (bs, bad, s2) := l.foldl (fun (x : List Byte × Bool × State) a =>
          let (b, bad, s2) := x.2.2.homeLoad a 1 func
          (x.1 ++ b, x.2.1 || bad, s2)) (([], false, s1) : List Byte × Bool × State)
        { s2 with sent := s2.sent ++ [.hostData bs bad] })

/-- A write through BAR4, performed at the home before a later register write takes effect (19 R378). -/
def execHostWindowWrite (func off : Nat) (bytes : List Byte) (s : State) : Out :=
  .next (if !s.reaches func || decide (2 ^ 36 < off + bytes.length) then s
    else
      match s.hostTargets func off bytes.length .write with
      | (.error f, s1) => s1.hostRefused func off f
      | (.ok l, s1) =>
        -- bytes that follow each other in memory are written together
        let runs := (l.zip bytes).foldr (fun x acc =>
          match acc with
          | (a, bs) :: r => if a = x.1 + 1 then (x.1, x.2 :: bs) :: r else (x.1, [x.2]) :: acc
          | [] => [(x.1, [x.2])]) ([] : List (Nat × List Byte))
        runs.foldl (fun s r => s.homeWrite r.1 func r.2 false) s1)

/-! ### Management (16 R363) -/

def execMctpRead (what : MctpItem) (s : State) : Out :=
  let v : W64 := match what with
    | .temperature => Config.sensor s.free
    | .power => Config.sensor s.free
    | .linkState => BitVec.ofNat 64
        ((rangeFrom 0 32).foldl (fun n k => if s.portUp k then n + 2 ^ k else n) 0 + s.linkUp.toNat * 2 ^ 32)
    | .sharedCounter func index => BitVec.ofNat 64 ((((s.func func).errcnt[index]?).map (·.2)).getD 0)
  .next { s with free := s.free + 1, sent := s.sent ++ [.mctp v] }

/-! ### The register window (16 R358, R364) -/

/-- The function and offset that a write reaches, and whether it comes through the physical function's path. -/
def windowTarget (win off : Nat) : Nat × Nat × Bool :=
  if win = 0 && decide (0x4000 ≤ off) && decide (off < 0xC000) then ((off - 0x4000) / 0x200, (off - 0x4000) % 0x200, true)
  else (win, off, false)

/-- Keep bits `lo .. hi` of a word. -/
def keepBits (v : W64) (lo hi : Nat) : W64 := BitVec.ofNat 64 (fld v.toNat lo (hi + 1 - lo) * 2 ^ lo)

/-- A register that only holds its value: S1ROOT, S2ROOT, QADDR, INVBASE, the MIGRATE arguments and VDNTAB. A virtual function's write
to a register marked PF is ignored; operations of QCMD and MCMD that no table names are rejected (16 R367, R370). -/
def execRegisterWrite (win off : Nat) (v : W64) (s : State) : Out :=
  let (func, o, pf) := windowTarget win off
  let arg (k : Nat) : State := if pf then s.modFunc func fun f => { f with margs := setAt f.margs k v } else s
  .next (if s.bringUp != 5 then s
    else if win = 0 && off = 0x208 then { s with vdntab := keepBits v 15 51 }
    else match o with
      | 0x0010 => s.modFunc func fun f => { f with s1root := keepBits v 16 51 }
      | 0x0018 => if pf then s.modFunc func fun f => { f with s2root := keepBits v 16 51 } else s
      | 0x0080 => s.modFunc func fun f => { f with qaddr := v }
      | 0x0180 =>
        if !pf then s
        else if v == keepBits v 16 51 then s.modFunc func fun f => { f with invBase := v } else s.reject func
      | 0x0088 => if 4 ≤ fld v.toNat 16 3 || !zeroBits v.toNat 12 4 || !zeroBits v.toNat 19 45 then s.reject func else s
      | 0x0190 =>
        let op := fld v.toNat 0 4
        if pf && (op = 0 || decide (10 < op) || !zeroBits v.toNat 4 60) then s.reject func else s
      | 0x0198 => arg 0
      | 0x01A0 => arg 1
      | 0x01A8 => arg 2
      | 0x01B0 => arg 3
      | _ => s)

/-- What a read of a register returns; a command register reads zero. -/
def State.regRead (s : State) (func off : Nat) : W64 :=
  let f := s.func func
  let ring (k : Nat) : Nat := match f.rings[k]? with
    | some r => if r.set then r.base + r.k else 0
    | none => 0
  let index (k : Nat) : Nat := match f.rings[k]? with
    | some r => r.wr % 2 ^ 32 * 2 ^ 32 + r.rd % 2 ^ 32
    | none => 0
  if off = 0x0000 then BitVec.ofNat 64 (idWord func)
  else if off = 0x0010 then f.s1root
  else if off = 0x0018 then f.s2root
  else if 0x0020 ≤ off && off < 0x0038 then BitVec.ofNat 64 (ring ((off - 0x20) / 8))
  else if 0x0040 ≤ off && off < 0x0058 then BitVec.ofNat 64 (index ((off - 0x40) / 8))
  else if off = 0x0080 then f.qaddr
  else if off = 0x0090 then
    (match f.queue? f.selected with
     | some q => BitVec.ofNat 64 (q.replay % 2 ^ 32 * 2 ^ 32 + q.lastRd % 2 ^ 32)
     | none => 0)
  else if off = 0x0098 then f.diverge
  else if 0x00A0 ≤ off && off < 0x0100 then
    (let c := f.errcnt.getD ((off - 0xA0) / 8) (0, 0)
     BitVec.ofNat 64 (c.1 + c.2 * 2 ^ 32))
  else if 0x0100 ≤ off && off < 0x0180 then BitVec.ofNat 64 (s.configWord func ((off - 0x100) / 8))
  else if off = 0x0180 then f.invBase
  else if off = 0x0188 then f.invCmd
  else if 0x0198 ≤ off && off < 0x01B8 then f.margs.getD ((off - 0x198) / 8) 0
  else if off = 0x01B8 then
    BitVec.ofNat 64 (f.mstate + f.mround * 2 ^ 8 + f.mpartial.toNat * 2 ^ 16 + f.msaved * 2 ^ 32)
  else if off = 0x01C0 then f.mdirty
  else if off = 0x01F8 then BitVec.ofNat 64 f.status
  else if func = 0 && off = 0x0200 then s.grid
  else if func = 0 && off = 0x0208 then s.vdntab
  else 0

/-! ### Rings, counters, status (16 R365, 14 R339) -/

/-- RINGS: base in bits 51..12, k in bits 4..0. -/
def execRingSetup (win func ring : Nat) (v : W64) (s : State) : Out :=
  let x := v.toNat
  let k := fld x 0 5
  .next (if win ≠ 0 || s.bringUp != 5 then s
    else s.command func (decide (6 ≤ k) && decide (k ≤ 16) && zeroBits x 52 12 && zeroBits x 5 7) fun s =>
      s.modFunc func fun f => { f with rings := setAt f.rings ring ⟨fld x 12 40 * 4096, k, true, 0, 0, 0⟩ })

/-- The read index of a ring; it may not pass the write index. -/
def execRingReadIndexWrite (func ring : Nat) (v : W64) (s : State) : Out :=
  let n := fld v.toNat 0 32
  .next (if s.bringUp != 5 then s
    else
      match (s.func func).rings[ring]? with
      | none => s
      | some r =>
        s.command func (decide ((n + 2 ^ 32 - r.rd) % 2 ^ 32 ≤ (r.wr + 2 ^ 32 - r.rd) % 2 ^ 32)) fun s =>
          s.modFunc func fun f => { f with rings := modAt f.rings ring fun r => { r with rd := n } })

/-- Bits of `x` that are not set in `y`. -/
def without (x y : Nat) : Nat := x - (x &&& y)

def execErrcntClear (func index : Nat) (v : W64) (s : State) : Out :=
  .next (if s.bringUp != 5 then s else s.modFunc func fun f =>
    { f with errcnt := modAt f.errcnt index fun c => (without c.1 (fld v.toNat 0 32), without c.2 (fld v.toNat 32 32)) })

def execStatusClear (func : Nat) (v : W64) (s : State) : Out :=
  .next (if s.bringUp != 5 then s else s.modFunc func fun f => { f with status := without f.status v.toNat })

/-! ### Queues (16 R367) -/

/-- Launches of a queue that wait at the dispatcher leave with it. -/
def State.dropWaiting (s : State) (func page : Nat) : State :=
  { s with launches := s.launches.filter fun l =>
      !(l.func == func && l.nextCluster == 0 && l.started == 0 && (l.queue.map (·.1)) == some page) }

def execQueueUnbind (func page : Nat) (s : State) : Out :=
  .next (match s.queue? func page with
    | none => s
    | some q =>
      s.command func q.running.isEmpty fun s =>
        (s.dropWaiting func page).modFunc func fun f => { f with queues := f.queues.filter (·.page != page) })

def execQueueBind (func page : Nat) (s : State) : Out :=
  let f := s.func func
  .next (s.command func (decide (page < 4096) && (s.queue? func page).isNone && f.qaddr.toNat % 64 == 0) fun s =>
    s.modFunc func fun f =>
      { f with queues := f.queues ++ [⟨page, f.qaddr.toNat, 0, false, false, false, 0, 0, false, [], false, 0, 0, 0⟩] })

def execQueueSelect (func page : Nat) (s : State) : Out :=
  .next (if s.bringUp != 5 then s else s.modFunc func fun f => { f with selected := page })

def execQueueRestart (func page : Nat) (s : State) : Out :=
  .next (s.modQueue func page fun q => if q.stopped then { q with restarted := true } else q)

/-! ### CONFIG (16 R369) -/

/-- Shares of the functions but one. -/
def State.otherShares (s : State) (func : Nat) : Nat :=
  ((s.funcs.filter (·.id != func)).map (·.cfg.share)).foldl (· + ·) 0

/-- A bay mask of a function: no team of it is resident, and no bay belongs to another partition. -/
def State.setBays (s : State) (func : Nat) (bays : BitVec 80) : State :=
  let f := s.func func
  let ok := (bays == f.cfg.bays || !(s.teams.any (·.func == func))) &&
    s.funcs.all (fun x => x.id == func || (x.cfg.bays &&& bays == 0)) && (bays == 0 || f.cfg.share != 0)
  s.command func ok fun s => s.modFunc func fun f =>
    -- bays given to a function that has moved away give it to a new tenant (15 R351)
    let fresh := f.moved && bays != 0
    { f with cfg := { f.cfg with bays := bays }, moved := f.moved && !fresh, frozen := f.frozen && !fresh }

/-- A CONFIG write, which comes through the physical function's window. -/
def execConfigWrite (win func off : Nat) (v : W64) (s : State) : Out :=
  let f := s.func func
  let x := v.toNat
  .next (if win ≠ 0 || s.bringUp != 5 then s
    else match off with
      | 0x0100 => s.setBays func (BitVec.ofNat 80 (x + fld f.cfg.bays.toNat 64 16 * 2 ^ 64))
      | 0x0108 =>
        if zeroBits x 16 48 then s.setBays func (BitVec.ofNat 80 (fld f.cfg.bays.toNat 0 64 + fld x 0 16 * 2 ^ 64)) else s.reject func
      | 0x0110 =>
        let share := fld x 16 10
        let ok := zeroBits x 6 10 && zeroBits x 26 6 && zeroBits x 42 22 && decide (share ≤ 1000) &&
          (share != 0 || f.cfg.bays == 0) && decide (s.otherShares func + share ≤ 1000)
        s.command func ok fun s => s.modFunc func fun f =>
          { f with cfg := { f.cfg with kslot := fld x 0 6, share := share, weight := fld x 32 8, nochk := x.testBit 40
                                       tlimit := x.testBit 41 } }
      | 0x0118 =>
        let ok := zeroBits x 12 4 && zeroBits x 29 35 && decide (fld x 16 13 ≤ 4096) && decide (fld x 0 12 + fld x 16 13 ≤ 4096)
        s.command func ok fun s => s.modFunc func fun f => { f with cfg := { f.cfg with vbase := fld x 0 12, vlimit := fld x 16 13 } }
      | 0x0120 =>
        let h := BitVec.ofNat 24 (fld x 0 24)
        let w := BitVec.ofNat 16 (fld x 32 16)
        let ok := zeroBits x 24 8 && zeroBits x 48 16 && h != 0 && w != 0
        s.command func ok fun s => s.modFunc func fun f =>
          { f with cfg := { f.cfg with hways := h, sways := w }
                   oldHways := if f.cfg.hways &&& ~~~ h = 0 then f.oldHways else f.oldHways ||| f.cfg.hways
                   oldSways := if f.cfg.sways &&& ~~~ w = 0 then f.oldSways else f.oldSways ||| f.cfg.sways }
      | 0x0128 => s.modFunc func fun f =>
          { f with cfg := { f.cfg with capwb := fld x 0 8, capab := fld x 8 8, capsb := fld x 16 8, capacc := fld x 24 8
                                       capv := fld x 32 16, capu := fld x 48 16 } }
      | _ => s)

/-! ### Stage-2 invalidation (16 R368, 03 R75) -/

/-- INVCMD of a function's window: drop the translations of the named function over a range of guest physical addresses. -/
def execStage2Invalidate (func : Nat) (v : W64) (s : State) : Out :=
  let x := v.toNat
  let f := s.func func
  let count := fld x 0 32
  let victim := fld x 32 6
  let lo := fld f.invBase.toNat 0 52
  let hi := lo + 65536 * count
  .next (if s.bringUp != 5 then s
    else s.command func (!f.invCmd.getLsbD 63 && zeroBits x 38 26) fun s =>
      let s1 := s.modFunc func fun f => { f with invCmd := v }
      if count = 0 then s1
      else
        ((s1.beginInval victim (some func) (rangeFrom 0 640) (rangeFrom 0 8) (fun e => e.inGpa victim lo hi)
          (fun w => w.func == victim) (fun e => e.trans.any fun t => decide (lo ≤ t.gpa) && decide (t.gpa < hi)) [] true none).2).modFunc
            func fun f => { f with invCmd := v ||| (1#64 <<< 63) })

/-! ### GRID and key slots (16 R371, 05 R115) -/

/-- GRID: shape and place. The ports train again. -/
def execGridWrite (v : W64) (s : State) : Out :=
  let x := v.toNat
  let ok := decide (fld x 8 4 ≤ fld x 0 4) && decide (fld x 12 4 ≤ fld x 4 4) && zeroBits x 16 48 &&
    s.funcs.all fun f => f.cfg.bays == 0
  .next (if s.bringUp != 5 then s else s.command 0 ok fun s => State.train { s with grid := v })

/-- The physical function loads a tenant's key into a slot, or into the router for in-flight reduction. -/
def execKeySlotLoad (slot : Nat) (key : BitVec 256) (router : Bool) (s : State) : Out :=
  .next (if router then { s with routerKeys := if s.routerKeys.contains key then s.routerKeys else s.routerKeys ++ [key] }
    else if 63 < slot then s else { s with keys := putBy (·.1 == slot) (slot, key) s.keys })

end Sys2Proof.Machine
end

