-- ==== Sys2Proof/Machine/Dispatch.lean ====
section
/-! DEFINITION. One arm for each instruction and event of the opcode table. -/

namespace Sys2Proof.Machine

def exec (i : Instr) (s : State) : Host.Outcome State Fault Refusal :=
  match i with
  | .clauseHeader w a b p => Sys2Proof.Machine.execClauseHeader w a b p s
  | .pred p n => Sys2Proof.Machine.execPred p n s
  | .nopC => Sys2Proof.Machine.execNopC s
  | .movC d b => Sys2Proof.Machine.execMovC d b s
  | .iaddC d b => Sys2Proof.Machine.execIaddC d b s
  | .isubC d b => Sys2Proof.Machine.execIsubC d b s
  | .imulC d b => Sys2Proof.Machine.execImulC d b s
  | .andC d b => Sys2Proof.Machine.execAndC d b s
  | .orC d b => Sys2Proof.Machine.execOrC d b s
  | .xorC d b => Sys2Proof.Machine.execXorC d b s
  | .shlC d b => Sys2Proof.Machine.execShlC d b s
  | .shrC d b => Sys2Proof.Machine.execShrC d b s
  | .iminC d b => Sys2Proof.Machine.execIminC d b s
  | .imaxC d b => Sys2Proof.Machine.execImaxC d b s
  | .faddC d b => Sys2Proof.Machine.execFaddC d b s
  | .fsubC d b => Sys2Proof.Machine.execFsubC d b s
  | .fmulC d b => Sys2Proof.Machine.execFmulC d b s
  | .fminC d b => Sys2Proof.Machine.execFminC d b s
  | .fmaxC d b => Sys2Proof.Machine.execFmaxC d b s
  | .bra o => Sys2Proof.Machine.execBra o s
  | .call o => Sys2Proof.Machine.execCall o s
  | .brx a => Sys2Proof.Machine.execBrx a s
  | .ret a => Sys2Proof.Machine.execRet a s
  | .reconv => Sys2Proof.Machine.execReconv s
  | .reconvTry => Sys2Proof.Machine.execReconvTry s
  | .yield => Sys2Proof.Machine.execYield s
  | .exit a n => Sys2Proof.Machine.execExit a n s
  | .waitf m => Sys2Proof.Machine.execWaitf m s
  | .region d a => Sys2Proof.Machine.execRegion d a s
  | .regionAll => Sys2Proof.Machine.execRegionAll s
  | .step => Sys2Proof.Machine.execStep s
  | .rngnext d => Sys2Proof.Machine.execRngnext d s
  | .nop => Sys2Proof.Machine.execNop s
  | .trap a imm => Sys2Proof.Machine.execTrap a imm s
  | .svc d a imm => Sys2Proof.Machine.execSvc d a imm s
  | .bkpt imm => Sys2Proof.Machine.execBkpt imm s
  | .barinit d a => Sys2Proof.Machine.execBarinit d a s
  | .bararv d => Sys2Proof.Machine.execBararv d s
  | .barwait d => Sys2Proof.Machine.execBarwait d s
  | .barsync d => Sys2Proof.Machine.execBarsync d s
  | .barexp d a => Sys2Proof.Machine.execBarexp d a s
  | .cvset d n => Sys2Proof.Machine.execCvset d n s
  | .cvsign d => Sys2Proof.Machine.execCvsign d s
  | .batonacq t => Sys2Proof.Machine.execBatonacq t s
  | .batonrel t => Sys2Proof.Machine.execBatonrel t s
  | .mov d a => Sys2Proof.Machine.execMov d a s
  | .movi d imm => Sys2Proof.Machine.execMovi d imm s
  | .movhi d imm => Sys2Proof.Machine.execMovhi d imm s
  | .smov d a => Sys2Proof.Machine.execSmov d a s
  | .smovLpa a => Sys2Proof.Machine.execSmovLpa a s
  | .smovLpb a => Sys2Proof.Machine.execSmovLpb a s
  | .smovRdlpa d => Sys2Proof.Machine.execSmovRdlpa d s
  | .smovRdlpb d => Sys2Proof.Machine.execSmovRdlpb d s
  | .smovi d imm => Sys2Proof.Machine.execSmovi d imm s
  | .s2v d a g => Sys2Proof.Machine.execS2v d a g s
  | .v2s d a l p => Sys2Proof.Machine.execV2s d a l p s
  | .setlane d a l p => Sys2Proof.Machine.execSetlane d a l p s
  | .tagset d a g => Sys2Proof.Machine.execTagset d a g s
  | .tagrd d a => Sys2Proof.Machine.execTagrd d a s
  | .sprd d k n => Sys2Proof.Machine.execSprd d k n s
  | .spwr a n => Sys2Proof.Machine.execSpwr a n s
  | .regclaim n c => Sys2Proof.Machine.execRegclaim n c s
  | .regrel n c => Sys2Proof.Machine.execRegrel n c s
  | .free a c => Sys2Proof.Machine.execFree a c s
  | .qswapx d a => Sys2Proof.Machine.execQswapx d a s
  | .qswapy d a => Sys2Proof.Machine.execQswapy d a s
  | .qswapd d a => Sys2Proof.Machine.execQswapd d a s
  | .qbcast d a j => Sys2Proof.Machine.execQbcast d a j s
  | .shfl d a b => Sys2Proof.Machine.execShfl d a b s
  | .vote d p n m => Sys2Proof.Machine.execVote d p n m s
  | .matchLanes d a w => Sys2Proof.Machine.execMatchLanes d a w s
  | .iadd d a b => Sys2Proof.Machine.execIadd d a b s
  | .isub d a b => Sys2Proof.Machine.execIsub d a b s
  | .imul d a b => Sys2Proof.Machine.execImul d a b s
  | .imulhi d a b => Sys2Proof.Machine.execImulhi d a b s
  | .imad d a b => Sys2Proof.Machine.execImad d a b s
  | .iaddc d a b => Sys2Proof.Machine.execIaddc d a b s
  | .isubb d a b => Sys2Proof.Machine.execIsubb d a b s
  | .imin d a b => Sys2Proof.Machine.execImin d a b s
  | .imax d a b => Sys2Proof.Machine.execImax d a b s
  | .umin d a b => Sys2Proof.Machine.execUmin d a b s
  | .umax d a b => Sys2Proof.Machine.execUmax d a b s
  | .and d a b => Sys2Proof.Machine.execAnd d a b s
  | .or d a b => Sys2Proof.Machine.execOr d a b s
  | .xor d a b => Sys2Proof.Machine.execXor d a b s
  | .andn d a b => Sys2Proof.Machine.execAndn d a b s
  | .shl d a b => Sys2Proof.Machine.execShl d a b s
  | .shr d a b => Sys2Proof.Machine.execShr d a b s
  | .sar d a b => Sys2Proof.Machine.execSar d a b s
  | .rotl d a b => Sys2Proof.Machine.execRotl d a b s
  | .bfe d a b => Sys2Proof.Machine.execBfe d a b s
  | .bfi d a b => Sys2Proof.Machine.execBfi d a b s
  | .lea d a b => Sys2Proof.Machine.execLea d a b s
  | .iset d a b => Sys2Proof.Machine.execIset d a b s
  | .sel d a b => Sys2Proof.Machine.execSel d a b s
  | .pset p c a b => Sys2Proof.Machine.execPset p c a b s
  | .idot4 d a b => Sys2Proof.Machine.execIdot4 d a b s
  | .iaddi d a imm => Sys2Proof.Machine.execIaddi d a imm s
  | .shli d a imm => Sys2Proof.Machine.execShli d a imm s
  | .shri d a imm => Sys2Proof.Machine.execShri d a imm s
  | .iseti d a imm => Sys2Proof.Machine.execIseti d a imm s
  | .ineg d a => Sys2Proof.Machine.execIneg d a s
  | .iabs d a => Sys2Proof.Machine.execIabs d a s
  | .not d a => Sys2Proof.Machine.execNot d a s
  | .popc d a => Sys2Proof.Machine.execPopc d a s
  | .clz d a => Sys2Proof.Machine.execClz d a s
  | .brev d a => Sys2Proof.Machine.execBrev d a s
  | .fadd d a b => Sys2Proof.Machine.execFadd d a b s
  | .fsub d a b => Sys2Proof.Machine.execFsub d a b s
  | .fmul d a b => Sys2Proof.Machine.execFmul d a b s
  | .ffma d a b => Sys2Proof.Machine.execFfma d a b s
  | .fmin d a b => Sys2Proof.Machine.execFmin d a b s
  | .fmax d a b => Sys2Proof.Machine.execFmax d a b s
  | .fset p c a b => Sys2Proof.Machine.execFset p c a b s
  | .fscale d a b => Sys2Proof.Machine.execFscale d a b s
  | .fdot2 d a b => Sys2Proof.Machine.execFdot2 d a b s
  | .fabs d a => Sys2Proof.Machine.execFabs d a s
  | .fneg d a => Sys2Proof.Machine.execFneg d a s
  | .frcp d a => Sys2Proof.Machine.execFrcp d a s
  | .frsq d a => Sys2Proof.Machine.execFrsq d a s
  | .fsqrt d a => Sys2Proof.Machine.execFsqrt d a s
  | .fexp2 d a => Sys2Proof.Machine.execFexp2 d a s
  | .flog2 d a => Sys2Proof.Machine.execFlog2 d a s
  | .fsin d a => Sys2Proof.Machine.execFsin d a s
  | .fcos d a => Sys2Proof.Machine.execFcos d a s
  | .ftanh d a => Sys2Proof.Machine.execFtanh d a s
  | .frnd d a f => Sys2Proof.Machine.execFrnd d a f s
  | .fclass d a => Sys2Proof.Machine.execFclass d a s
  | .cvt d a r g => Sys2Proof.Machine.execCvt d a r g s
  | .cvts d a b => Sys2Proof.Machine.execCvts d a b s
  | .deq d a b => Sys2Proof.Machine.execDeq d a b s
  | .pack d a b => Sys2Proof.Machine.execPack d a b s
  | .unpack d a j => Sys2Proof.Machine.execUnpack d a j s
  | .ld d base w a => Sys2Proof.Machine.execLd d base w a s
  | .st d base w a => Sys2Proof.Machine.execSt d base w a s
  | .ldacq d base c a => Sys2Proof.Machine.execLdacq d base c a s
  | .strel d base c a => Sys2Proof.Machine.execStrel d base c a s
  | .sld d base w a => Sys2Proof.Machine.execSld d base w a s
  | .sst d base w a => Sys2Proof.Machine.execSst d base w a s
  | .atom d a o c w => Sys2Proof.Machine.execAtom d a o c w s
  | .atomr d a o c w => Sys2Proof.Machine.execAtomr d a o c w s
  | .cas d a c w => Sys2Proof.Machine.execCas d a c w s
  | .pref h base a => Sys2Proof.Machine.execPref h base a s
  | .fence c k => Sys2Proof.Machine.execFence c k s
  | .cflush base a => Sys2Proof.Machine.execCflush base a s
  | .cinv base a => Sys2Proof.Machine.execCinv base a s
  | .tfence a c => Sys2Proof.Machine.execTfence a c s
  | .tfenceAll c => Sys2Proof.Machine.execTfenceAll c s
  | .rstrel d base w a => Sys2Proof.Machine.execRstrel d base w a s
  | .rstarv d base w a => Sys2Proof.Machine.execRstarv d base w a s
  | .rfence d a w => Sys2Proof.Machine.execRfence d a w s
  | .cpy base r o => Sys2Proof.Machine.execCpy base r o s
  | .cpyr base r o => Sys2Proof.Machine.execCpyr base r o s
  | .cpym base r o => Sys2Proof.Machine.execCpym base r o s
  | .cpyt o a n g => Sys2Proof.Machine.execCpyt o a n g s
  | .cpywait m => Sys2Proof.Machine.execCpywait m s
  | .cpyq d a c n => Sys2Proof.Machine.execCpyq d a c n s
  | .cpystatCount d => Sys2Proof.Machine.execCpystatCount d s
  | .cpystatBitmap d => Sys2Proof.Machine.execCpystatBitmap d s
  | .cpystatTags d => Sys2Proof.Machine.execCpystatTags d s
  | .cpycan d a => Sys2Proof.Machine.execCpycan d a s
  | .cpycanAll d => Sys2Proof.Machine.execCpycanAll d s
  | .tdef d a => Sys2Proof.Machine.execTdef d a s
  | .tld d t f a => Sys2Proof.Machine.execTld d t f a s
  | .tst d t f a => Sys2Proof.Machine.execTst d t f a s
  | .tldc d t f a => Sys2Proof.Machine.execTldc d t f a s
  | .tarm t a => Sys2Proof.Machine.execTarm t a s
  | .twait t => Sys2Proof.Machine.execTwait t s
  | .ttest d t => Sys2Proof.Machine.execTtest d t s
  | .tclr t => Sys2Proof.Machine.execTclr t s
  | .tfill t a => Sys2Proof.Machine.execTfill t a s
  | .tzero t => Sys2Proof.Machine.execTzero t s
  | .scld d t a => Sys2Proof.Machine.execScld d t a s
  | .mma k c a b m => Sys2Proof.Machine.execMma k c a b m s
  | .mmag k c a b x m => Sys2Proof.Machine.execMmag k c a b x m s
  | .mmas k c a b m => Sys2Proof.Machine.execMmas k c a b m s
  | .mmags k c a b x m => Sys2Proof.Machine.execMmags k c a b x m s
  | .mzero k m => Sys2Proof.Machine.execMzero k m s
  | .mrd d t f a => Sys2Proof.Machine.execMrd d t f a s
  | .mwr d t f a => Sys2Proof.Machine.execMwr d t f a s
  | .mstore k => Sys2Proof.Machine.execMstore k s
  | .mprogWrite a w => Sys2Proof.Machine.execMprogWrite a w s
  | .mprogRead d w => Sys2Proof.Machine.execMprogRead d w s
  | .entryPromotion launch team gang eid => Sys2Proof.Machine.execEntryPromotion launch team gang eid s
  | .pollingRetest launch team gang eid => Sys2Proof.Machine.execPollingRetest launch team gang eid s
  | .walkStart die => Sys2Proof.Machine.execWalkStart die s
  | .walkComplete die id => Sys2Proof.Machine.execWalkComplete die id s
  | .sectorFill core id => Sys2Proof.Machine.execSectorFill core id s
  | .memoryReturnComplete launch team gang id => Sys2Proof.Machine.execMemoryReturnComplete launch team gang id s
  | .storeQueueDrain launch team gang => Sys2Proof.Machine.execStoreQueueDrain launch team gang s
  | .storeAck launch team gang => Sys2Proof.Machine.execStoreAck launch team gang s
  | .dirtyLineWriteback core line => Sys2Proof.Machine.execDirtyLineWriteback core line s
  | .dirtyLineAgeExpiry core line => Sys2Proof.Machine.execDirtyLineAgeExpiry core line s
  | .cacheEviction core line => Sys2Proof.Machine.execCacheEviction core line s
  | .homeWriteback line => Sys2Proof.Machine.execHomeWriteback line s
  | .wayReductionLine func stack line => Sys2Proof.Machine.execWayReductionLine func stack line s
  | .wayReductionComplete func => Sys2Proof.Machine.execWayReductionComplete func s
  | .routerPacket k => Sys2Proof.Machine.execRouterPacket k s
  | .rstrelPerform src launch team gang => Sys2Proof.Machine.execRstrelPerform src launch team gang s
  | .fabricRetryTimer core id => Sys2Proof.Machine.execFabricRetryTimer core id s
  | .fabricAttemptTimeout core id => Sys2Proof.Machine.execFabricAttemptTimeout core id s
  | .copyElementLand core id chunk => Sys2Proof.Machine.execCopyElementLand core id chunk s
  | .copyComplete core id => Sys2Proof.Machine.execCopyComplete core id s
  | .cpytComplete core id => Sys2Proof.Machine.execCpytComplete core id s
  | .matrixOpStart core id => Sys2Proof.Machine.execMatrixOpStart core id s
  | .matrixKStep core id => Sys2Proof.Machine.execMatrixKStep core id s
  | .matrixOpComplete core id => Sys2Proof.Machine.execMatrixOpComplete core id s
  | .poolGrant core uni => Sys2Proof.Machine.execPoolGrant core uni s
  | .queueNop func page => Sys2Proof.Machine.execQueueNop func page s
  | .queueLaunch func page => Sys2Proof.Machine.execQueueLaunch func page s
  | .queueCopy func page core => Sys2Proof.Machine.execQueueCopy func page core s
  | .queueWaittile func page => Sys2Proof.Machine.execQueueWaittile func page s
  | .queueWaitval func page => Sys2Proof.Machine.execQueueWaitval func page s
  | .waitvalPoll func page => Sys2Proof.Machine.execWaitvalPoll func page s
  | .queueSignal func page => Sys2Proof.Machine.execQueueSignal func page s
  | .queueFencemark func page => Sys2Proof.Machine.execQueueFencemark func page s
  | .clusterPlacement launch bay cores => Sys2Proof.Machine.execClusterPlacement launch bay cores s
  | .rangeSplit launch core => Sys2Proof.Machine.execRangeSplit launch core s
  | .teamExitRelease launch team => Sys2Proof.Machine.execTeamExitRelease launch team s
  | .successorListRead launch team => Sys2Proof.Machine.execSuccessorListRead launch team s
  | .launchComplete launch => Sys2Proof.Machine.execLaunchComplete launch s
  | .preemption func => Sys2Proof.Machine.execPreemption func s
  | .quiescenceReached func => Sys2Proof.Machine.execQuiescenceReached func s
  | .clusterRollback launch cluster bay => Sys2Proof.Machine.execClusterRollback launch cluster bay s
  | .watchdogHang func => Sys2Proof.Machine.execWatchdogHang func s
  | .partitionReset func cause => Sys2Proof.Machine.execPartitionReset func cause s
  | .invalidationComplete func => Sys2Proof.Machine.execInvalidationComplete func s
  | .precopyRound func => Sys2Proof.Machine.execPrecopyRound func s
  | .stopPhase func => Sys2Proof.Machine.execStopPhase func s
  | .mirrorWindowExpiry func => Sys2Proof.Machine.execMirrorWindowExpiry func s
  | .checkpointCapture func => Sys2Proof.Machine.execCheckpointCapture func s
  | .checkpointPartialTimeout func => Sys2Proof.Machine.execCheckpointPartialTimeout func s
  | .checkpointTimer func => Sys2Proof.Machine.execCheckpointTimer func s
  | .zeroLengthReadCompletion launch team gang => Sys2Proof.Machine.execZeroLengthReadCompletion launch team gang s
  | .pageReplyRetry owner id => Sys2Proof.Machine.execPageReplyRetry owner id s
  | .pageReplyRefuse owner id => Sys2Proof.Machine.execPageReplyRefuse owner id s
  | .patrolScrub sector => Sys2Proof.Machine.execPatrolScrub sector s
  | .linkDown port => Sys2Proof.Machine.execLinkDown port s
  | .fabricRead p => Sys2Proof.Machine.execFabricRead p s
  | .fabricStore p => Sys2Proof.Machine.execFabricStore p s
  | .fabricAtomic p => Sys2Proof.Machine.execFabricAtomic p s
  | .fabricRstrel p => Sys2Proof.Machine.execFabricRstrel p s
  | .fabricRstarv p => Sys2Proof.Machine.execFabricRstarv p s
  | .fabricReducingWrite p => Sys2Proof.Machine.execFabricReducingWrite p s
  | .fabricClosePacket p => Sys2Proof.Machine.execFabricClosePacket p s
  | .fabricOk r k data poison => Sys2Proof.Machine.execFabricOk r k data poison s
  | .fabricNack r k kind => Sys2Proof.Machine.execFabricNack r k kind s
  | .nackMoved r k => Sys2Proof.Machine.execNackMoved r k s
  | .fabricFault r k code detail => Sys2Proof.Machine.execFabricFault r k code detail s
  | .tlbInvalidationMessage src id func all page => Sys2Proof.Machine.execTlbInvalidationMessage src id func all page s
  | .tlbInvalidationAck id dev => Sys2Proof.Machine.execTlbInvalidationAck id dev s
  | .doorbellWrite func page => Sys2Proof.Machine.execDoorbellWrite func page s
  | .faultRecordWrite => Sys2Proof.Machine.execFaultRecordWrite s
  | .teamResume func value => Sys2Proof.Machine.execTeamResume func value s
  | .svcReplySeq func value => Sys2Proof.Machine.execSvcReplySeq func value s
  | .svcReplyValue func value => Sys2Proof.Machine.execSvcReplyValue func value s
  | .imageRestore func image bays => Sys2Proof.Machine.execImageRestore func image bays s
  | .tagParityError level unit line => Sys2Proof.Machine.execTagParityError level unit line s
  | .thermalThrottle => Sys2Proof.Machine.execThermalThrottle s
  | .thermalShutdown => Sys2Proof.Machine.execThermalShutdown s
  | .bringUp => Sys2Proof.Machine.execBringUp s
  | .firmwareLoad image sig => Sys2Proof.Machine.execFirmwareLoad image sig s
  | .attestationRequest func nonce => Sys2Proof.Machine.execAttestationRequest func nonce s
  | .hostWindowRead func off n => Sys2Proof.Machine.execHostWindowRead func off n s
  | .hostWindowWrite func off bytes => Sys2Proof.Machine.execHostWindowWrite func off bytes s
  | .mctpRead what => Sys2Proof.Machine.execMctpRead what s
  | .registerWrite win off value => Sys2Proof.Machine.execRegisterWrite win off value s
  | .ringSetup win func ring value => Sys2Proof.Machine.execRingSetup win func ring value s
  | .ringReadIndexWrite func ring value => Sys2Proof.Machine.execRingReadIndexWrite func ring value s
  | .errcntClear func index value => Sys2Proof.Machine.execErrcntClear func index value s
  | .statusClear func value => Sys2Proof.Machine.execStatusClear func value s
  | .queueUnbind func page => Sys2Proof.Machine.execQueueUnbind func page s
  | .queueBind func page => Sys2Proof.Machine.execQueueBind func page s
  | .queueSelect func page => Sys2Proof.Machine.execQueueSelect func page s
  | .queueRestart func page => Sys2Proof.Machine.execQueueRestart func page s
  | .configWrite win func off value => Sys2Proof.Machine.execConfigWrite win func off value s
  | .stage2Invalidate func value => Sys2Proof.Machine.execStage2Invalidate func value s
  | .gridWrite value => Sys2Proof.Machine.execGridWrite value s
  | .migrateStart func => Sys2Proof.Machine.execMigrateStart func s
  | .migrateStop func => Sys2Proof.Machine.execMigrateStop func s
  | .migrateForceStop func => Sys2Proof.Machine.execMigrateForceStop func s
  | .migrateAbandon func => Sys2Proof.Machine.execMigrateAbandon func s
  | .migrateReceive func => Sys2Proof.Machine.execMigrateReceive func s
  | .checkpointAtStep func => Sys2Proof.Machine.execCheckpointAtStep func s
  | .checkpointByTimer func => Sys2Proof.Machine.execCheckpointByTimer func s
  | .recordMode func => Sys2Proof.Machine.execRecordMode func s
  | .replayMode func => Sys2Proof.Machine.execReplayMode func s
  | .normalMode func => Sys2Proof.Machine.execNormalMode func s
  | .heldRequestReplay func => Sys2Proof.Machine.execHeldRequestReplay func s
  | .forwardPacket p => Sys2Proof.Machine.execForwardPacket p s
  | .checkpointQuery func src => Sys2Proof.Machine.execCheckpointQuery func src s
  | .checkpointQueryReply func src high => Sys2Proof.Machine.execCheckpointQueryReply func src high s
  | .checkpointStepSet func value => Sys2Proof.Machine.execCheckpointStepSet func value s
  | .keySlotLoad slot key router => Sys2Proof.Machine.execKeySlotLoad slot key router s
  | .linkUp port => Sys2Proof.Machine.execLinkUp port s
  | .configurationRequest write sriov => Sys2Proof.Machine.execConfigurationRequest write sriov s

end Sys2Proof.Machine
end

