-- ==== Sys2Proof/Machine/Issue.lean ====
section
/-! DEFINITION. Issue (13 R287 to R290, 02 R16, R23, R37, R38): the choice of a gang and an entry of a quarter, fetching and decoding
at the entry, and the bundle. -/

namespace Sys2Proof.Machine

/-! ### Which entry issues -/

/-- Does a clause header hold the entry? Its flags are tested once, at the moment they read zero (02 R19). -/
def Entry.atHeader (e : Entry) : Bool :=
  match e.st with
  | .stalled (.flags _) => e.resume == .progress
  | _ => false

/-- May a gang's entries issue at all? -/
def State.gangRuns (s : State) (t : Team) (g : Gang) : Bool :=
  !g.ended && t.st == .running && !t.stopped && !g.reachedStep && !(s.func t.func).frozen

/-- The eligible entries of a gang (13 R288). -/
def State.eligibles (s : State) (t : Team) (g : Gang) : List Entry :=
  if s.gangRuns t g then g.frontier.filter fun e => s.eligible t.launch t.num g.idx g e else []

/-- Is `x` chosen before `y` (13 R288)? -/
def Entry.before (x y : Entry) : Bool :=
  let tie := decide (y.prio < x.prio) ||
    (x.prio == y.prio && (decide (x.pc < y.pc) || (x.pc == y.pc && decide (firstLane x.mask < firstLane y.mask))))
  if x.atHeader != y.atHeader then x.atHeader
  else
    match x.promoted, y.promoted with
    | some a, some b => decide (a < b) || (a == b && tie)
    | some _, none => true
    | none, some _ => false
    | none, none => tie

/-- The entry to issue. One that yielded goes after a bundle of every entry that was eligible then (13 R296). -/
def chooseEntry (es : List Entry) : Option Entry :=
  let free := es.filter fun e => e.atHeader || !(e.yielded.any fun k => es.any fun x => x.eid == k)
  match (if free.isEmpty then es else free) with
  | [] => none
  | e :: rest => some (rest.foldl (fun b x => if x.before b then x else b) e)

/-- Gangs of a quarter (core × 4 + quarter), by slot. -/
def State.quarterSlots (s : State) (q : Nat) : List (Team × Gang) :=
  (s.teams.filter (·.core == q / 4)).flatMap fun t => (t.gangs.filter fun g => g.idx % 4 == q % 4).map fun g => (t, g)

def State.mayIssue (s : State) (x : Team × Gang) : Bool := !(s.eligibles x.1 x.2).isEmpty

/-- Gangs of a quarter with an eligible entry. -/
def State.quarterGangs (s : State) (q : Nat) : List (Team × Gang) := (s.quarterSlots q).filter s.mayIssue

/-- The gang whose last issue is oldest. -/
def oldestGang : List (Team × Gang) → Option (Team × Gang)
  | [] => none
  | x :: rest => some (rest.foldl (fun b y => if y.2.lastIssue < b.2.lastIssue then y else b) x)

/-- Position of the gang that issued last, the first gang's when none has issued. -/
def lastIssuer (l : List (Team × Gang)) : Nat :=
  let m := l.foldl (fun m x => max m x.2.lastIssue) 0
  if m = 0 then l.length else l.findIdx fun x => x.2.lastIssue == m

/-- The gang that issues (13 R288): the one whose last issue is oldest. In record and replay mode the slots take turns (15 R356). -/
def State.chooseGang (s : State) (q : Nat) : Option (Team × Gang) :=
  match oldestGang (s.quarterGangs q) with
  | none => none
  | some x =>
    if (s.func x.1.func).fixedOrder then
      let l := s.quarterSlots q
      let k := lastIssuer l + 1
      (l.drop k ++ l.take k).find? s.mayIssue
    else some x

/-! ### The bundle -/

def isTransfer : Instr → Bool
  | .bra _ => true
  | .call _ => true
  | .brx _ => true
  | .ret _ => true
  | .exit _ _ => true
  | _ => false
def isHeader : Instr → Bool
  | .clauseHeader _ _ _ _ => true
  | _ => false

/-- A word fetched for an entry: its value and length in bytes; or the state after a fetch that gave none. -/
inductive Found where
  | word (w len : Nat) (s : State)
  | gone (s : State)

/-- Fetch the instruction at an address, each halfword with its own fault (02 R16). -/
def State.fetchWord (s : State) (t : Team) (gi eid stamp pc : Nat) : Found :=
  match s.fetch t.core t.func stamp pc with
  | (.walk, s1) => .gone (s1.fetchWalk t.launch t.num gi eid pc)
  | (.fault f, s1) => .gone (s1.fetchFault t.launch t.num gi eid pc f)
  | (.half lo, s1) =>
    if lo.toNat % 2 = 0 then .word lo.toNat 2 s1
    else
      let a := (pc + 2) % 2 ^ 55
      match s1.fetch t.core t.func stamp a with
      | (.walk, s2) => .gone (s2.fetchWalk t.launch t.num gi eid a)
      | (.fault f, s2) => .gone (s2.fetchFault t.launch t.num gi eid a f)
      | (.half hi, s2) => .word (lo.toNat + 65536 * hi.toNat) 4 s2

/-- Decode a fetched word (02 R37). -/
def decodeFetched (w len : Nat) : Except DecodeErr Instr := if len = 2 then decode16 w else decode32 w

/-- The checks at issue that fault ILL_ENC on the whole entry: decoding, fields, and the place of a transfer (02 R23, R28, R38).
The result is an instruction with the state, or the state after a fault or a wait. -/
inductive Ready where
  | go (i : Instr) (s : State)
  | gone (s : State)

/-- Is a fetched word a clause header? -/
def headerWord (w len : Nat) : Bool := match decodeFetched w len with
  | .ok i => isHeader i
  | .error _ => false

/-- An entry whose lanes wait for the translations or the start of a load goes no further than a header (log 40). Only a word that does not
decode has the address as its detail; a field or a place has 0 (14 R380). -/
def State.screen (s : State) (t : Team) (gi eid stamp pc w len : Nat) (headerOnly : Bool) : Ready :=
  let ill (s : State) (detail : Nat) : Ready := .gone (s.illEnc t.launch t.num gi eid detail pc (BitVec.ofNat 32 w))
  let held := match s.gang? t.launch t.num gi with
    | some g => ((g.entry? eid).map g.held).getD false
    | none => false
  if held && !headerWord w len then
    .gone (s.modEntry t.launch t.num gi eid fun e => { e with st := .stalled .walk, promoted := none })
  else
  match decodeFetched w len with
  | .error .decoding => ill s pc
  | .error _ => ill s 0
  | .ok i =>
    if headerOnly && !isHeader i then ill s 0
    else if !wellFormed i then ill s 0
    else if isTransfer i then
      let a := (pc + len) % 2 ^ 55
      match s.fetch t.core t.func stamp a with
      | (.walk, s1) => .gone (s1.fetchWalk t.launch t.num gi eid a)
      | (.fault f, s1) => .gone (s1.fetchFault t.launch t.num gi eid a f)
      | (.half h, s1) => if h.toNat % 16 = 15 then .go i s1 else ill s1 0
    else .go i s

/-- Count of an issue (13 R288): the entry's age is cleared, with that of the entries that the bundle split off (R289), and every
other eligible entry ages by 1; an entry that had yielded to this one waits for it no more. `old` are the entries before the issue. -/
def Gang.aged (g : Gang) (eid : Nat) (old others : List Nat) : Gang :=
  g.mapEntries fun e =>
    if e.eid == eid || !old.contains e.eid then { e with age := 0 }
    else
      let e1 := { e with yielded := e.yielded.filter (· != eid) }
      if others.contains e.eid then { e1 with age := e.age + 1 } else e1

/-- Entries of a gang that an issue brought to age 256: they are promoted before anything else happens (13 R290). -/
def Gang.dueEntries (g : Gang) (others : List Nat) : List Nat :=
  (g.frontier.filter fun e => others.contains e.eid && e.promoted.isNone && decide (256 ≤ e.age)).map (·.eid)

/-- Instructions that end a region whatever their operands (02 Table 2-21, R40). -/
def endsRegion : Instr → Bool
  | .atom _ _ _ _ _ => true
  | .atomr _ _ _ _ _ => true
  | .cas _ _ _ _ => true
  | .rstrel _ _ _ _ => true
  | .rstarv _ _ _ _ => true
  | .rfence _ _ _ => true
  | .cpy _ _ _ => true
  | .cpyr _ _ _ => true
  | .cpym _ _ _ => true
  | .cpyt _ _ _ _ => true
  | .cpywait _ => true
  | .cpyq _ _ _ _ => true
  | .cpystatCount _ => true
  | .cpystatBitmap _ => true
  | .cpystatTags _ => true
  | .cpycan _ _ => true
  | .cpycanAll _ => true
  | .tarm _ _ => true
  | .tldc _ _ _ _ => true
  | .tclr _ => true
  | .tfill _ _ => true
  | .barinit _ _ => true
  | .bararv _ => true
  | .barwait _ => true
  | .barsync _ => true
  | .barexp _ _ => true
  | .cvsign _ => true
  | .regclaim _ _ => true
  | .regrel _ _ => true
  | .exit _ _ => true
  | .svc _ _ _ => true
  | .mma _ _ _ _ _ => true
  | .mmag _ _ _ _ _ _ => true
  | .mmas _ _ _ _ _ => true
  | .mmags _ _ _ _ _ _ => true
  | _ => false

/-- A region-ending instruction ends its region also when every active lane has faulted: its meaning has begun none, and the entry goes
on past it (02 R39). -/
def State.closeRegion (s : State) (c : Cur) (i : Instr) (num : Nat) : State :=
  match s.gang? c.launch c.team c.gang with
  | none => s
  | some g =>
    let past := ((g.entry? c.eid).map fun e => e.pc == c.nextPc).getD false
    if endsRegion i && c.mask != 0 && past && g.region.num == num then s.newRegion c.launch c.team c.gang else s

/-- Run an instruction for the bundle `c`, then clear the bundle. -/
def State.runBundle (s : State) (c : Cur) (i : Instr) : Out :=
  match exec i { s with cur := some c } with
  | .next s1 =>
    .next (({ s1 with cur := none } : State).closeRegion c i (((s.gang? c.launch c.team c.gang).map (·.region.num)).getD 0))
  | r => r

/-- Run the instruction that stands at the entry, PRED and all. -/
def State.issueAt (s : State) (t : Team) (g : Gang) (e : Entry) : Out :=
  let stamp := ((s.launch? t.launch).map (·.stamp)).getD 0
  match s.fetchWord t g.idx e.eid stamp e.pc with
  | .gone s1 => .next s1
  | .word w len s1 =>
    match s1.screen t g.idx e.eid stamp e.pc w len (e.setA == 16) with
    | .gone s2 => .next s2
    | .go i s2 =>
      let seq := if e.since = 0 then s2.fresh + 1 else e.since
      let s3 := (if e.since = 0 then { s2 with fresh := s2.fresh + 2 } else s2).modEntry t.launch t.num g.idx e.eid fun e =>
        { e with since := seq }
      let c : Cur := ⟨t.launch, t.num, g.idx, e.eid, e.pc, e.pc, e.mask, BitVec.ofNat 32 w, len, seq⟩
      match i with
      | .pred p n =>
        match exec (.pred p n) { s3 with cur := some c } with
        | .next s4 =>
          match s4.cur with
          | none => .next s4
          | some c1 =>
            let s5 := { s4 with cur := none }
            match s5.fetchWord t g.idx e.eid stamp c1.pc with
            | .gone s6 => .next s6
            | .word w1 len1 s6 =>
              match s6.screen t g.idx e.eid stamp c1.pc w1 len1 false with
              | .gone s7 => .next s7
              | .go j s7 => s7.runBundle { c1 with word := BitVec.ofNat 32 w1, len := len1 } j
        | r => r
      | i => s3.runBundle c i

/-- Does the entry wait for a translation or a page reply before its instruction has begun (02 R16)? -/
def Entry.fetching (e : Entry) : Bool :=
  match e.st with
  | .stalled .walk => true
  | .stalled .walkFull => true
  | .parked _ _ => true
  | _ => false

/-- Does the issue of an entry retire a clause (14 R334)? It does when the next clause header stands directly after its instruction, and
at a header only when the clause is empty and its wait satisfied: `at_` is where the entry stands then. A control transfer always has a
header after it. -/
def State.retires (s : State) (t : Team) (e : Entry) (at_ : Option Nat) : Bool :=
  let (a, w) := s.instrAt t.core t.func e.pc
  let next := (a + if w.toNat % 2 = 0 then 2 else 4) % 2 ^ 55
  s.headerAt t.core t.func next && (!s.headerAt t.core t.func e.pc || at_ == some next)

/-- What counts as an issue (13 R288): `s` is the state before it, `s1` the state that the bundle gave. An entry that its instruction
or its fetch holds back has not issued, and keeps its place (06 R127); a header takes no slot (02 R18). Entries that reach age 256 are promoted next (13 R290). -/
def State.countIssue (s : State) (t : Team) (old : Gang) (e : Entry) (s1 : State) : State :=
  let g := old
  let others := (s.eligibles t g).map (·.eid)
  let n := s1.fresh
  let s2 := { s1 with fresh := n + 1 }
  let after := (s2.gang? t.launch t.num g.idx).bind (·.entry? e.eid)
  let held := match after with
    | some x => x.st != .ready && (x.since != 0 || x.fetching)
    | none => false
  let header := s.headerAt t.core t.func e.pc
  let s3 := s2.modGang t.launch t.num g.idx fun g =>
    if held || header then g else { g.aged e.eid (old.frontier.map (·.eid)) others with lastIssue := n }
  let due := ((s3.gang? t.launch t.num g.idx).map (·.dueEntries others)).getD []
  let s4 := { s3 with agenda := due.map (fun x => Act.event (.entryPromotion t.launch t.num g.idx x)) ++ s3.agenda }
  if !held && s.retires t e (after.map (·.pc)) then s4.modFunc t.func fun f => { f with retired := s4.now } else s4

/-- Issue one bundle of an entry. One whose records the reporting port cannot hold stalls instead (14 R313). -/
def State.issueEntry (s : State) (t : Team) (g : Gang) (e : Entry) : Out :=
  match s.issueAt t g e with
  | .next s1 =>
    .next (if s.overfills s1 then
        s.modEntry t.launch t.num g.idx e.eid fun x => { x with st := .stalled .port, promoted := none }
      else s.countIssue t g e s1)
  | r => r

/-- A quarter issues (13 R288). -/
def State.issueQuarter (s : State) (q : Nat) : Out :=
  match s.chooseGang q with
  | none => .next s
  | some (t, g) =>
    match chooseEntry (s.eligibles t g) with
    | none => .next s
    | some e => s.issueEntry t g e

/-- Quarters with something to issue. -/
def State.busyQuarters (s : State) : List Nat :=
  ((s.teams.flatMap fun t => t.gangs.map fun g => t.core * 4 + g.idx % 4).foldl (fun l q => insertNat q l) []).filter fun q =>
    !(s.quarterGangs q).isEmpty

/-- MODEL: the quarters take turns, each from the one after the last. -/
def State.pickQuarter (s : State) : Option Nat :=
  match s.busyQuarters with
  | [] => none
  | q :: rest => match (q :: rest).find? (fun x => decide (s.nextQuarter ≤ x)) with
    | some x => some x
    | none => some q

end Sys2Proof.Machine
end

