-- ==== Sys2Proof/Machine/Events.lean ====
section
/-! DEFINITION. The events that the device brings about by itself, and their order in this model (log 9): those of hardware agents
(walkers, caches, router, copy units, engines, scheduler, dispatchers, timers). What comes from outside (host, peers, links, soft errors,
heat) is an event too, but only a stimulus places it on the agenda. -/

namespace Sys2Proof.Machine

/-- An event that the device may bring about. -/
abbrev Auto := State → Out

/-- Walks, misses and the operations of gangs. -/
def State.gangEvents (s : State) : List Auto :=
  s.teams.flatMap fun t => t.gangs.flatMap fun g =>
    (g.ops.map fun o => execMemoryReturnComplete t.launch t.num g.idx o.id) ++
    (if g.stq.isEmpty then [] else [execStoreQueueDrain t.launch t.num g.idx, execStoreAck t.launch t.num g.idx]) ++
    (g.frontier.map fun e => execPollingRetest t.launch t.num g.idx e.eid) ++
    (if g.hostWrote then [execZeroLengthReadCompletion t.launch t.num g.idx] else []) ++
    (if g.ops.any (·.kind.isRfence) then [fun s => .next (s.tryRfence t.launch t.num g.idx)] else [])

def State.dieEvents (s : State) : List Auto :=
  s.dies.flatMap fun d =>
    [execWalkStart d.id] ++ ((d.walks.filter (·.started)).map fun w => execWalkComplete d.id w.id) ++
    (d.fifo.take 1).map execHomeWriteback

/-- Caches, copy units, engine, pools and requester of a core. -/
def State.coreEvents (s : State) : List Auto :=
  s.cores.flatMap fun c =>
    (c.slots.map fun x => execSectorFill c.id x.id) ++ [fun s => .next (s.startLoads c.id)] ++
    ((c.markers.flatMap (·.lines)).map fun a => execDirtyLineWriteback c.id a) ++
    (c.fifo.map fun f => execDirtyLineAgeExpiry c.id f.line) ++
    (c.copies.flatMap fun x => ((rangeFrom 0 x.chunks.length).map fun k => execCopyElementLand c.id x.id k) ++ [execCopyComplete c.id x.id]) ++
    (c.cpyts.flatMap fun x =>
      (x.lanes.map fun y => execCopyElementLand c.id x.id y.lane) ++ [execCpytComplete c.id x.id]) ++
    (c.engine.flatMap fun o => [execMatrixOpStart c.id o.id, execMatrixKStep c.id o.id, execMatrixOpComplete c.id o.id]) ++
    (if c.claims.isEmpty then [] else [execPoolGrant c.id false, execPoolGrant c.id true]) ++
    (c.reqs.flatMap fun r => [execFabricRetryTimer c.id r.id, execFabricAttemptTimeout c.id r.id])

/-- Router, with requests and replies, stream table, and the acknowledgements of peers' invalidations. -/
def State.fabricEvents (s : State) : List Auto :=
  ((rangeFrom 0 (s.router.length + s.replies.length)).map fun k => execRouterPacket k) ++
  (s.segments.map fun x => execRstrelPerform x.src x.launch x.team x.gang) ++
  (if s.tfences.any (·.ack.isSome) then [fun s => .next s.ackInvals] else [])

/-- A core of the partition that has a free copy record. -/
def State.copyCore (s : State) (func : Nat) : Nat :=
  (((s.func func).bayList.flatMap fun b => rangeFrom (8 * b) 8).find? fun k =>
    !(s.core k).outOfUse && decide ((s.core k).copies.length < 16)).getD (8 * ((s.func func).bayList.headD 0))

/-- The queue scheduler of a function. -/
def State.queueEvents (s : State) (f : Func) : List Auto :=
  f.queues.flatMap fun q =>
    [execQueueNop f.id q.page, execQueueLaunch f.id q.page, execQueueCopy f.id q.page (s.copyCore f.id), execQueueWaittile f.id q.page,
     execQueueWaitval f.id q.page, execWaitvalPoll f.id q.page, execQueueSignal f.id q.page, execQueueFencemark f.id q.page]

/-- The dispatcher of a function's partition. -/
def State.dispatchEvents (s : State) (f : Func) : List Auto :=
  match s.dispatchNext f.id with
  | none => []
  | some l =>
    match s.anyChoice f.id l.pkt with
    | none => []
    | some (bay, cores) => [execClusterPlacement l.id bay cores]

/-- A saved image goes back by itself: the end of a slice is the device's own (14 R321). -/
def Func.restoreEvents (f : Func) : List Auto :=
  match f.image with
  | some img => if f.frozen && f.migration.isNone then [execImageRestore f.id img []] else []
  | none => []

/-- Caches' way reductions of a function. -/
def State.wayEvents (s : State) (f : Func) : List Auto :=
  if f.oldHways = 0 ∧ f.oldSways = 0 then []
  else
    ((s.home.filter fun l => l.func == f.id && f.goneHome l.way).map fun l => execWayReductionLine f.id false l.addr) ++
    ((s.stack.filter fun l => l.func == f.id && f.goneStack l.way).map fun l => execWayReductionLine f.id true l.addr) ++
    [execWayReductionComplete f.id]

/-- Migration and checkpoint steps of a function, and requests that its home has held back. -/
def State.migrationEvents (s : State) (f : Func) : List Auto :=
  (match f.migration with
   | some m => [if m.phase = 0 then execPrecopyRound f.id else execStopPhase f.id]
   | none => []) ++
  (if f.mirror.isSome then [execMirrorWindowExpiry f.id] else []) ++
  (if f.checkpoint.isSome then [execCheckpointCapture f.id, execCheckpointPartialTimeout f.id, execCheckpointTimer f.id] else []) ++
  (if f.hold.isEmpty && !(s.tileWait.any (·.func == f.id)) then [] else [execHeldRequestReplay f.id])

def State.funcEvents (s : State) : List Auto :=
  s.funcs.flatMap fun f =>
    s.queueEvents f ++ s.dispatchEvents f ++ (if f.frozen then [execQuiescenceReached f.id] else []) ++ f.restoreEvents ++
    s.wayEvents f ++ s.migrationEvents f ++ [execInvalidationComplete f.id, execWatchdogHang f.id]

/-- Launches and teams. -/
def State.launchEvents (s : State) : List Auto :=
  (s.teams.flatMap fun t =>
    match t.st with
    | .running => []
    | .ending => [execTeamExitRelease t.launch t.num]
    | .reading =>
      if (s.core t.core).reqs.any (fun r => match r.owner with
          | .fetch who _ => who == .list t.launch t.num
          | _ => false) then []
      else [execSuccessorListRead t.launch t.num]
    | .waiting => [execClusterRollback t.launch t.cluster (((s.func t.func).bayList).headD 0)]) ++
  (s.launches.flatMap fun l =>
    [execLaunchComplete l.id] ++
    (if l.pkt.range then ((s.func l.func).bayList.flatMap fun b => rangeFrom (8 * b) 8).map fun k => execRangeSplit l.id k else []))

/-- Every event that may be due, before bring-up only its next step. -/
def State.autoEvents (s : State) : List Auto :=
  if s.bringUp < 5 then [execBringUp]
  else s.dieEvents ++ s.coreEvents ++ s.gangEvents ++ s.fabricEvents ++ s.funcEvents ++ s.launchEvents ++ [execFaultRecordWrite]

/-- Does an outcome differ from a next state equal to `s`? -/
def outMoves (s : State) : Out → Bool
  | .next t => decide (t ≠ s)
  | _ => true

/-- Does an outcome leave more records at a reporting port than it holds? Such work stalls (14 R313). -/
def outOverfills (s : State) : Out → Bool
  | .next t => s.overfills t
  | _ => false

/-- The first event of a list that changes the state and does not stall at a reporting port. -/
def firstMove (s : State) : List Auto → Option Out
  | [] => none
  | e :: rest =>
    let r := e s
    if outMoves s r && !outOverfills s r then some r else firstMove s rest

/-- MODEL. The event that happens next: the events are tried in turn, from a place that moves on with time. -/
def State.autoStep (s : State) : Option Out :=
  let l := s.autoEvents
  firstMove s (let k := s.now % max l.length 1; l.drop k ++ l.take k)

/-! ### One step -/

/-- A step that does something takes a cycle. -/
def tick : Out → Out
  | .next t => .next { t with now := t.now + 1 }
  | r => r

/-- MODEL. The head of the agenda if there is one; else quarters with a bundle to issue take turns with the events; else a cycle passes. -/
def State.nextStep (s : State) : Out :=
  match s.agenda with
  | .event i :: rest => tick (exec i { s with agenda := rest })
  | .issue q :: rest => tick (State.issueQuarter { s with agenda := rest } q)
  | .upset u :: rest => .next ({ s with agenda := rest }.strike u)
  | .pass n :: rest => .next { s with agenda := rest, now := s.now + n }
  | [] =>
    match (if s.turn then none else s.pickQuarter) with
    | some q => tick (State.issueQuarter { s with turn := true, nextQuarter := q + 1 } q)
    | none =>
      let s1 := { s with turn := false }
      match s1.autoStep with
      | some r => tick r
      | none => .next { s1 with now := s.now + 1 }

end Sys2Proof.Machine
end

