-- ==== Sys2Proof/Machine/Load.lean ====
section
/-! DEFINITION. A program placed from outside (log 10): the host's driver, which this device does not hold, writes tables, code and a queue
packet; here the effect of all that on the state is made at once, for one instruction that the very next step issues. -/

namespace Sys2Proof.Machine

/-- Where the instruction stands: guest virtual, guest physical and device address alike. -/
abbrev codeBase : Nat := 0x20000

/-- Function that runs it. -/
abbrev codeFunc : Nat := 1

/-- Leaves of the page of `codeBase`: REL, read, write and execute (03 Tables 3-5 to 3-7). -/
def codeLeaf1 : W64 := 0x2001F
def codeLeaf2 : W64 := 0x2000F

/-- The instruction, zeros to the longest length, and a clause header for a transfer to stand before (02 R28). -/
def codeBytes (nbits w : Nat) : List Byte := leBytes (w % 2 ^ nbits) 4 ++ leBytes 0x80FF000F 4

/-- A launch of one team of one gang of 32 lanes, with every register of its quota. -/
def codePacket : LaunchPkt :=
  { range := false, inPlace := false, teams := 1, gangs := 1, lanes := 32, quotav := 64, quotas := 64, wb := 8, ab := 8, sb := 8, acc := 8
    tiles := 16, inhacc := 0, inht := 0, entry := codeBase, params := 0, inhv := 0, inhs := 0, x := 1, y := 1, z := 1, lo := 0, hi := 0
    raw := [] }

def codeLaunch (s : State) : Launch := ⟨s.launchId, codeFunc, none, none, 0, 0, codePacket, 1, 1, 0, 0, s.stamp, true⟩

/-- Its entry stands at the instruction, past any header. -/
def Gang.atCode (g : Gang) : Gang := { g with frontier := g.frontier.map fun e => { e with setA := 15, setB := 15 } }

def codeTeam (s : State) : Team :=
  let t := newTeam (codeLaunch s) 0 0 0 s.fresh (0, 0, 0, 0) 0 0
  { t with gangs := t.gangs.map Gang.atCode }

/-- Place an instruction: code in device memory and in no cache, its translation in core 0's TLB, a team in core 0 alone, and core 0's
quarter 0 to issue next. -/
def State.placeCode (s : State) (nbits w : Nat) : State :=
  let line := codeBase / 128
  let s1 : State :=
    { s with
      mem := cellPut s.mem codeBase (codeBytes nbits w)
      poison := s.poison.filter (· != sectorOf codeBase)
      flips := s.flips.filter fun x => x.1 != sectorOf codeBase
      dieFlips := s.dieFlips.filter (· != sectorOf codeBase)
      oldCode := s.oldCode.filter fun x => x.sector != sectorOf codeBase
      home := s.home.filter (·.addr != line)
      stack := s.stack.filter (·.addr != line)
      bringUp := 5
      linkUp := true
      cur := none
      launchCount := s.launchCount + 1
      fresh := s.fresh + 1
      launches := s.launches ++ [codeLaunch s]
      teams := s.teams.filter (·.core != 0) ++ [codeTeam s]
      agenda := [.issue 0] }
  (s1.modCore 0 fun c => { c with
      outOfUse := false, baton := .free, poolV := 32704, poolS := 32704
      tlb := tlbPut Config.coreTlb ⟨codeFunc, codeBase / 65536, false, codeLeaf1, 2, codeLeaf2, 2⟩ c.tlb }).modFunc codeFunc fun f =>
    { f with frozen := false, recmode := none, pend := [] }

end Sys2Proof.Machine
end

