-- ==== Sys2Proof/Laws/PerInstr.lean ====
section
/-! SUPPORT. Family Encode: the decoder reads an instruction back from its own encoding, one lemma for each constructor. -/

open Sys2Proof Sys2Proof.Machine

/-- Decoding the bytes of an instruction gives it back, with what follows them. An event has no bytes. -/
def Sys2Proof.Laws.Encode.Statement (i : Instr) : Prop :=
  size i ≠ 0 → ∀ rest : List Byte, decode (encode i ++ rest) = .ok (i, rest)

namespace Sys2Proof.Laws

theorem opByte_lt (a : Opnd) : opByte a < 256 := by
  have := a.reg.isLt; have := Bool.toNat_lt a.prism; have := Bool.toNat_lt a.last
  unfold opByte; omega

theorem opnd_opByte (a : Opnd) : opnd (opByte a) = a := by
  obtain ⟨l, p, r⟩ := a
  have hr := r.isLt
  have h7 : fld (opByte ⟨l, p, r⟩) 7 1 = l.toNat := by
    have := Bool.toNat_lt p; have := Bool.toNat_lt l; simp only [fld, opByte]; omega
  have h6 : fld (opByte ⟨l, p, r⟩) 6 1 = p.toNat := by
    have := Bool.toNat_lt p; have := Bool.toNat_lt l; simp only [fld, opByte]; omega
  have h0 : fld (opByte ⟨l, p, r⟩) 0 6 = r.toNat := by
    have := Bool.toNat_lt p; have := Bool.toNat_lt l; simp only [fld, opByte]; omega
  cases l <;> cases p <;> simp [opnd, h7, h6, h0]

theorem bool_toNat (n : Bool) : (n.toNat == 1) = n := by cases n <;> rfl

theorem byte_toNat (x : Nat) : (BitVec.ofNat 8 x).toNat = x % 256 := BitVec.toNat_ofNat x 8

/-- A 32-bit word is odd and decodes as a word. -/
theorem of32 {i : Instr} {w : Nat} (hs : size i = 4) (hw : encodeWord i = w) (hl : w < 2 ^ 32) (odd : w % 2 = 1)
    (h : decode32 w = .ok i) : Encode.Statement i := by
  intro _ rest
  have e : leNat [BitVec.ofNat 8 w, BitVec.ofNat 8 (w / 256), BitVec.ofNat 8 (w / 256 / 256), BitVec.ofNat 8 (w / 256 / 256 / 256)] = w := by
    simp only [leNat, byte_toNat]; omega
  have o : (BitVec.ofNat 8 w).toNat % 2 = 1 := by rw [byte_toNat]; omega
  simp only [encode, hs, hw, leBytes, List.cons_append, List.nil_append, decode, o, e, h]
  simp

/-- A 16-bit instruction is even and decodes as a halfword. -/
theorem of16 {i : Instr} {w : Nat} (hs : size i = 2) (hw : encodeWord i = w) (hl : w < 2 ^ 16) (even : w % 2 = 0)
    (h : decode16 w = .ok i) : Encode.Statement i := by
  intro _ rest
  have e : leNat [BitVec.ofNat 8 w, BitVec.ofNat 8 (w / 256)] = w := by simp only [leNat, byte_toNat]; omega
  have o : (BitVec.ofNat 8 w).toNat % 2 = 0 := by rw [byte_toNat]; omega
  simp only [encode, hs, hw, leBytes, List.cons_append, List.nil_append, decode, o, e, h]
  simp

end Sys2Proof.Laws

section Encoding

open Sys2Proof.Laws

set_option linter.unusedSimpArgs false
set_option Elab.async false

theorem Sys2Proof.Laws.Encode.clauseHeader (w : BitVec 12) (a : BitVec 4) (b : BitVec 4) (p : BitVec 8) : Sys2Proof.Laws.Encode.Statement (.clauseHeader w a b p) := by
  have _h0 := w.isLt
  have _h1 := a.isLt
  have _h2 := b.isLt
  have _h3 := p.isLt
  refine of32 rfl (w := 0xf + w.toNat * 0x10 + a.toNat * 0x10000 + b.toNat * 0x100000 + p.toNat * 0x1000000) rfl (by omega) (by omega) ?_
  generalize hw : 0xf + w.toNat * 0x10 + a.toNat * 0x10000 + b.toNat * 0x100000 + p.toNat * 0x1000000 = word
  have e0 : fld word 0 4 = 15 := by simp only [fld, ← hw]; omega
  have e1 : fld word 4 12 = w.toNat := by simp only [fld, ← hw]; omega
  have e2 : fld word 16 4 = a.toNat := by simp only [fld, ← hw]; omega
  have e3 : fld word 20 4 = b.toNat := by simp only [fld, ← hw]; omega
  have e4 : fld word 24 8 = p.toNat := by simp only [fld, ← hw]; omega
  simp [decode32, need, bv, bit, opnd_opByte, bool_toNat, e0, e1, e2, e3, e4]

theorem Sys2Proof.Laws.Encode.pred (p : BitVec 3) (n : Bool) : Sys2Proof.Laws.Encode.Statement (.pred p n) := by
  have _h0 := p.isLt
  have _h1 := Bool.toNat_lt n
  refine of16 rfl (w := 0x20 + p.toNat * 0x40 + n.toNat * 0x200) rfl (by omega) (by omega) ?_
  generalize hw : 0x20 + p.toNat * 0x40 + n.toNat * 0x200 = word
  have e0 : fld word 1 5 = 16 := by simp only [fld, ← hw]; omega
  have e1 : fld word 10 6 = 0 := by simp only [fld, ← hw]; omega
  have e2 : fld word 6 3 = p.toNat := by simp only [fld, ← hw]; omega
  have e3 : fld word 9 1 = n.toNat := by simp only [fld, ← hw]; omega
  simp [decode16, need, bv, bit, opnd_opByte, bool_toNat, e0, e1, e2, e3]

theorem Sys2Proof.Laws.Encode.nopC : Sys2Proof.Laws.Encode.Statement (.nopC) := by
  exact of16 rfl rfl (by decide) (by decide) rfl

theorem Sys2Proof.Laws.Encode.movC (d : BitVec 5) (b : BitVec 5) : Sys2Proof.Laws.Encode.Statement (.movC d b) := by
  have _h0 := d.isLt
  have _h1 := b.isLt
  refine of16 rfl (w := 0x0 + d.toNat * 0x40 + b.toNat * 0x800) rfl (by omega) (by omega) ?_
  generalize hw : 0x0 + d.toNat * 0x40 + b.toNat * 0x800 = word
  have e0 : fld word 1 5 = 0 := by simp only [fld, ← hw]; omega
  have e1 : fld word 6 5 = d.toNat := by simp only [fld, ← hw]; omega
  have e2 : fld word 11 5 = b.toNat := by simp only [fld, ← hw]; omega
  simp [decode16, need, bv, bit, opnd_opByte, bool_toNat, e0, e1, e2]

theorem Sys2Proof.Laws.Encode.iaddC (d : BitVec 5) (b : BitVec 5) : Sys2Proof.Laws.Encode.Statement (.iaddC d b) := by
  have _h0 := d.isLt
  have _h1 := b.isLt
  refine of16 rfl (w := 0x2 + d.toNat * 0x40 + b.toNat * 0x800) rfl (by omega) (by omega) ?_
  generalize hw : 0x2 + d.toNat * 0x40 + b.toNat * 0x800 = word
  have e0 : fld word 1 5 = 1 := by simp only [fld, ← hw]; omega
  have e1 : fld word 6 5 = d.toNat := by simp only [fld, ← hw]; omega
  have e2 : fld word 11 5 = b.toNat := by simp only [fld, ← hw]; omega
  simp [decode16, need, bv, bit, opnd_opByte, bool_toNat, e0, e1, e2]

theorem Sys2Proof.Laws.Encode.isubC (d : BitVec 5) (b : BitVec 5) : Sys2Proof.Laws.Encode.Statement (.isubC d b) := by
  have _h0 := d.isLt
  have _h1 := b.isLt
  refine of16 rfl (w := 0x4 + d.toNat * 0x40 + b.toNat * 0x800) rfl (by omega) (by omega) ?_
  generalize hw : 0x4 + d.toNat * 0x40 + b.toNat * 0x800 = word
  have e0 : fld word 1 5 = 2 := by simp only [fld, ← hw]; omega
  have e1 : fld word 6 5 = d.toNat := by simp only [fld, ← hw]; omega
  have e2 : fld word 11 5 = b.toNat := by simp only [fld, ← hw]; omega
  simp [decode16, need, bv, bit, opnd_opByte, bool_toNat, e0, e1, e2]

theorem Sys2Proof.Laws.Encode.imulC (d : BitVec 5) (b : BitVec 5) : Sys2Proof.Laws.Encode.Statement (.imulC d b) := by
  have _h0 := d.isLt
  have _h1 := b.isLt
  refine of16 rfl (w := 0x6 + d.toNat * 0x40 + b.toNat * 0x800) rfl (by omega) (by omega) ?_
  generalize hw : 0x6 + d.toNat * 0x40 + b.toNat * 0x800 = word
  have e0 : fld word 1 5 = 3 := by simp only [fld, ← hw]; omega
  have e1 : fld word 6 5 = d.toNat := by simp only [fld, ← hw]; omega
  have e2 : fld word 11 5 = b.toNat := by simp only [fld, ← hw]; omega
  simp [decode16, need, bv, bit, opnd_opByte, bool_toNat, e0, e1, e2]

theorem Sys2Proof.Laws.Encode.andC (d : BitVec 5) (b : BitVec 5) : Sys2Proof.Laws.Encode.Statement (.andC d b) := by
  have _h0 := d.isLt
  have _h1 := b.isLt
  refine of16 rfl (w := 0x8 + d.toNat * 0x40 + b.toNat * 0x800) rfl (by omega) (by omega) ?_
  generalize hw : 0x8 + d.toNat * 0x40 + b.toNat * 0x800 = word
  have e0 : fld word 1 5 = 4 := by simp only [fld, ← hw]; omega
  have e1 : fld word 6 5 = d.toNat := by simp only [fld, ← hw]; omega
  have e2 : fld word 11 5 = b.toNat := by simp only [fld, ← hw]; omega
  simp [decode16, need, bv, bit, opnd_opByte, bool_toNat, e0, e1, e2]

theorem Sys2Proof.Laws.Encode.orC (d : BitVec 5) (b : BitVec 5) : Sys2Proof.Laws.Encode.Statement (.orC d b) := by
  have _h0 := d.isLt
  have _h1 := b.isLt
  refine of16 rfl (w := 0xa + d.toNat * 0x40 + b.toNat * 0x800) rfl (by omega) (by omega) ?_
  generalize hw : 0xa + d.toNat * 0x40 + b.toNat * 0x800 = word
  have e0 : fld word 1 5 = 5 := by simp only [fld, ← hw]; omega
  have e1 : fld word 6 5 = d.toNat := by simp only [fld, ← hw]; omega
  have e2 : fld word 11 5 = b.toNat := by simp only [fld, ← hw]; omega
  simp [decode16, need, bv, bit, opnd_opByte, bool_toNat, e0, e1, e2]

theorem Sys2Proof.Laws.Encode.xorC (d : BitVec 5) (b : BitVec 5) : Sys2Proof.Laws.Encode.Statement (.xorC d b) := by
  have _h0 := d.isLt
  have _h1 := b.isLt
  refine of16 rfl (w := 0xc + d.toNat * 0x40 + b.toNat * 0x800) rfl (by omega) (by omega) ?_
  generalize hw : 0xc + d.toNat * 0x40 + b.toNat * 0x800 = word
  have e0 : fld word 1 5 = 6 := by simp only [fld, ← hw]; omega
  have e1 : fld word 6 5 = d.toNat := by simp only [fld, ← hw]; omega
  have e2 : fld word 11 5 = b.toNat := by simp only [fld, ← hw]; omega
  simp [decode16, need, bv, bit, opnd_opByte, bool_toNat, e0, e1, e2]

theorem Sys2Proof.Laws.Encode.shlC (d : BitVec 5) (b : BitVec 5) : Sys2Proof.Laws.Encode.Statement (.shlC d b) := by
  have _h0 := d.isLt
  have _h1 := b.isLt
  refine of16 rfl (w := 0xe + d.toNat * 0x40 + b.toNat * 0x800) rfl (by omega) (by omega) ?_
  generalize hw : 0xe + d.toNat * 0x40 + b.toNat * 0x800 = word
  have e0 : fld word 1 5 = 7 := by simp only [fld, ← hw]; omega
  have e1 : fld word 6 5 = d.toNat := by simp only [fld, ← hw]; omega
  have e2 : fld word 11 5 = b.toNat := by simp only [fld, ← hw]; omega
  simp [decode16, need, bv, bit, opnd_opByte, bool_toNat, e0, e1, e2]

theorem Sys2Proof.Laws.Encode.shrC (d : BitVec 5) (b : BitVec 5) : Sys2Proof.Laws.Encode.Statement (.shrC d b) := by
  have _h0 := d.isLt
  have _h1 := b.isLt
  refine of16 rfl (w := 0x10 + d.toNat * 0x40 + b.toNat * 0x800) rfl (by omega) (by omega) ?_
  generalize hw : 0x10 + d.toNat * 0x40 + b.toNat * 0x800 = word
  have e0 : fld word 1 5 = 8 := by simp only [fld, ← hw]; omega
  have e1 : fld word 6 5 = d.toNat := by simp only [fld, ← hw]; omega
  have e2 : fld word 11 5 = b.toNat := by simp only [fld, ← hw]; omega
  simp [decode16, need, bv, bit, opnd_opByte, bool_toNat, e0, e1, e2]

theorem Sys2Proof.Laws.Encode.iminC (d : BitVec 5) (b : BitVec 5) : Sys2Proof.Laws.Encode.Statement (.iminC d b) := by
  have _h0 := d.isLt
  have _h1 := b.isLt
  refine of16 rfl (w := 0x12 + d.toNat * 0x40 + b.toNat * 0x800) rfl (by omega) (by omega) ?_
  generalize hw : 0x12 + d.toNat * 0x40 + b.toNat * 0x800 = word
  have e0 : fld word 1 5 = 9 := by simp only [fld, ← hw]; omega
  have e1 : fld word 6 5 = d.toNat := by simp only [fld, ← hw]; omega
  have e2 : fld word 11 5 = b.toNat := by simp only [fld, ← hw]; omega
  simp [decode16, need, bv, bit, opnd_opByte, bool_toNat, e0, e1, e2]

theorem Sys2Proof.Laws.Encode.imaxC (d : BitVec 5) (b : BitVec 5) : Sys2Proof.Laws.Encode.Statement (.imaxC d b) := by
  have _h0 := d.isLt
  have _h1 := b.isLt
  refine of16 rfl (w := 0x14 + d.toNat * 0x40 + b.toNat * 0x800) rfl (by omega) (by omega) ?_
  generalize hw : 0x14 + d.toNat * 0x40 + b.toNat * 0x800 = word
  have e0 : fld word 1 5 = 10 := by simp only [fld, ← hw]; omega
  have e1 : fld word 6 5 = d.toNat := by simp only [fld, ← hw]; omega
  have e2 : fld word 11 5 = b.toNat := by simp only [fld, ← hw]; omega
  simp [decode16, need, bv, bit, opnd_opByte, bool_toNat, e0, e1, e2]

theorem Sys2Proof.Laws.Encode.faddC (d : BitVec 5) (b : BitVec 5) : Sys2Proof.Laws.Encode.Statement (.faddC d b) := by
  have _h0 := d.isLt
  have _h1 := b.isLt
  refine of16 rfl (w := 0x16 + d.toNat * 0x40 + b.toNat * 0x800) rfl (by omega) (by omega) ?_
  generalize hw : 0x16 + d.toNat * 0x40 + b.toNat * 0x800 = word
  have e0 : fld word 1 5 = 11 := by simp only [fld, ← hw]; omega
  have e1 : fld word 6 5 = d.toNat := by simp only [fld, ← hw]; omega
  have e2 : fld word 11 5 = b.toNat := by simp only [fld, ← hw]; omega
  simp [decode16, need, bv, bit, opnd_opByte, bool_toNat, e0, e1, e2]

theorem Sys2Proof.Laws.Encode.fsubC (d : BitVec 5) (b : BitVec 5) : Sys2Proof.Laws.Encode.Statement (.fsubC d b) := by
  have _h0 := d.isLt
  have _h1 := b.isLt
  refine of16 rfl (w := 0x18 + d.toNat * 0x40 + b.toNat * 0x800) rfl (by omega) (by omega) ?_
  generalize hw : 0x18 + d.toNat * 0x40 + b.toNat * 0x800 = word
  have e0 : fld word 1 5 = 12 := by simp only [fld, ← hw]; omega
  have e1 : fld word 6 5 = d.toNat := by simp only [fld, ← hw]; omega
  have e2 : fld word 11 5 = b.toNat := by simp only [fld, ← hw]; omega
  simp [decode16, need, bv, bit, opnd_opByte, bool_toNat, e0, e1, e2]

theorem Sys2Proof.Laws.Encode.fmulC (d : BitVec 5) (b : BitVec 5) : Sys2Proof.Laws.Encode.Statement (.fmulC d b) := by
  have _h0 := d.isLt
  have _h1 := b.isLt
  refine of16 rfl (w := 0x1a + d.toNat * 0x40 + b.toNat * 0x800) rfl (by omega) (by omega) ?_
  generalize hw : 0x1a + d.toNat * 0x40 + b.toNat * 0x800 = word
  have e0 : fld word 1 5 = 13 := by simp only [fld, ← hw]; omega
  have e1 : fld word 6 5 = d.toNat := by simp only [fld, ← hw]; omega
  have e2 : fld word 11 5 = b.toNat := by simp only [fld, ← hw]; omega
  simp [decode16, need, bv, bit, opnd_opByte, bool_toNat, e0, e1, e2]

theorem Sys2Proof.Laws.Encode.fminC (d : BitVec 5) (b : BitVec 5) : Sys2Proof.Laws.Encode.Statement (.fminC d b) := by
  have _h0 := d.isLt
  have _h1 := b.isLt
  refine of16 rfl (w := 0x1c + d.toNat * 0x40 + b.toNat * 0x800) rfl (by omega) (by omega) ?_
  generalize hw : 0x1c + d.toNat * 0x40 + b.toNat * 0x800 = word
  have e0 : fld word 1 5 = 14 := by simp only [fld, ← hw]; omega
  have e1 : fld word 6 5 = d.toNat := by simp only [fld, ← hw]; omega
  have e2 : fld word 11 5 = b.toNat := by simp only [fld, ← hw]; omega
  simp [decode16, need, bv, bit, opnd_opByte, bool_toNat, e0, e1, e2]

theorem Sys2Proof.Laws.Encode.fmaxC (d : BitVec 5) (b : BitVec 5) : Sys2Proof.Laws.Encode.Statement (.fmaxC d b) := by
  have _h0 := d.isLt
  have _h1 := b.isLt
  refine of16 rfl (w := 0x1e + d.toNat * 0x40 + b.toNat * 0x800) rfl (by omega) (by omega) ?_
  generalize hw : 0x1e + d.toNat * 0x40 + b.toNat * 0x800 = word
  have e0 : fld word 1 5 = 15 := by simp only [fld, ← hw]; omega
  have e1 : fld word 6 5 = d.toNat := by simp only [fld, ← hw]; omega
  have e2 : fld word 11 5 = b.toNat := by simp only [fld, ← hw]; omega
  simp [decode16, need, bv, bit, opnd_opByte, bool_toNat, e0, e1, e2]

theorem Sys2Proof.Laws.Encode.bra (o : BitVec 22) : Sys2Proof.Laws.Encode.Statement (.bra o) := by
  have _h0 := o.isLt
  refine of32 rfl (w := 0x1 + o.toNat * 0x400) rfl (by omega) (by omega) ?_
  generalize hw : 0x1 + o.toNat * 0x400 = word
  have e0 : fld word 0 4 = 1 := by simp only [fld, ← hw]; omega
  have e1 : fld word 4 6 = 0 := by simp only [fld, ← hw]; omega
  have e2 : fld word 1 3 = 0 := by simp only [fld, ← hw]; omega
  have e3 : fld word 10 22 = o.toNat := by simp only [fld, ← hw]; omega
  simp [decode32, row000, need, bv, bit, opnd_opByte, bool_toNat, e0, e1, e2, e3]

theorem Sys2Proof.Laws.Encode.call (o : BitVec 22) : Sys2Proof.Laws.Encode.Statement (.call o) := by
  have _h0 := o.isLt
  refine of32 rfl (w := 0x3 + o.toNat * 0x400) rfl (by omega) (by omega) ?_
  generalize hw : 0x3 + o.toNat * 0x400 = word
  have e0 : fld word 0 4 = 3 := by simp only [fld, ← hw]; omega
  have e1 : fld word 4 6 = 0 := by simp only [fld, ← hw]; omega
  have e2 : fld word 1 3 = 1 := by simp only [fld, ← hw]; omega
  have e3 : fld word 10 22 = o.toNat := by simp only [fld, ← hw]; omega
  simp [decode32, row000, need, bv, bit, opnd_opByte, bool_toNat, e0, e1, e2, e3]

theorem Sys2Proof.Laws.Encode.brx (a : Opnd) : Sys2Proof.Laws.Encode.Statement (.brx a) := by
  have _h0 := opByte_lt a
  refine of32 rfl (w := 0x5 + opByte a * 0x10000) rfl (by omega) (by omega) ?_
  generalize hw : 0x5 + opByte a * 0x10000 = word
  have e0 : fld word 0 4 = 5 := by simp only [fld, ← hw]; omega
  have e1 : fld word 4 6 = 0 := by simp only [fld, ← hw]; omega
  have e2 : fld word 1 3 = 2 := by simp only [fld, ← hw]; omega
  have e3 : fld word 10 6 = 0 := by simp only [fld, ← hw]; omega
  have e4 : fld word 24 8 = 0 := by simp only [fld, ← hw]; omega
  have e5 : fld word 16 8 = opByte a := by simp only [fld, ← hw]; omega
  simp [decode32, row000, need, bv, bit, opnd_opByte, bool_toNat, e0, e1, e2, e3, e4, e5]

theorem Sys2Proof.Laws.Encode.ret (a : Opnd) : Sys2Proof.Laws.Encode.Statement (.ret a) := by
  have _h0 := opByte_lt a
  refine of32 rfl (w := 0x7 + opByte a * 0x10000) rfl (by omega) (by omega) ?_
  generalize hw : 0x7 + opByte a * 0x10000 = word
  have e0 : fld word 0 4 = 7 := by simp only [fld, ← hw]; omega
  have e1 : fld word 4 6 = 0 := by simp only [fld, ← hw]; omega
  have e2 : fld word 1 3 = 3 := by simp only [fld, ← hw]; omega
  have e3 : fld word 10 6 = 0 := by simp only [fld, ← hw]; omega
  have e4 : fld word 24 8 = 0 := by simp only [fld, ← hw]; omega
  have e5 : fld word 16 8 = opByte a := by simp only [fld, ← hw]; omega
  simp [decode32, row000, need, bv, bit, opnd_opByte, bool_toNat, e0, e1, e2, e3, e4, e5]

theorem Sys2Proof.Laws.Encode.reconv : Sys2Proof.Laws.Encode.Statement (.reconv) := by
  exact of32 rfl rfl (by decide) (by decide) rfl

theorem Sys2Proof.Laws.Encode.reconvTry : Sys2Proof.Laws.Encode.Statement (.reconvTry) := by
  exact of32 rfl rfl (by decide) (by decide) rfl

theorem Sys2Proof.Laws.Encode.yield : Sys2Proof.Laws.Encode.Statement (.yield) := by
  exact of32 rfl rfl (by decide) (by decide) rfl

theorem Sys2Proof.Laws.Encode.exit (a : Opnd) (n : BitVec 8) : Sys2Proof.Laws.Encode.Statement (.exit a n) := by
  have _h0 := opByte_lt a
  have _h1 := n.isLt
  refine of32 rfl (w := 0xd + opByte a * 0x10000 + n.toNat * 0x1000000) rfl (by omega) (by omega) ?_
  generalize hw : 0xd + opByte a * 0x10000 + n.toNat * 0x1000000 = word
  have e0 : fld word 0 4 = 13 := by simp only [fld, ← hw]; omega
  have e1 : fld word 4 6 = 0 := by simp only [fld, ← hw]; omega
  have e2 : fld word 1 3 = 6 := by simp only [fld, ← hw]; omega
  have e3 : fld word 10 6 = 0 := by simp only [fld, ← hw]; omega
  have e4 : fld word 16 8 = opByte a := by simp only [fld, ← hw]; omega
  have e5 : fld word 24 8 = n.toNat := by simp only [fld, ← hw]; omega
  simp [decode32, row000, need, bv, bit, opnd_opByte, bool_toNat, e0, e1, e2, e3, e4, e5]

theorem Sys2Proof.Laws.Encode.waitf (m : BitVec 12) : Sys2Proof.Laws.Encode.Statement (.waitf m) := by
  have _h0 := m.isLt
  refine of32 rfl (w := 0x11 + m.toNat * 0x10000) rfl (by omega) (by omega) ?_
  generalize hw : 0x11 + m.toNat * 0x10000 = word
  have e0 : fld word 0 4 = 1 := by simp only [fld, ← hw]; omega
  have e1 : fld word 4 6 = 1 := by simp only [fld, ← hw]; omega
  have e2 : fld word 1 3 = 0 := by simp only [fld, ← hw]; omega
  have e3 : fld word 10 6 = 0 := by simp only [fld, ← hw]; omega
  have e4 : fld word 28 4 = 0 := by simp only [fld, ← hw]; omega
  have e5 : fld word 16 12 = m.toNat := by simp only [fld, ← hw]; omega
  simp [decode32, row008, need, bv, bit, opnd_opByte, bool_toNat, e0, e1, e2, e3, e4, e5]

theorem Sys2Proof.Laws.Encode.region (d : BitVec 6) (a : Opnd) : Sys2Proof.Laws.Encode.Statement (.region d a) := by
  have _h0 := d.isLt
  have _h1 := opByte_lt a
  refine of32 rfl (w := 0x13 + d.toNat * 0x400 + opByte a * 0x10000) rfl (by omega) (by omega) ?_
  generalize hw : 0x13 + d.toNat * 0x400 + opByte a * 0x10000 = word
  have e0 : fld word 0 4 = 3 := by simp only [fld, ← hw]; omega
  have e1 : fld word 4 6 = 1 := by simp only [fld, ← hw]; omega
  have e2 : fld word 1 3 = 1 := by simp only [fld, ← hw]; omega
  have e3 : fld word 24 8 = 0 := by simp only [fld, ← hw]; omega
  have e4 : fld word 16 8 = opByte a := by simp only [fld, ← hw]; omega
  have e5 : fld word 10 22 = d.toNat + opByte a * 64 := by simp only [fld, ← hw]; omega
  have e6 : fld word 10 6 = d.toNat := by simp only [fld, ← hw]; omega
  simp [decode32, row008, need, bv, bit, opnd_opByte, bool_toNat, e0, e1, e2, e3, e4, e5, e6]

theorem Sys2Proof.Laws.Encode.regionAll : Sys2Proof.Laws.Encode.Statement (.regionAll) := by
  exact of32 rfl rfl (by decide) (by decide) rfl

theorem Sys2Proof.Laws.Encode.step : Sys2Proof.Laws.Encode.Statement (.step) := by
  exact of32 rfl rfl (by decide) (by decide) rfl

theorem Sys2Proof.Laws.Encode.rngnext (d : BitVec 6) : Sys2Proof.Laws.Encode.Statement (.rngnext d) := by
  have _h0 := d.isLt
  refine of32 rfl (w := 0x17 + d.toNat * 0x400) rfl (by omega) (by omega) ?_
  generalize hw : 0x17 + d.toNat * 0x400 = word
  have e0 : fld word 0 4 = 7 := by simp only [fld, ← hw]; omega
  have e1 : fld word 4 6 = 1 := by simp only [fld, ← hw]; omega
  have e2 : fld word 1 3 = 3 := by simp only [fld, ← hw]; omega
  have e3 : fld word 16 16 = 0 := by simp only [fld, ← hw]; omega
  have e4 : fld word 10 6 = d.toNat := by simp only [fld, ← hw]; omega
  simp [decode32, row008, need, bv, bit, opnd_opByte, bool_toNat, e0, e1, e2, e3, e4]

theorem Sys2Proof.Laws.Encode.nop : Sys2Proof.Laws.Encode.Statement (.nop) := by
  exact of32 rfl rfl (by decide) (by decide) rfl

theorem Sys2Proof.Laws.Encode.trap (a : Opnd) (i : BitVec 8) : Sys2Proof.Laws.Encode.Statement (.trap a i) := by
  have _h0 := opByte_lt a
  have _h1 := i.isLt
  refine of32 rfl (w := 0x1b + opByte a * 0x10000 + i.toNat * 0x1000000) rfl (by omega) (by omega) ?_
  generalize hw : 0x1b + opByte a * 0x10000 + i.toNat * 0x1000000 = word
  have e0 : fld word 0 4 = 11 := by simp only [fld, ← hw]; omega
  have e1 : fld word 4 6 = 1 := by simp only [fld, ← hw]; omega
  have e2 : fld word 1 3 = 5 := by simp only [fld, ← hw]; omega
  have e3 : fld word 10 6 = 0 := by simp only [fld, ← hw]; omega
  have e4 : fld word 16 8 = opByte a := by simp only [fld, ← hw]; omega
  have e5 : fld word 24 8 = i.toNat := by simp only [fld, ← hw]; omega
  simp [decode32, row008, need, bv, bit, opnd_opByte, bool_toNat, e0, e1, e2, e3, e4, e5]

theorem Sys2Proof.Laws.Encode.svc (d : BitVec 6) (a : Opnd) (i : BitVec 8) : Sys2Proof.Laws.Encode.Statement (.svc d a i) := by
  have _h0 := d.isLt
  have _h1 := opByte_lt a
  have _h2 := i.isLt
  refine of32 rfl (w := 0x1d + d.toNat * 0x400 + opByte a * 0x10000 + i.toNat * 0x1000000) rfl (by omega) (by omega) ?_
  generalize hw : 0x1d + d.toNat * 0x400 + opByte a * 0x10000 + i.toNat * 0x1000000 = word
  have e0 : fld word 0 4 = 13 := by simp only [fld, ← hw]; omega
  have e1 : fld word 4 6 = 1 := by simp only [fld, ← hw]; omega
  have e2 : fld word 1 3 = 6 := by simp only [fld, ← hw]; omega
  have e3 : fld word 16 8 = opByte a := by simp only [fld, ← hw]; omega
  have e4 : fld word 10 6 = d.toNat := by simp only [fld, ← hw]; omega
  have e5 : fld word 24 8 = i.toNat := by simp only [fld, ← hw]; omega
  simp [decode32, row008, need, bv, bit, opnd_opByte, bool_toNat, e0, e1, e2, e3, e4, e5]

theorem Sys2Proof.Laws.Encode.bkpt (i : BitVec 8) : Sys2Proof.Laws.Encode.Statement (.bkpt i) := by
  have _h0 := i.isLt
  refine of32 rfl (w := 0x21 + i.toNat * 0x1000000) rfl (by omega) (by omega) ?_
  generalize hw : 0x21 + i.toNat * 0x1000000 = word
  have e0 : fld word 0 4 = 1 := by simp only [fld, ← hw]; omega
  have e1 : fld word 4 6 = 2 := by simp only [fld, ← hw]; omega
  have e2 : fld word 1 3 = 0 := by simp only [fld, ← hw]; omega
  have e3 : fld word 10 14 = 0 := by simp only [fld, ← hw]; omega
  have e4 : fld word 24 8 = i.toNat := by simp only [fld, ← hw]; omega
  simp [decode32, row010, need, bv, bit, opnd_opByte, bool_toNat, e0, e1, e2, e3, e4]

theorem Sys2Proof.Laws.Encode.barinit (d : BitVec 6) (a : Opnd) : Sys2Proof.Laws.Encode.Statement (.barinit d a) := by
  have _h0 := d.isLt
  have _h1 := opByte_lt a
  refine of32 rfl (w := 0x31 + d.toNat * 0x400 + opByte a * 0x10000) rfl (by omega) (by omega) ?_
  generalize hw : 0x31 + d.toNat * 0x400 + opByte a * 0x10000 = word
  have e0 : fld word 0 4 = 1 := by simp only [fld, ← hw]; omega
  have e1 : fld word 4 6 = 3 := by simp only [fld, ← hw]; omega
  have e2 : fld word 1 3 = 0 := by simp only [fld, ← hw]; omega
  have e3 : fld word 24 8 = 0 := by simp only [fld, ← hw]; omega
  have e4 : fld word 16 8 = opByte a := by simp only [fld, ← hw]; omega
  have e5 : fld word 10 6 = d.toNat := by simp only [fld, ← hw]; omega
  simp [decode32, row018, need, bv, bit, opnd_opByte, bool_toNat, e0, e1, e2, e3, e4, e5]

theorem Sys2Proof.Laws.Encode.bararv (d : BitVec 6) : Sys2Proof.Laws.Encode.Statement (.bararv d) := by
  have _h0 := d.isLt
  refine of32 rfl (w := 0x33 + d.toNat * 0x400) rfl (by omega) (by omega) ?_
  generalize hw : 0x33 + d.toNat * 0x400 = word
  have e0 : fld word 0 4 = 3 := by simp only [fld, ← hw]; omega
  have e1 : fld word 4 6 = 3 := by simp only [fld, ← hw]; omega
  have e2 : fld word 1 3 = 1 := by simp only [fld, ← hw]; omega
  have e3 : fld word 16 16 = 0 := by simp only [fld, ← hw]; omega
  have e4 : fld word 10 6 = d.toNat := by simp only [fld, ← hw]; omega
  simp [decode32, row018, need, bv, bit, opnd_opByte, bool_toNat, e0, e1, e2, e3, e4]

theorem Sys2Proof.Laws.Encode.barwait (d : BitVec 6) : Sys2Proof.Laws.Encode.Statement (.barwait d) := by
  have _h0 := d.isLt
  refine of32 rfl (w := 0x35 + d.toNat * 0x400) rfl (by omega) (by omega) ?_
  generalize hw : 0x35 + d.toNat * 0x400 = word
  have e0 : fld word 0 4 = 5 := by simp only [fld, ← hw]; omega
  have e1 : fld word 4 6 = 3 := by simp only [fld, ← hw]; omega
  have e2 : fld word 1 3 = 2 := by simp only [fld, ← hw]; omega
  have e3 : fld word 16 16 = 0 := by simp only [fld, ← hw]; omega
  have e4 : fld word 10 6 = d.toNat := by simp only [fld, ← hw]; omega
  simp [decode32, row018, need, bv, bit, opnd_opByte, bool_toNat, e0, e1, e2, e3, e4]

theorem Sys2Proof.Laws.Encode.barsync (d : BitVec 6) : Sys2Proof.Laws.Encode.Statement (.barsync d) := by
  have _h0 := d.isLt
  refine of32 rfl (w := 0x37 + d.toNat * 0x400) rfl (by omega) (by omega) ?_
  generalize hw : 0x37 + d.toNat * 0x400 = word
  have e0 : fld word 0 4 = 7 := by simp only [fld, ← hw]; omega
  have e1 : fld word 4 6 = 3 := by simp only [fld, ← hw]; omega
  have e2 : fld word 1 3 = 3 := by simp only [fld, ← hw]; omega
  have e3 : fld word 16 16 = 0 := by simp only [fld, ← hw]; omega
  have e4 : fld word 10 6 = d.toNat := by simp only [fld, ← hw]; omega
  simp [decode32, row018, need, bv, bit, opnd_opByte, bool_toNat, e0, e1, e2, e3, e4]

theorem Sys2Proof.Laws.Encode.barexp (d : BitVec 6) (a : Opnd) : Sys2Proof.Laws.Encode.Statement (.barexp d a) := by
  have _h0 := d.isLt
  have _h1 := opByte_lt a
  refine of32 rfl (w := 0x39 + d.toNat * 0x400 + opByte a * 0x10000) rfl (by omega) (by omega) ?_
  generalize hw : 0x39 + d.toNat * 0x400 + opByte a * 0x10000 = word
  have e0 : fld word 0 4 = 9 := by simp only [fld, ← hw]; omega
  have e1 : fld word 4 6 = 3 := by simp only [fld, ← hw]; omega
  have e2 : fld word 1 3 = 4 := by simp only [fld, ← hw]; omega
  have e3 : fld word 24 8 = 0 := by simp only [fld, ← hw]; omega
  have e4 : fld word 16 8 = opByte a := by simp only [fld, ← hw]; omega
  have e5 : fld word 10 6 = d.toNat := by simp only [fld, ← hw]; omega
  simp [decode32, row018, need, bv, bit, opnd_opByte, bool_toNat, e0, e1, e2, e3, e4, e5]

theorem Sys2Proof.Laws.Encode.cvset (d : BitVec 6) (n : BitVec 8) : Sys2Proof.Laws.Encode.Statement (.cvset d n) := by
  have _h0 := d.isLt
  have _h1 := n.isLt
  refine of32 rfl (w := 0x3b + d.toNat * 0x400 + n.toNat * 0x1000000) rfl (by omega) (by omega) ?_
  generalize hw : 0x3b + d.toNat * 0x400 + n.toNat * 0x1000000 = word
  have e0 : fld word 0 4 = 11 := by simp only [fld, ← hw]; omega
  have e1 : fld word 4 6 = 3 := by simp only [fld, ← hw]; omega
  have e2 : fld word 1 3 = 5 := by simp only [fld, ← hw]; omega
  have e3 : fld word 16 8 = 0 := by simp only [fld, ← hw]; omega
  have e4 : fld word 10 6 = d.toNat := by simp only [fld, ← hw]; omega
  have e5 : fld word 24 8 = n.toNat := by simp only [fld, ← hw]; omega
  simp [decode32, row018, need, bv, bit, opnd_opByte, bool_toNat, e0, e1, e2, e3, e4, e5]

theorem Sys2Proof.Laws.Encode.cvsign (d : BitVec 6) : Sys2Proof.Laws.Encode.Statement (.cvsign d) := by
  have _h0 := d.isLt
  refine of32 rfl (w := 0x3d + d.toNat * 0x400) rfl (by omega) (by omega) ?_
  generalize hw : 0x3d + d.toNat * 0x400 = word
  have e0 : fld word 0 4 = 13 := by simp only [fld, ← hw]; omega
  have e1 : fld word 4 6 = 3 := by simp only [fld, ← hw]; omega
  have e2 : fld word 1 3 = 6 := by simp only [fld, ← hw]; omega
  have e3 : fld word 16 16 = 0 := by simp only [fld, ← hw]; omega
  have e4 : fld word 10 6 = d.toNat := by simp only [fld, ← hw]; omega
  simp [decode32, row018, need, bv, bit, opnd_opByte, bool_toNat, e0, e1, e2, e3, e4]

theorem Sys2Proof.Laws.Encode.batonacq (t : Bool) : Sys2Proof.Laws.Encode.Statement (.batonacq t) := by
  have _h0 := Bool.toNat_lt t
  refine of32 rfl (w := 0x41 + t.toNat * 0x1000000) rfl (by omega) (by omega) ?_
  generalize hw : 0x41 + t.toNat * 0x1000000 = word
  have e0 : fld word 0 4 = 1 := by simp only [fld, ← hw]; omega
  have e1 : fld word 4 6 = 4 := by simp only [fld, ← hw]; omega
  have e2 : fld word 1 3 = 0 := by simp only [fld, ← hw]; omega
  have e3 : fld word 10 14 = 0 := by simp only [fld, ← hw]; omega
  have e4 : fld word 25 7 = 0 := by simp only [fld, ← hw]; omega
  have e5 : fld word 24 1 = t.toNat := by simp only [fld, ← hw]; omega
  simp [decode32, row020, need, bv, bit, opnd_opByte, bool_toNat, e0, e1, e2, e3, e4, e5]

theorem Sys2Proof.Laws.Encode.batonrel (t : Bool) : Sys2Proof.Laws.Encode.Statement (.batonrel t) := by
  have _h0 := Bool.toNat_lt t
  refine of32 rfl (w := 0x43 + t.toNat * 0x1000000) rfl (by omega) (by omega) ?_
  generalize hw : 0x43 + t.toNat * 0x1000000 = word
  have e0 : fld word 0 4 = 3 := by simp only [fld, ← hw]; omega
  have e1 : fld word 4 6 = 4 := by simp only [fld, ← hw]; omega
  have e2 : fld word 1 3 = 1 := by simp only [fld, ← hw]; omega
  have e3 : fld word 10 14 = 0 := by simp only [fld, ← hw]; omega
  have e4 : fld word 25 7 = 0 := by simp only [fld, ← hw]; omega
  have e5 : fld word 24 1 = t.toNat := by simp only [fld, ← hw]; omega
  simp [decode32, row020, need, bv, bit, opnd_opByte, bool_toNat, e0, e1, e2, e3, e4, e5]

theorem Sys2Proof.Laws.Encode.mov (d : BitVec 6) (a : Opnd) : Sys2Proof.Laws.Encode.Statement (.mov d a) := by
  have _h0 := d.isLt
  have _h1 := opByte_lt a
  refine of32 rfl (w := 0x51 + d.toNat * 0x400 + opByte a * 0x10000) rfl (by omega) (by omega) ?_
  generalize hw : 0x51 + d.toNat * 0x400 + opByte a * 0x10000 = word
  have e0 : fld word 0 4 = 1 := by simp only [fld, ← hw]; omega
  have e1 : fld word 4 6 = 5 := by simp only [fld, ← hw]; omega
  have e2 : fld word 1 3 = 0 := by simp only [fld, ← hw]; omega
  have e3 : fld word 24 8 = 0 := by simp only [fld, ← hw]; omega
  have e4 : fld word 16 8 = opByte a := by simp only [fld, ← hw]; omega
  have e5 : fld word 10 6 = d.toNat := by simp only [fld, ← hw]; omega
  simp [decode32, row028, need, bv, bit, opnd_opByte, bool_toNat, e0, e1, e2, e3, e4, e5]

theorem Sys2Proof.Laws.Encode.movi (d : BitVec 6) (i : BitVec 16) : Sys2Proof.Laws.Encode.Statement (.movi d i) := by
  have _h0 := d.isLt
  have _h1 := i.isLt
  refine of32 rfl (w := 0x53 + d.toNat * 0x400 + i.toNat * 0x10000) rfl (by omega) (by omega) ?_
  generalize hw : 0x53 + d.toNat * 0x400 + i.toNat * 0x10000 = word
  have e0 : fld word 0 4 = 3 := by simp only [fld, ← hw]; omega
  have e1 : fld word 4 6 = 5 := by simp only [fld, ← hw]; omega
  have e2 : fld word 1 3 = 1 := by simp only [fld, ← hw]; omega
  have e3 : fld word 10 6 = d.toNat := by simp only [fld, ← hw]; omega
  have e4 : fld word 16 16 = i.toNat := by simp only [fld, ← hw]; omega
  simp [decode32, row028, need, bv, bit, opnd_opByte, bool_toNat, e0, e1, e2, e3, e4]

theorem Sys2Proof.Laws.Encode.movhi (d : BitVec 6) (i : BitVec 16) : Sys2Proof.Laws.Encode.Statement (.movhi d i) := by
  have _h0 := d.isLt
  have _h1 := i.isLt
  refine of32 rfl (w := 0x55 + d.toNat * 0x400 + i.toNat * 0x10000) rfl (by omega) (by omega) ?_
  generalize hw : 0x55 + d.toNat * 0x400 + i.toNat * 0x10000 = word
  have e0 : fld word 0 4 = 5 := by simp only [fld, ← hw]; omega
  have e1 : fld word 4 6 = 5 := by simp only [fld, ← hw]; omega
  have e2 : fld word 1 3 = 2 := by simp only [fld, ← hw]; omega
  have e3 : fld word 10 6 = d.toNat := by simp only [fld, ← hw]; omega
  have e4 : fld word 16 16 = i.toNat := by simp only [fld, ← hw]; omega
  simp [decode32, row028, need, bv, bit, opnd_opByte, bool_toNat, e0, e1, e2, e3, e4]

theorem Sys2Proof.Laws.Encode.smov (d : BitVec 6) (a : Opnd) : Sys2Proof.Laws.Encode.Statement (.smov d a) := by
  have _h0 := d.isLt
  have _h1 := opByte_lt a
  refine of32 rfl (w := 0x57 + d.toNat * 0x400 + opByte a * 0x10000) rfl (by omega) (by omega) ?_
  generalize hw : 0x57 + d.toNat * 0x400 + opByte a * 0x10000 = word
  have e0 : fld word 0 4 = 7 := by simp only [fld, ← hw]; omega
  have e1 : fld word 4 6 = 5 := by simp only [fld, ← hw]; omega
  have e2 : fld word 1 3 = 3 := by simp only [fld, ← hw]; omega
  have e3 : fld word 24 8 = 0 := by simp only [fld, ← hw]; omega
  have e4 : fld word 16 8 = opByte a := by simp only [fld, ← hw]; omega
  have e5 : fld word 10 6 = d.toNat := by simp only [fld, ← hw]; omega
  have e6 : fld word 16 16 = opByte a := by simp only [fld, ← hw]; omega
  simp [decode32, row028, need, bv, bit, opnd_opByte, bool_toNat, e0, e1, e2, e3, e4, e5, e6]

theorem Sys2Proof.Laws.Encode.smovLpa (a : Opnd) : Sys2Proof.Laws.Encode.Statement (.smovLpa a) := by
  have _h0 := opByte_lt a
  refine of32 rfl (w := 0x1000057 + opByte a * 0x10000) rfl (by omega) (by omega) ?_
  generalize hw : 0x1000057 + opByte a * 0x10000 = word
  have e0 : fld word 0 4 = 7 := by simp only [fld, ← hw]; omega
  have e1 : fld word 4 6 = 5 := by simp only [fld, ← hw]; omega
  have e2 : fld word 1 3 = 3 := by simp only [fld, ← hw]; omega
  have e3 : fld word 24 8 = 1 := by simp only [fld, ← hw]; omega
  have e4 : fld word 16 8 = opByte a := by simp only [fld, ← hw]; omega
  have e5 : fld word 10 6 = 0 := by simp only [fld, ← hw]; omega
  have e6 : fld word 16 16 = 256 + opByte a := by simp only [fld, ← hw]; omega
  simp [decode32, row028, need, bv, bit, opnd_opByte, bool_toNat, e0, e1, e2, e3, e4, e5, e6]

theorem Sys2Proof.Laws.Encode.smovLpb (a : Opnd) : Sys2Proof.Laws.Encode.Statement (.smovLpb a) := by
  have _h0 := opByte_lt a
  refine of32 rfl (w := 0x2000057 + opByte a * 0x10000) rfl (by omega) (by omega) ?_
  generalize hw : 0x2000057 + opByte a * 0x10000 = word
  have e0 : fld word 0 4 = 7 := by simp only [fld, ← hw]; omega
  have e1 : fld word 4 6 = 5 := by simp only [fld, ← hw]; omega
  have e2 : fld word 1 3 = 3 := by simp only [fld, ← hw]; omega
  have e3 : fld word 24 8 = 2 := by simp only [fld, ← hw]; omega
  have e4 : fld word 16 8 = opByte a := by simp only [fld, ← hw]; omega
  have e5 : fld word 10 6 = 0 := by simp only [fld, ← hw]; omega
  have e6 : fld word 16 16 = 512 + opByte a := by simp only [fld, ← hw]; omega
  simp [decode32, row028, need, bv, bit, opnd_opByte, bool_toNat, e0, e1, e2, e3, e4, e5, e6]

theorem Sys2Proof.Laws.Encode.smovRdlpa (d : BitVec 6) : Sys2Proof.Laws.Encode.Statement (.smovRdlpa d) := by
  have _h0 := d.isLt
  refine of32 rfl (w := 0x3000057 + d.toNat * 0x400) rfl (by omega) (by omega) ?_
  generalize hw : 0x3000057 + d.toNat * 0x400 = word
  have e0 : fld word 0 4 = 7 := by simp only [fld, ← hw]; omega
  have e1 : fld word 4 6 = 5 := by simp only [fld, ← hw]; omega
  have e2 : fld word 1 3 = 3 := by simp only [fld, ← hw]; omega
  have e3 : fld word 24 8 = 3 := by simp only [fld, ← hw]; omega
  have e4 : fld word 16 8 = 0 := by simp only [fld, ← hw]; omega
  have e5 : fld word 10 6 = d.toNat := by simp only [fld, ← hw]; omega
  have e6 : fld word 16 16 = 768 := by simp only [fld, ← hw]; omega
  simp [decode32, row028, need, bv, bit, opnd_opByte, bool_toNat, e0, e1, e2, e3, e4, e5, e6]

theorem Sys2Proof.Laws.Encode.smovRdlpb (d : BitVec 6) : Sys2Proof.Laws.Encode.Statement (.smovRdlpb d) := by
  have _h0 := d.isLt
  refine of32 rfl (w := 0x4000057 + d.toNat * 0x400) rfl (by omega) (by omega) ?_
  generalize hw : 0x4000057 + d.toNat * 0x400 = word
  have e0 : fld word 0 4 = 7 := by simp only [fld, ← hw]; omega
  have e1 : fld word 4 6 = 5 := by simp only [fld, ← hw]; omega
  have e2 : fld word 1 3 = 3 := by simp only [fld, ← hw]; omega
  have e3 : fld word 24 8 = 4 := by simp only [fld, ← hw]; omega
  have e4 : fld word 16 8 = 0 := by simp only [fld, ← hw]; omega
  have e5 : fld word 10 6 = d.toNat := by simp only [fld, ← hw]; omega
  have e6 : fld word 16 16 = 1024 := by simp only [fld, ← hw]; omega
  simp [decode32, row028, need, bv, bit, opnd_opByte, bool_toNat, e0, e1, e2, e3, e4, e5, e6]

theorem Sys2Proof.Laws.Encode.smovi (d : BitVec 6) (i : BitVec 16) : Sys2Proof.Laws.Encode.Statement (.smovi d i) := by
  have _h0 := d.isLt
  have _h1 := i.isLt
  refine of32 rfl (w := 0x59 + d.toNat * 0x400 + i.toNat * 0x10000) rfl (by omega) (by omega) ?_
  generalize hw : 0x59 + d.toNat * 0x400 + i.toNat * 0x10000 = word
  have e0 : fld word 0 4 = 9 := by simp only [fld, ← hw]; omega
  have e1 : fld word 4 6 = 5 := by simp only [fld, ← hw]; omega
  have e2 : fld word 1 3 = 4 := by simp only [fld, ← hw]; omega
  have e3 : fld word 10 6 = d.toNat := by simp only [fld, ← hw]; omega
  have e4 : fld word 16 16 = i.toNat := by simp only [fld, ← hw]; omega
  simp [decode32, row028, need, bv, bit, opnd_opByte, bool_toNat, e0, e1, e2, e3, e4]

theorem Sys2Proof.Laws.Encode.s2v (d : BitVec 6) (a : Opnd) (g : BitVec 4) : Sys2Proof.Laws.Encode.Statement (.s2v d a g) := by
  have _h0 := d.isLt
  have _h1 := opByte_lt a
  have _h2 := g.isLt
  refine of32 rfl (w := 0x5b + d.toNat * 0x400 + opByte a * 0x10000 + g.toNat * 0x1000000) rfl (by omega) (by omega) ?_
  generalize hw : 0x5b + d.toNat * 0x400 + opByte a * 0x10000 + g.toNat * 0x1000000 = word
  have e0 : fld word 0 4 = 11 := by simp only [fld, ← hw]; omega
  have e1 : fld word 4 6 = 5 := by simp only [fld, ← hw]; omega
  have e2 : fld word 1 3 = 5 := by simp only [fld, ← hw]; omega
  have e3 : fld word 28 4 = 0 := by simp only [fld, ← hw]; omega
  have e4 : fld word 16 8 = opByte a := by simp only [fld, ← hw]; omega
  have e5 : fld word 10 6 = d.toNat := by simp only [fld, ← hw]; omega
  have e6 : fld word 24 4 = g.toNat := by simp only [fld, ← hw]; omega
  simp [decode32, row028, need, bv, bit, opnd_opByte, bool_toNat, e0, e1, e2, e3, e4, e5, e6]

theorem Sys2Proof.Laws.Encode.v2s (d : BitVec 6) (a : Opnd) (l : BitVec 5) (p : Bool) : Sys2Proof.Laws.Encode.Statement (.v2s d a l p) := by
  have _h0 := d.isLt
  have _h1 := opByte_lt a
  have _h2 := l.isLt
  have _h3 := Bool.toNat_lt p
  refine of32 rfl (w := 0x5d + d.toNat * 0x400 + opByte a * 0x10000 + l.toNat * 0x1000000 + p.toNat * 0x20000000) rfl (by omega) (by omega) ?_
  generalize hw : 0x5d + d.toNat * 0x400 + opByte a * 0x10000 + l.toNat * 0x1000000 + p.toNat * 0x20000000 = word
  have e0 : fld word 0 4 = 13 := by simp only [fld, ← hw]; omega
  have e1 : fld word 4 6 = 5 := by simp only [fld, ← hw]; omega
  have e2 : fld word 1 3 = 6 := by simp only [fld, ← hw]; omega
  have e3 : fld word 30 2 = 0 := by simp only [fld, ← hw]; omega
  have e4 : fld word 16 8 = opByte a := by simp only [fld, ← hw]; omega
  have e5 : fld word 10 6 = d.toNat := by simp only [fld, ← hw]; omega
  have e6 : fld word 24 5 = l.toNat := by simp only [fld, ← hw]; omega
  have e7 : fld word 29 1 = p.toNat := by simp only [fld, ← hw]; omega
  simp [decode32, row028, need, bv, bit, opnd_opByte, bool_toNat, e0, e1, e2, e3, e4, e5, e6, e7]

theorem Sys2Proof.Laws.Encode.setlane (d : BitVec 6) (a : Opnd) (l : BitVec 5) (p : Bool) : Sys2Proof.Laws.Encode.Statement (.setlane d a l p) := by
  have _h0 := d.isLt
  have _h1 := opByte_lt a
  have _h2 := l.isLt
  have _h3 := Bool.toNat_lt p
  refine of32 rfl (w := 0x61 + d.toNat * 0x400 + opByte a * 0x10000 + l.toNat * 0x1000000 + p.toNat * 0x20000000) rfl (by omega) (by omega) ?_
  generalize hw : 0x61 + d.toNat * 0x400 + opByte a * 0x10000 + l.toNat * 0x1000000 + p.toNat * 0x20000000 = word
  have e0 : fld word 0 4 = 1 := by simp only [fld, ← hw]; omega
  have e1 : fld word 4 6 = 6 := by simp only [fld, ← hw]; omega
  have e2 : fld word 1 3 = 0 := by simp only [fld, ← hw]; omega
  have e3 : fld word 30 2 = 0 := by simp only [fld, ← hw]; omega
  have e4 : fld word 16 8 = opByte a := by simp only [fld, ← hw]; omega
  have e5 : fld word 10 6 = d.toNat := by simp only [fld, ← hw]; omega
  have e6 : fld word 24 5 = l.toNat := by simp only [fld, ← hw]; omega
  have e7 : fld word 29 1 = p.toNat := by simp only [fld, ← hw]; omega
  simp [decode32, row030, need, bv, bit, opnd_opByte, bool_toNat, e0, e1, e2, e3, e4, e5, e6, e7]

theorem Sys2Proof.Laws.Encode.tagset (d : BitVec 6) (a : Opnd) (g : BitVec 4) : Sys2Proof.Laws.Encode.Statement (.tagset d a g) := by
  have _h0 := d.isLt
  have _h1 := opByte_lt a
  have _h2 := g.isLt
  refine of32 rfl (w := 0x63 + d.toNat * 0x400 + opByte a * 0x10000 + g.toNat * 0x1000000) rfl (by omega) (by omega) ?_
  generalize hw : 0x63 + d.toNat * 0x400 + opByte a * 0x10000 + g.toNat * 0x1000000 = word
  have e0 : fld word 0 4 = 3 := by simp only [fld, ← hw]; omega
  have e1 : fld word 4 6 = 6 := by simp only [fld, ← hw]; omega
  have e2 : fld word 1 3 = 1 := by simp only [fld, ← hw]; omega
  have e3 : fld word 28 4 = 0 := by simp only [fld, ← hw]; omega
  have e4 : fld word 16 8 = opByte a := by simp only [fld, ← hw]; omega
  have e5 : fld word 10 6 = d.toNat := by simp only [fld, ← hw]; omega
  have e6 : fld word 24 4 = g.toNat := by simp only [fld, ← hw]; omega
  simp [decode32, row030, need, bv, bit, opnd_opByte, bool_toNat, e0, e1, e2, e3, e4, e5, e6]

theorem Sys2Proof.Laws.Encode.tagrd (d : BitVec 6) (a : Opnd) : Sys2Proof.Laws.Encode.Statement (.tagrd d a) := by
  have _h0 := d.isLt
  have _h1 := opByte_lt a
  refine of32 rfl (w := 0x65 + d.toNat * 0x400 + opByte a * 0x10000) rfl (by omega) (by omega) ?_
  generalize hw : 0x65 + d.toNat * 0x400 + opByte a * 0x10000 = word
  have e0 : fld word 0 4 = 5 := by simp only [fld, ← hw]; omega
  have e1 : fld word 4 6 = 6 := by simp only [fld, ← hw]; omega
  have e2 : fld word 1 3 = 2 := by simp only [fld, ← hw]; omega
  have e3 : fld word 24 8 = 0 := by simp only [fld, ← hw]; omega
  have e4 : fld word 16 8 = opByte a := by simp only [fld, ← hw]; omega
  have e5 : fld word 10 6 = d.toNat := by simp only [fld, ← hw]; omega
  simp [decode32, row030, need, bv, bit, opnd_opByte, bool_toNat, e0, e1, e2, e3, e4, e5]

theorem Sys2Proof.Laws.Encode.sprd (d : BitVec 6) (k : BitVec 8) (n : BitVec 8) : Sys2Proof.Laws.Encode.Statement (.sprd d k n) := by
  have _h0 := d.isLt
  have _h1 := k.isLt
  have _h2 := n.isLt
  refine of32 rfl (w := 0x67 + d.toNat * 0x400 + k.toNat * 0x10000 + n.toNat * 0x1000000) rfl (by omega) (by omega) ?_
  generalize hw : 0x67 + d.toNat * 0x400 + k.toNat * 0x10000 + n.toNat * 0x1000000 = word
  have e0 : fld word 0 4 = 7 := by simp only [fld, ← hw]; omega
  have e1 : fld word 4 6 = 6 := by simp only [fld, ← hw]; omega
  have e2 : fld word 1 3 = 3 := by simp only [fld, ← hw]; omega
  have e3 : fld word 10 6 = d.toNat := by simp only [fld, ← hw]; omega
  have e4 : fld word 16 8 = k.toNat := by simp only [fld, ← hw]; omega
  have e5 : fld word 24 8 = n.toNat := by simp only [fld, ← hw]; omega
  simp [decode32, row030, need, bv, bit, opnd_opByte, bool_toNat, e0, e1, e2, e3, e4, e5]

theorem Sys2Proof.Laws.Encode.spwr (a : Opnd) (n : BitVec 8) : Sys2Proof.Laws.Encode.Statement (.spwr a n) := by
  have _h0 := opByte_lt a
  have _h1 := n.isLt
  refine of32 rfl (w := 0x69 + opByte a * 0x10000 + n.toNat * 0x1000000) rfl (by omega) (by omega) ?_
  generalize hw : 0x69 + opByte a * 0x10000 + n.toNat * 0x1000000 = word
  have e0 : fld word 0 4 = 9 := by simp only [fld, ← hw]; omega
  have e1 : fld word 4 6 = 6 := by simp only [fld, ← hw]; omega
  have e2 : fld word 1 3 = 4 := by simp only [fld, ← hw]; omega
  have e3 : fld word 10 6 = 0 := by simp only [fld, ← hw]; omega
  have e4 : fld word 16 8 = opByte a := by simp only [fld, ← hw]; omega
  have e5 : fld word 24 8 = n.toNat := by simp only [fld, ← hw]; omega
  simp [decode32, row030, need, bv, bit, opnd_opByte, bool_toNat, e0, e1, e2, e3, e4, e5]

theorem Sys2Proof.Laws.Encode.regclaim (n : BitVec 7) (c : Bool) : Sys2Proof.Laws.Encode.Statement (.regclaim n c) := by
  have _h0 := n.isLt
  have _h1 := Bool.toNat_lt c
  refine of32 rfl (w := 0x6b + n.toNat * 0x1000000 + c.toNat * 0x80000000) rfl (by omega) (by omega) ?_
  generalize hw : 0x6b + n.toNat * 0x1000000 + c.toNat * 0x80000000 = word
  have e0 : fld word 0 4 = 11 := by simp only [fld, ← hw]; omega
  have e1 : fld word 4 6 = 6 := by simp only [fld, ← hw]; omega
  have e2 : fld word 1 3 = 5 := by simp only [fld, ← hw]; omega
  have e3 : fld word 10 14 = 0 := by simp only [fld, ← hw]; omega
  have e4 : fld word 24 7 = n.toNat := by simp only [fld, ← hw]; omega
  have e5 : fld word 31 1 = c.toNat := by simp only [fld, ← hw]; omega
  simp [decode32, row030, need, bv, bit, opnd_opByte, bool_toNat, e0, e1, e2, e3, e4, e5]

theorem Sys2Proof.Laws.Encode.regrel (n : BitVec 7) (c : Bool) : Sys2Proof.Laws.Encode.Statement (.regrel n c) := by
  have _h0 := n.isLt
  have _h1 := Bool.toNat_lt c
  refine of32 rfl (w := 0x6d + n.toNat * 0x1000000 + c.toNat * 0x80000000) rfl (by omega) (by omega) ?_
  generalize hw : 0x6d + n.toNat * 0x1000000 + c.toNat * 0x80000000 = word
  have e0 : fld word 0 4 = 13 := by simp only [fld, ← hw]; omega
  have e1 : fld word 4 6 = 6 := by simp only [fld, ← hw]; omega
  have e2 : fld word 1 3 = 6 := by simp only [fld, ← hw]; omega
  have e3 : fld word 10 14 = 0 := by simp only [fld, ← hw]; omega
  have e4 : fld word 24 7 = n.toNat := by simp only [fld, ← hw]; omega
  have e5 : fld word 31 1 = c.toNat := by simp only [fld, ← hw]; omega
  simp [decode32, row030, need, bv, bit, opnd_opByte, bool_toNat, e0, e1, e2, e3, e4, e5]

theorem Sys2Proof.Laws.Encode.free (a : Opnd) (c : Bool) : Sys2Proof.Laws.Encode.Statement (.free a c) := by
  have _h0 := opByte_lt a
  have _h1 := Bool.toNat_lt c
  refine of32 rfl (w := 0x71 + opByte a * 0x10000 + c.toNat * 0x1000000) rfl (by omega) (by omega) ?_
  generalize hw : 0x71 + opByte a * 0x10000 + c.toNat * 0x1000000 = word
  have e0 : fld word 0 4 = 1 := by simp only [fld, ← hw]; omega
  have e1 : fld word 4 6 = 7 := by simp only [fld, ← hw]; omega
  have e2 : fld word 1 3 = 0 := by simp only [fld, ← hw]; omega
  have e3 : fld word 10 6 = 0 := by simp only [fld, ← hw]; omega
  have e4 : fld word 25 7 = 0 := by simp only [fld, ← hw]; omega
  have e5 : fld word 16 8 = opByte a := by simp only [fld, ← hw]; omega
  have e6 : fld word 24 1 = c.toNat := by simp only [fld, ← hw]; omega
  simp [decode32, row038, need, bv, bit, opnd_opByte, bool_toNat, e0, e1, e2, e3, e4, e5, e6]

theorem Sys2Proof.Laws.Encode.qswapx (d : BitVec 6) (a : Opnd) : Sys2Proof.Laws.Encode.Statement (.qswapx d a) := by
  have _h0 := d.isLt
  have _h1 := opByte_lt a
  refine of32 rfl (w := 0x73 + d.toNat * 0x400 + opByte a * 0x10000) rfl (by omega) (by omega) ?_
  generalize hw : 0x73 + d.toNat * 0x400 + opByte a * 0x10000 = word
  have e0 : fld word 0 4 = 3 := by simp only [fld, ← hw]; omega
  have e1 : fld word 4 6 = 7 := by simp only [fld, ← hw]; omega
  have e2 : fld word 1 3 = 1 := by simp only [fld, ← hw]; omega
  have e3 : fld word 24 8 = 0 := by simp only [fld, ← hw]; omega
  have e4 : fld word 16 8 = opByte a := by simp only [fld, ← hw]; omega
  have e5 : fld word 10 6 = d.toNat := by simp only [fld, ← hw]; omega
  simp [decode32, row038, need, bv, bit, opnd_opByte, bool_toNat, e0, e1, e2, e3, e4, e5]

theorem Sys2Proof.Laws.Encode.qswapy (d : BitVec 6) (a : Opnd) : Sys2Proof.Laws.Encode.Statement (.qswapy d a) := by
  have _h0 := d.isLt
  have _h1 := opByte_lt a
  refine of32 rfl (w := 0x75 + d.toNat * 0x400 + opByte a * 0x10000) rfl (by omega) (by omega) ?_
  generalize hw : 0x75 + d.toNat * 0x400 + opByte a * 0x10000 = word
  have e0 : fld word 0 4 = 5 := by simp only [fld, ← hw]; omega
  have e1 : fld word 4 6 = 7 := by simp only [fld, ← hw]; omega
  have e2 : fld word 1 3 = 2 := by simp only [fld, ← hw]; omega
  have e3 : fld word 24 8 = 0 := by simp only [fld, ← hw]; omega
  have e4 : fld word 16 8 = opByte a := by simp only [fld, ← hw]; omega
  have e5 : fld word 10 6 = d.toNat := by simp only [fld, ← hw]; omega
  simp [decode32, row038, need, bv, bit, opnd_opByte, bool_toNat, e0, e1, e2, e3, e4, e5]

theorem Sys2Proof.Laws.Encode.qswapd (d : BitVec 6) (a : Opnd) : Sys2Proof.Laws.Encode.Statement (.qswapd d a) := by
  have _h0 := d.isLt
  have _h1 := opByte_lt a
  refine of32 rfl (w := 0x77 + d.toNat * 0x400 + opByte a * 0x10000) rfl (by omega) (by omega) ?_
  generalize hw : 0x77 + d.toNat * 0x400 + opByte a * 0x10000 = word
  have e0 : fld word 0 4 = 7 := by simp only [fld, ← hw]; omega
  have e1 : fld word 4 6 = 7 := by simp only [fld, ← hw]; omega
  have e2 : fld word 1 3 = 3 := by simp only [fld, ← hw]; omega
  have e3 : fld word 24 8 = 0 := by simp only [fld, ← hw]; omega
  have e4 : fld word 16 8 = opByte a := by simp only [fld, ← hw]; omega
  have e5 : fld word 10 6 = d.toNat := by simp only [fld, ← hw]; omega
  simp [decode32, row038, need, bv, bit, opnd_opByte, bool_toNat, e0, e1, e2, e3, e4, e5]

theorem Sys2Proof.Laws.Encode.qbcast (d : BitVec 6) (a : Opnd) (j : BitVec 2) : Sys2Proof.Laws.Encode.Statement (.qbcast d a j) := by
  have _h0 := d.isLt
  have _h1 := opByte_lt a
  have _h2 := j.isLt
  refine of32 rfl (w := 0x79 + d.toNat * 0x400 + opByte a * 0x10000 + j.toNat * 0x1000000) rfl (by omega) (by omega) ?_
  generalize hw : 0x79 + d.toNat * 0x400 + opByte a * 0x10000 + j.toNat * 0x1000000 = word
  have e0 : fld word 0 4 = 9 := by simp only [fld, ← hw]; omega
  have e1 : fld word 4 6 = 7 := by simp only [fld, ← hw]; omega
  have e2 : fld word 1 3 = 4 := by simp only [fld, ← hw]; omega
  have e3 : fld word 26 6 = 0 := by simp only [fld, ← hw]; omega
  have e4 : fld word 16 8 = opByte a := by simp only [fld, ← hw]; omega
  have e5 : fld word 10 6 = d.toNat := by simp only [fld, ← hw]; omega
  have e6 : fld word 24 2 = j.toNat := by simp only [fld, ← hw]; omega
  simp [decode32, row038, need, bv, bit, opnd_opByte, bool_toNat, e0, e1, e2, e3, e4, e5, e6]

theorem Sys2Proof.Laws.Encode.shfl (d : BitVec 6) (a : Opnd) (b : Opnd) : Sys2Proof.Laws.Encode.Statement (.shfl d a b) := by
  have _h0 := d.isLt
  have _h1 := opByte_lt a
  have _h2 := opByte_lt b
  refine of32 rfl (w := 0x7b + d.toNat * 0x400 + opByte a * 0x10000 + opByte b * 0x1000000) rfl (by omega) (by omega) ?_
  generalize hw : 0x7b + d.toNat * 0x400 + opByte a * 0x10000 + opByte b * 0x1000000 = word
  have e0 : fld word 0 4 = 11 := by simp only [fld, ← hw]; omega
  have e1 : fld word 4 6 = 7 := by simp only [fld, ← hw]; omega
  have e2 : fld word 1 3 = 5 := by simp only [fld, ← hw]; omega
  have e3 : fld word 16 8 = opByte a := by simp only [fld, ← hw]; omega
  have e4 : fld word 24 8 = opByte b := by simp only [fld, ← hw]; omega
  have e5 : fld word 10 6 = d.toNat := by simp only [fld, ← hw]; omega
  simp [decode32, row038, need, bv, bit, opnd_opByte, bool_toNat, e0, e1, e2, e3, e4, e5]

theorem Sys2Proof.Laws.Encode.vote (d : BitVec 6) (p : BitVec 3) (n : Bool) (m : BitVec 8) : Sys2Proof.Laws.Encode.Statement (.vote d p n m) := by
  have _h0 := d.isLt
  have _h1 := p.isLt
  have _h2 := Bool.toNat_lt n
  have _h3 := m.isLt
  refine of32 rfl (w := 0x7d + d.toNat * 0x400 + p.toNat * 0x10000 + n.toNat * 0x80000 + m.toNat * 0x1000000) rfl (by omega) (by omega) ?_
  generalize hw : 0x7d + d.toNat * 0x400 + p.toNat * 0x10000 + n.toNat * 0x80000 + m.toNat * 0x1000000 = word
  have e0 : fld word 0 4 = 13 := by simp only [fld, ← hw]; omega
  have e1 : fld word 4 6 = 7 := by simp only [fld, ← hw]; omega
  have e2 : fld word 1 3 = 6 := by simp only [fld, ← hw]; omega
  have e3 : fld word 20 4 = 0 := by simp only [fld, ← hw]; omega
  have e4 : fld word 10 6 = d.toNat := by simp only [fld, ← hw]; omega
  have e5 : fld word 16 3 = p.toNat := by simp only [fld, ← hw]; omega
  have e6 : fld word 24 8 = m.toNat := by simp only [fld, ← hw]; omega
  have e7 : fld word 19 1 = n.toNat := by simp only [fld, ← hw]; omega
  simp [decode32, row038, need, bv, bit, opnd_opByte, bool_toNat, e0, e1, e2, e3, e4, e5, e6, e7]

theorem Sys2Proof.Laws.Encode.matchLanes (d : BitVec 6) (a : Opnd) (w : Bool) : Sys2Proof.Laws.Encode.Statement (.matchLanes d a w) := by
  have _h0 := d.isLt
  have _h1 := opByte_lt a
  have _h2 := Bool.toNat_lt w
  refine of32 rfl (w := 0x81 + d.toNat * 0x400 + opByte a * 0x10000 + w.toNat * 0x1000000) rfl (by omega) (by omega) ?_
  generalize hw : 0x81 + d.toNat * 0x400 + opByte a * 0x10000 + w.toNat * 0x1000000 = word
  have e0 : fld word 0 4 = 1 := by simp only [fld, ← hw]; omega
  have e1 : fld word 4 6 = 8 := by simp only [fld, ← hw]; omega
  have e2 : fld word 1 3 = 0 := by simp only [fld, ← hw]; omega
  have e3 : fld word 25 7 = 0 := by simp only [fld, ← hw]; omega
  have e4 : fld word 16 8 = opByte a := by simp only [fld, ← hw]; omega
  have e5 : fld word 10 6 = d.toNat := by simp only [fld, ← hw]; omega
  have e6 : fld word 24 1 = w.toNat := by simp only [fld, ← hw]; omega
  simp [decode32, row040, need, bv, bit, opnd_opByte, bool_toNat, e0, e1, e2, e3, e4, e5, e6]

theorem Sys2Proof.Laws.Encode.iadd (d : BitVec 6) (a : Opnd) (b : Opnd) : Sys2Proof.Laws.Encode.Statement (.iadd d a b) := by
  have _h0 := d.isLt
  have _h1 := opByte_lt a
  have _h2 := opByte_lt b
  refine of32 rfl (w := 0x91 + d.toNat * 0x400 + opByte a * 0x10000 + opByte b * 0x1000000) rfl (by omega) (by omega) ?_
  generalize hw : 0x91 + d.toNat * 0x400 + opByte a * 0x10000 + opByte b * 0x1000000 = word
  have e0 : fld word 0 4 = 1 := by simp only [fld, ← hw]; omega
  have e1 : fld word 4 6 = 9 := by simp only [fld, ← hw]; omega
  have e2 : fld word 1 3 = 0 := by simp only [fld, ← hw]; omega
  have e3 : fld word 16 8 = opByte a := by simp only [fld, ← hw]; omega
  have e4 : fld word 24 8 = opByte b := by simp only [fld, ← hw]; omega
  have e5 : fld word 10 6 = d.toNat := by simp only [fld, ← hw]; omega
  simp [decode32, row048, need, bv, bit, opnd_opByte, bool_toNat, e0, e1, e2, e3, e4, e5]

theorem Sys2Proof.Laws.Encode.isub (d : BitVec 6) (a : Opnd) (b : Opnd) : Sys2Proof.Laws.Encode.Statement (.isub d a b) := by
  have _h0 := d.isLt
  have _h1 := opByte_lt a
  have _h2 := opByte_lt b
  refine of32 rfl (w := 0x93 + d.toNat * 0x400 + opByte a * 0x10000 + opByte b * 0x1000000) rfl (by omega) (by omega) ?_
  generalize hw : 0x93 + d.toNat * 0x400 + opByte a * 0x10000 + opByte b * 0x1000000 = word
  have e0 : fld word 0 4 = 3 := by simp only [fld, ← hw]; omega
  have e1 : fld word 4 6 = 9 := by simp only [fld, ← hw]; omega
  have e2 : fld word 1 3 = 1 := by simp only [fld, ← hw]; omega
  have e3 : fld word 16 8 = opByte a := by simp only [fld, ← hw]; omega
  have e4 : fld word 24 8 = opByte b := by simp only [fld, ← hw]; omega
  have e5 : fld word 10 6 = d.toNat := by simp only [fld, ← hw]; omega
  simp [decode32, row048, need, bv, bit, opnd_opByte, bool_toNat, e0, e1, e2, e3, e4, e5]

theorem Sys2Proof.Laws.Encode.imul (d : BitVec 6) (a : Opnd) (b : Opnd) : Sys2Proof.Laws.Encode.Statement (.imul d a b) := by
  have _h0 := d.isLt
  have _h1 := opByte_lt a
  have _h2 := opByte_lt b
  refine of32 rfl (w := 0x95 + d.toNat * 0x400 + opByte a * 0x10000 + opByte b * 0x1000000) rfl (by omega) (by omega) ?_
  generalize hw : 0x95 + d.toNat * 0x400 + opByte a * 0x10000 + opByte b * 0x1000000 = word
  have e0 : fld word 0 4 = 5 := by simp only [fld, ← hw]; omega
  have e1 : fld word 4 6 = 9 := by simp only [fld, ← hw]; omega
  have e2 : fld word 1 3 = 2 := by simp only [fld, ← hw]; omega
  have e3 : fld word 16 8 = opByte a := by simp only [fld, ← hw]; omega
  have e4 : fld word 24 8 = opByte b := by simp only [fld, ← hw]; omega
  have e5 : fld word 10 6 = d.toNat := by simp only [fld, ← hw]; omega
  simp [decode32, row048, need, bv, bit, opnd_opByte, bool_toNat, e0, e1, e2, e3, e4, e5]

theorem Sys2Proof.Laws.Encode.imulhi (d : BitVec 6) (a : Opnd) (b : Opnd) : Sys2Proof.Laws.Encode.Statement (.imulhi d a b) := by
  have _h0 := d.isLt
  have _h1 := opByte_lt a
  have _h2 := opByte_lt b
  refine of32 rfl (w := 0x97 + d.toNat * 0x400 + opByte a * 0x10000 + opByte b * 0x1000000) rfl (by omega) (by omega) ?_
  generalize hw : 0x97 + d.toNat * 0x400 + opByte a * 0x10000 + opByte b * 0x1000000 = word
  have e0 : fld word 0 4 = 7 := by simp only [fld, ← hw]; omega
  have e1 : fld word 4 6 = 9 := by simp only [fld, ← hw]; omega
  have e2 : fld word 1 3 = 3 := by simp only [fld, ← hw]; omega
  have e3 : fld word 16 8 = opByte a := by simp only [fld, ← hw]; omega
  have e4 : fld word 24 8 = opByte b := by simp only [fld, ← hw]; omega
  have e5 : fld word 10 6 = d.toNat := by simp only [fld, ← hw]; omega
  simp [decode32, row048, need, bv, bit, opnd_opByte, bool_toNat, e0, e1, e2, e3, e4, e5]

theorem Sys2Proof.Laws.Encode.imad (d : BitVec 6) (a : Opnd) (b : Opnd) : Sys2Proof.Laws.Encode.Statement (.imad d a b) := by
  have _h0 := d.isLt
  have _h1 := opByte_lt a
  have _h2 := opByte_lt b
  refine of32 rfl (w := 0x99 + d.toNat * 0x400 + opByte a * 0x10000 + opByte b * 0x1000000) rfl (by omega) (by omega) ?_
  generalize hw : 0x99 + d.toNat * 0x400 + opByte a * 0x10000 + opByte b * 0x1000000 = word
  have e0 : fld word 0 4 = 9 := by simp only [fld, ← hw]; omega
  have e1 : fld word 4 6 = 9 := by simp only [fld, ← hw]; omega
  have e2 : fld word 1 3 = 4 := by simp only [fld, ← hw]; omega
  have e3 : fld word 16 8 = opByte a := by simp only [fld, ← hw]; omega
  have e4 : fld word 24 8 = opByte b := by simp only [fld, ← hw]; omega
  have e5 : fld word 10 6 = d.toNat := by simp only [fld, ← hw]; omega
  simp [decode32, row048, need, bv, bit, opnd_opByte, bool_toNat, e0, e1, e2, e3, e4, e5]

theorem Sys2Proof.Laws.Encode.iaddc (d : BitVec 6) (a : Opnd) (b : Opnd) : Sys2Proof.Laws.Encode.Statement (.iaddc d a b) := by
  have _h0 := d.isLt
  have _h1 := opByte_lt a
  have _h2 := opByte_lt b
  refine of32 rfl (w := 0x9b + d.toNat * 0x400 + opByte a * 0x10000 + opByte b * 0x1000000) rfl (by omega) (by omega) ?_
  generalize hw : 0x9b + d.toNat * 0x400 + opByte a * 0x10000 + opByte b * 0x1000000 = word
  have e0 : fld word 0 4 = 11 := by simp only [fld, ← hw]; omega
  have e1 : fld word 4 6 = 9 := by simp only [fld, ← hw]; omega
  have e2 : fld word 1 3 = 5 := by simp only [fld, ← hw]; omega
  have e3 : fld word 16 8 = opByte a := by simp only [fld, ← hw]; omega
  have e4 : fld word 24 8 = opByte b := by simp only [fld, ← hw]; omega
  have e5 : fld word 10 6 = d.toNat := by simp only [fld, ← hw]; omega
  simp [decode32, row048, need, bv, bit, opnd_opByte, bool_toNat, e0, e1, e2, e3, e4, e5]

theorem Sys2Proof.Laws.Encode.isubb (d : BitVec 6) (a : Opnd) (b : Opnd) : Sys2Proof.Laws.Encode.Statement (.isubb d a b) := by
  have _h0 := d.isLt
  have _h1 := opByte_lt a
  have _h2 := opByte_lt b
  refine of32 rfl (w := 0x9d + d.toNat * 0x400 + opByte a * 0x10000 + opByte b * 0x1000000) rfl (by omega) (by omega) ?_
  generalize hw : 0x9d + d.toNat * 0x400 + opByte a * 0x10000 + opByte b * 0x1000000 = word
  have e0 : fld word 0 4 = 13 := by simp only [fld, ← hw]; omega
  have e1 : fld word 4 6 = 9 := by simp only [fld, ← hw]; omega
  have e2 : fld word 1 3 = 6 := by simp only [fld, ← hw]; omega
  have e3 : fld word 16 8 = opByte a := by simp only [fld, ← hw]; omega
  have e4 : fld word 24 8 = opByte b := by simp only [fld, ← hw]; omega
  have e5 : fld word 10 6 = d.toNat := by simp only [fld, ← hw]; omega
  simp [decode32, row048, need, bv, bit, opnd_opByte, bool_toNat, e0, e1, e2, e3, e4, e5]

theorem Sys2Proof.Laws.Encode.imin (d : BitVec 6) (a : Opnd) (b : Opnd) : Sys2Proof.Laws.Encode.Statement (.imin d a b) := by
  have _h0 := d.isLt
  have _h1 := opByte_lt a
  have _h2 := opByte_lt b
  refine of32 rfl (w := 0xa1 + d.toNat * 0x400 + opByte a * 0x10000 + opByte b * 0x1000000) rfl (by omega) (by omega) ?_
  generalize hw : 0xa1 + d.toNat * 0x400 + opByte a * 0x10000 + opByte b * 0x1000000 = word
  have e0 : fld word 0 4 = 1 := by simp only [fld, ← hw]; omega
  have e1 : fld word 4 6 = 10 := by simp only [fld, ← hw]; omega
  have e2 : fld word 1 3 = 0 := by simp only [fld, ← hw]; omega
  have e3 : fld word 16 8 = opByte a := by simp only [fld, ← hw]; omega
  have e4 : fld word 24 8 = opByte b := by simp only [fld, ← hw]; omega
  have e5 : fld word 10 6 = d.toNat := by simp only [fld, ← hw]; omega
  simp [decode32, row050, need, bv, bit, opnd_opByte, bool_toNat, e0, e1, e2, e3, e4, e5]

theorem Sys2Proof.Laws.Encode.imax (d : BitVec 6) (a : Opnd) (b : Opnd) : Sys2Proof.Laws.Encode.Statement (.imax d a b) := by
  have _h0 := d.isLt
  have _h1 := opByte_lt a
  have _h2 := opByte_lt b
  refine of32 rfl (w := 0xa3 + d.toNat * 0x400 + opByte a * 0x10000 + opByte b * 0x1000000) rfl (by omega) (by omega) ?_
  generalize hw : 0xa3 + d.toNat * 0x400 + opByte a * 0x10000 + opByte b * 0x1000000 = word
  have e0 : fld word 0 4 = 3 := by simp only [fld, ← hw]; omega
  have e1 : fld word 4 6 = 10 := by simp only [fld, ← hw]; omega
  have e2 : fld word 1 3 = 1 := by simp only [fld, ← hw]; omega
  have e3 : fld word 16 8 = opByte a := by simp only [fld, ← hw]; omega
  have e4 : fld word 24 8 = opByte b := by simp only [fld, ← hw]; omega
  have e5 : fld word 10 6 = d.toNat := by simp only [fld, ← hw]; omega
  simp [decode32, row050, need, bv, bit, opnd_opByte, bool_toNat, e0, e1, e2, e3, e4, e5]

theorem Sys2Proof.Laws.Encode.umin (d : BitVec 6) (a : Opnd) (b : Opnd) : Sys2Proof.Laws.Encode.Statement (.umin d a b) := by
  have _h0 := d.isLt
  have _h1 := opByte_lt a
  have _h2 := opByte_lt b
  refine of32 rfl (w := 0xa5 + d.toNat * 0x400 + opByte a * 0x10000 + opByte b * 0x1000000) rfl (by omega) (by omega) ?_
  generalize hw : 0xa5 + d.toNat * 0x400 + opByte a * 0x10000 + opByte b * 0x1000000 = word
  have e0 : fld word 0 4 = 5 := by simp only [fld, ← hw]; omega
  have e1 : fld word 4 6 = 10 := by simp only [fld, ← hw]; omega
  have e2 : fld word 1 3 = 2 := by simp only [fld, ← hw]; omega
  have e3 : fld word 16 8 = opByte a := by simp only [fld, ← hw]; omega
  have e4 : fld word 24 8 = opByte b := by simp only [fld, ← hw]; omega
  have e5 : fld word 10 6 = d.toNat := by simp only [fld, ← hw]; omega
  simp [decode32, row050, need, bv, bit, opnd_opByte, bool_toNat, e0, e1, e2, e3, e4, e5]

theorem Sys2Proof.Laws.Encode.umax (d : BitVec 6) (a : Opnd) (b : Opnd) : Sys2Proof.Laws.Encode.Statement (.umax d a b) := by
  have _h0 := d.isLt
  have _h1 := opByte_lt a
  have _h2 := opByte_lt b
  refine of32 rfl (w := 0xa7 + d.toNat * 0x400 + opByte a * 0x10000 + opByte b * 0x1000000) rfl (by omega) (by omega) ?_
  generalize hw : 0xa7 + d.toNat * 0x400 + opByte a * 0x10000 + opByte b * 0x1000000 = word
  have e0 : fld word 0 4 = 7 := by simp only [fld, ← hw]; omega
  have e1 : fld word 4 6 = 10 := by simp only [fld, ← hw]; omega
  have e2 : fld word 1 3 = 3 := by simp only [fld, ← hw]; omega
  have e3 : fld word 16 8 = opByte a := by simp only [fld, ← hw]; omega
  have e4 : fld word 24 8 = opByte b := by simp only [fld, ← hw]; omega
  have e5 : fld word 10 6 = d.toNat := by simp only [fld, ← hw]; omega
  simp [decode32, row050, need, bv, bit, opnd_opByte, bool_toNat, e0, e1, e2, e3, e4, e5]

theorem Sys2Proof.Laws.Encode.and (d : BitVec 6) (a : Opnd) (b : Opnd) : Sys2Proof.Laws.Encode.Statement (.and d a b) := by
  have _h0 := d.isLt
  have _h1 := opByte_lt a
  have _h2 := opByte_lt b
  refine of32 rfl (w := 0xa9 + d.toNat * 0x400 + opByte a * 0x10000 + opByte b * 0x1000000) rfl (by omega) (by omega) ?_
  generalize hw : 0xa9 + d.toNat * 0x400 + opByte a * 0x10000 + opByte b * 0x1000000 = word
  have e0 : fld word 0 4 = 9 := by simp only [fld, ← hw]; omega
  have e1 : fld word 4 6 = 10 := by simp only [fld, ← hw]; omega
  have e2 : fld word 1 3 = 4 := by simp only [fld, ← hw]; omega
  have e3 : fld word 16 8 = opByte a := by simp only [fld, ← hw]; omega
  have e4 : fld word 24 8 = opByte b := by simp only [fld, ← hw]; omega
  have e5 : fld word 10 6 = d.toNat := by simp only [fld, ← hw]; omega
  simp [decode32, row050, need, bv, bit, opnd_opByte, bool_toNat, e0, e1, e2, e3, e4, e5]

theorem Sys2Proof.Laws.Encode.or (d : BitVec 6) (a : Opnd) (b : Opnd) : Sys2Proof.Laws.Encode.Statement (.or d a b) := by
  have _h0 := d.isLt
  have _h1 := opByte_lt a
  have _h2 := opByte_lt b
  refine of32 rfl (w := 0xab + d.toNat * 0x400 + opByte a * 0x10000 + opByte b * 0x1000000) rfl (by omega) (by omega) ?_
  generalize hw : 0xab + d.toNat * 0x400 + opByte a * 0x10000 + opByte b * 0x1000000 = word
  have e0 : fld word 0 4 = 11 := by simp only [fld, ← hw]; omega
  have e1 : fld word 4 6 = 10 := by simp only [fld, ← hw]; omega
  have e2 : fld word 1 3 = 5 := by simp only [fld, ← hw]; omega
  have e3 : fld word 16 8 = opByte a := by simp only [fld, ← hw]; omega
  have e4 : fld word 24 8 = opByte b := by simp only [fld, ← hw]; omega
  have e5 : fld word 10 6 = d.toNat := by simp only [fld, ← hw]; omega
  simp [decode32, row050, need, bv, bit, opnd_opByte, bool_toNat, e0, e1, e2, e3, e4, e5]

theorem Sys2Proof.Laws.Encode.xor (d : BitVec 6) (a : Opnd) (b : Opnd) : Sys2Proof.Laws.Encode.Statement (.xor d a b) := by
  have _h0 := d.isLt
  have _h1 := opByte_lt a
  have _h2 := opByte_lt b
  refine of32 rfl (w := 0xad + d.toNat * 0x400 + opByte a * 0x10000 + opByte b * 0x1000000) rfl (by omega) (by omega) ?_
  generalize hw : 0xad + d.toNat * 0x400 + opByte a * 0x10000 + opByte b * 0x1000000 = word
  have e0 : fld word 0 4 = 13 := by simp only [fld, ← hw]; omega
  have e1 : fld word 4 6 = 10 := by simp only [fld, ← hw]; omega
  have e2 : fld word 1 3 = 6 := by simp only [fld, ← hw]; omega
  have e3 : fld word 16 8 = opByte a := by simp only [fld, ← hw]; omega
  have e4 : fld word 24 8 = opByte b := by simp only [fld, ← hw]; omega
  have e5 : fld word 10 6 = d.toNat := by simp only [fld, ← hw]; omega
  simp [decode32, row050, need, bv, bit, opnd_opByte, bool_toNat, e0, e1, e2, e3, e4, e5]

theorem Sys2Proof.Laws.Encode.andn (d : BitVec 6) (a : Opnd) (b : Opnd) : Sys2Proof.Laws.Encode.Statement (.andn d a b) := by
  have _h0 := d.isLt
  have _h1 := opByte_lt a
  have _h2 := opByte_lt b
  refine of32 rfl (w := 0xb1 + d.toNat * 0x400 + opByte a * 0x10000 + opByte b * 0x1000000) rfl (by omega) (by omega) ?_
  generalize hw : 0xb1 + d.toNat * 0x400 + opByte a * 0x10000 + opByte b * 0x1000000 = word
  have e0 : fld word 0 4 = 1 := by simp only [fld, ← hw]; omega
  have e1 : fld word 4 6 = 11 := by simp only [fld, ← hw]; omega
  have e2 : fld word 1 3 = 0 := by simp only [fld, ← hw]; omega
  have e3 : fld word 16 8 = opByte a := by simp only [fld, ← hw]; omega
  have e4 : fld word 24 8 = opByte b := by simp only [fld, ← hw]; omega
  have e5 : fld word 10 6 = d.toNat := by simp only [fld, ← hw]; omega
  simp [decode32, row058, need, bv, bit, opnd_opByte, bool_toNat, e0, e1, e2, e3, e4, e5]

theorem Sys2Proof.Laws.Encode.shl (d : BitVec 6) (a : Opnd) (b : Opnd) : Sys2Proof.Laws.Encode.Statement (.shl d a b) := by
  have _h0 := d.isLt
  have _h1 := opByte_lt a
  have _h2 := opByte_lt b
  refine of32 rfl (w := 0xb3 + d.toNat * 0x400 + opByte a * 0x10000 + opByte b * 0x1000000) rfl (by omega) (by omega) ?_
  generalize hw : 0xb3 + d.toNat * 0x400 + opByte a * 0x10000 + opByte b * 0x1000000 = word
  have e0 : fld word 0 4 = 3 := by simp only [fld, ← hw]; omega
  have e1 : fld word 4 6 = 11 := by simp only [fld, ← hw]; omega
  have e2 : fld word 1 3 = 1 := by simp only [fld, ← hw]; omega
  have e3 : fld word 16 8 = opByte a := by simp only [fld, ← hw]; omega
  have e4 : fld word 24 8 = opByte b := by simp only [fld, ← hw]; omega
  have e5 : fld word 10 6 = d.toNat := by simp only [fld, ← hw]; omega
  simp [decode32, row058, need, bv, bit, opnd_opByte, bool_toNat, e0, e1, e2, e3, e4, e5]

theorem Sys2Proof.Laws.Encode.shr (d : BitVec 6) (a : Opnd) (b : Opnd) : Sys2Proof.Laws.Encode.Statement (.shr d a b) := by
  have _h0 := d.isLt
  have _h1 := opByte_lt a
  have _h2 := opByte_lt b
  refine of32 rfl (w := 0xb5 + d.toNat * 0x400 + opByte a * 0x10000 + opByte b * 0x1000000) rfl (by omega) (by omega) ?_
  generalize hw : 0xb5 + d.toNat * 0x400 + opByte a * 0x10000 + opByte b * 0x1000000 = word
  have e0 : fld word 0 4 = 5 := by simp only [fld, ← hw]; omega
  have e1 : fld word 4 6 = 11 := by simp only [fld, ← hw]; omega
  have e2 : fld word 1 3 = 2 := by simp only [fld, ← hw]; omega
  have e3 : fld word 16 8 = opByte a := by simp only [fld, ← hw]; omega
  have e4 : fld word 24 8 = opByte b := by simp only [fld, ← hw]; omega
  have e5 : fld word 10 6 = d.toNat := by simp only [fld, ← hw]; omega
  simp [decode32, row058, need, bv, bit, opnd_opByte, bool_toNat, e0, e1, e2, e3, e4, e5]

theorem Sys2Proof.Laws.Encode.sar (d : BitVec 6) (a : Opnd) (b : Opnd) : Sys2Proof.Laws.Encode.Statement (.sar d a b) := by
  have _h0 := d.isLt
  have _h1 := opByte_lt a
  have _h2 := opByte_lt b
  refine of32 rfl (w := 0xb7 + d.toNat * 0x400 + opByte a * 0x10000 + opByte b * 0x1000000) rfl (by omega) (by omega) ?_
  generalize hw : 0xb7 + d.toNat * 0x400 + opByte a * 0x10000 + opByte b * 0x1000000 = word
  have e0 : fld word 0 4 = 7 := by simp only [fld, ← hw]; omega
  have e1 : fld word 4 6 = 11 := by simp only [fld, ← hw]; omega
  have e2 : fld word 1 3 = 3 := by simp only [fld, ← hw]; omega
  have e3 : fld word 16 8 = opByte a := by simp only [fld, ← hw]; omega
  have e4 : fld word 24 8 = opByte b := by simp only [fld, ← hw]; omega
  have e5 : fld word 10 6 = d.toNat := by simp only [fld, ← hw]; omega
  simp [decode32, row058, need, bv, bit, opnd_opByte, bool_toNat, e0, e1, e2, e3, e4, e5]

theorem Sys2Proof.Laws.Encode.rotl (d : BitVec 6) (a : Opnd) (b : Opnd) : Sys2Proof.Laws.Encode.Statement (.rotl d a b) := by
  have _h0 := d.isLt
  have _h1 := opByte_lt a
  have _h2 := opByte_lt b
  refine of32 rfl (w := 0xb9 + d.toNat * 0x400 + opByte a * 0x10000 + opByte b * 0x1000000) rfl (by omega) (by omega) ?_
  generalize hw : 0xb9 + d.toNat * 0x400 + opByte a * 0x10000 + opByte b * 0x1000000 = word
  have e0 : fld word 0 4 = 9 := by simp only [fld, ← hw]; omega
  have e1 : fld word 4 6 = 11 := by simp only [fld, ← hw]; omega
  have e2 : fld word 1 3 = 4 := by simp only [fld, ← hw]; omega
  have e3 : fld word 16 8 = opByte a := by simp only [fld, ← hw]; omega
  have e4 : fld word 24 8 = opByte b := by simp only [fld, ← hw]; omega
  have e5 : fld word 10 6 = d.toNat := by simp only [fld, ← hw]; omega
  simp [decode32, row058, need, bv, bit, opnd_opByte, bool_toNat, e0, e1, e2, e3, e4, e5]

theorem Sys2Proof.Laws.Encode.bfe (d : BitVec 6) (a : Opnd) (b : Opnd) : Sys2Proof.Laws.Encode.Statement (.bfe d a b) := by
  have _h0 := d.isLt
  have _h1 := opByte_lt a
  have _h2 := opByte_lt b
  refine of32 rfl (w := 0xbb + d.toNat * 0x400 + opByte a * 0x10000 + opByte b * 0x1000000) rfl (by omega) (by omega) ?_
  generalize hw : 0xbb + d.toNat * 0x400 + opByte a * 0x10000 + opByte b * 0x1000000 = word
  have e0 : fld word 0 4 = 11 := by simp only [fld, ← hw]; omega
  have e1 : fld word 4 6 = 11 := by simp only [fld, ← hw]; omega
  have e2 : fld word 1 3 = 5 := by simp only [fld, ← hw]; omega
  have e3 : fld word 16 8 = opByte a := by simp only [fld, ← hw]; omega
  have e4 : fld word 24 8 = opByte b := by simp only [fld, ← hw]; omega
  have e5 : fld word 10 6 = d.toNat := by simp only [fld, ← hw]; omega
  simp [decode32, row058, need, bv, bit, opnd_opByte, bool_toNat, e0, e1, e2, e3, e4, e5]

theorem Sys2Proof.Laws.Encode.bfi (d : BitVec 6) (a : Opnd) (b : Opnd) : Sys2Proof.Laws.Encode.Statement (.bfi d a b) := by
  have _h0 := d.isLt
  have _h1 := opByte_lt a
  have _h2 := opByte_lt b
  refine of32 rfl (w := 0xbd + d.toNat * 0x400 + opByte a * 0x10000 + opByte b * 0x1000000) rfl (by omega) (by omega) ?_
  generalize hw : 0xbd + d.toNat * 0x400 + opByte a * 0x10000 + opByte b * 0x1000000 = word
  have e0 : fld word 0 4 = 13 := by simp only [fld, ← hw]; omega
  have e1 : fld word 4 6 = 11 := by simp only [fld, ← hw]; omega
  have e2 : fld word 1 3 = 6 := by simp only [fld, ← hw]; omega
  have e3 : fld word 16 8 = opByte a := by simp only [fld, ← hw]; omega
  have e4 : fld word 24 8 = opByte b := by simp only [fld, ← hw]; omega
  have e5 : fld word 10 6 = d.toNat := by simp only [fld, ← hw]; omega
  simp [decode32, row058, need, bv, bit, opnd_opByte, bool_toNat, e0, e1, e2, e3, e4, e5]

theorem Sys2Proof.Laws.Encode.lea (d : BitVec 6) (a : Opnd) (b : Opnd) : Sys2Proof.Laws.Encode.Statement (.lea d a b) := by
  have _h0 := d.isLt
  have _h1 := opByte_lt a
  have _h2 := opByte_lt b
  refine of32 rfl (w := 0xc1 + d.toNat * 0x400 + opByte a * 0x10000 + opByte b * 0x1000000) rfl (by omega) (by omega) ?_
  generalize hw : 0xc1 + d.toNat * 0x400 + opByte a * 0x10000 + opByte b * 0x1000000 = word
  have e0 : fld word 0 4 = 1 := by simp only [fld, ← hw]; omega
  have e1 : fld word 4 6 = 12 := by simp only [fld, ← hw]; omega
  have e2 : fld word 1 3 = 0 := by simp only [fld, ← hw]; omega
  have e3 : fld word 16 8 = opByte a := by simp only [fld, ← hw]; omega
  have e4 : fld word 24 8 = opByte b := by simp only [fld, ← hw]; omega
  have e5 : fld word 10 6 = d.toNat := by simp only [fld, ← hw]; omega
  simp [decode32, row060, need, bv, bit, opnd_opByte, bool_toNat, e0, e1, e2, e3, e4, e5]

theorem Sys2Proof.Laws.Encode.iset (d : BitVec 6) (a : Opnd) (b : Opnd) : Sys2Proof.Laws.Encode.Statement (.iset d a b) := by
  have _h0 := d.isLt
  have _h1 := opByte_lt a
  have _h2 := opByte_lt b
  refine of32 rfl (w := 0xc3 + d.toNat * 0x400 + opByte a * 0x10000 + opByte b * 0x1000000) rfl (by omega) (by omega) ?_
  generalize hw : 0xc3 + d.toNat * 0x400 + opByte a * 0x10000 + opByte b * 0x1000000 = word
  have e0 : fld word 0 4 = 3 := by simp only [fld, ← hw]; omega
  have e1 : fld word 4 6 = 12 := by simp only [fld, ← hw]; omega
  have e2 : fld word 1 3 = 1 := by simp only [fld, ← hw]; omega
  have e3 : fld word 16 8 = opByte a := by simp only [fld, ← hw]; omega
  have e4 : fld word 24 8 = opByte b := by simp only [fld, ← hw]; omega
  have e5 : fld word 10 6 = d.toNat := by simp only [fld, ← hw]; omega
  simp [decode32, row060, need, bv, bit, opnd_opByte, bool_toNat, e0, e1, e2, e3, e4, e5]

theorem Sys2Proof.Laws.Encode.sel (d : BitVec 6) (a : Opnd) (b : Opnd) : Sys2Proof.Laws.Encode.Statement (.sel d a b) := by
  have _h0 := d.isLt
  have _h1 := opByte_lt a
  have _h2 := opByte_lt b
  refine of32 rfl (w := 0xc5 + d.toNat * 0x400 + opByte a * 0x10000 + opByte b * 0x1000000) rfl (by omega) (by omega) ?_
  generalize hw : 0xc5 + d.toNat * 0x400 + opByte a * 0x10000 + opByte b * 0x1000000 = word
  have e0 : fld word 0 4 = 5 := by simp only [fld, ← hw]; omega
  have e1 : fld word 4 6 = 12 := by simp only [fld, ← hw]; omega
  have e2 : fld word 1 3 = 2 := by simp only [fld, ← hw]; omega
  have e3 : fld word 16 8 = opByte a := by simp only [fld, ← hw]; omega
  have e4 : fld word 24 8 = opByte b := by simp only [fld, ← hw]; omega
  have e5 : fld word 10 6 = d.toNat := by simp only [fld, ← hw]; omega
  simp [decode32, row060, need, bv, bit, opnd_opByte, bool_toNat, e0, e1, e2, e3, e4, e5]

theorem Sys2Proof.Laws.Encode.pset (p : BitVec 3) (c : BitVec 3) (a : Opnd) (b : Opnd) : Sys2Proof.Laws.Encode.Statement (.pset p c a b) := by
  have _h0 := p.isLt
  have _h1 := c.isLt
  have _h2 := opByte_lt a
  have _h3 := opByte_lt b
  refine of32 rfl (w := 0xc7 + p.toNat * 0x400 + c.toNat * 0x2000 + opByte a * 0x10000 + opByte b * 0x1000000) rfl (by omega) (by omega) ?_
  generalize hw : 0xc7 + p.toNat * 0x400 + c.toNat * 0x2000 + opByte a * 0x10000 + opByte b * 0x1000000 = word
  have e0 : fld word 0 4 = 7 := by simp only [fld, ← hw]; omega
  have e1 : fld word 4 6 = 12 := by simp only [fld, ← hw]; omega
  have e2 : fld word 1 3 = 3 := by simp only [fld, ← hw]; omega
  have e3 : fld word 16 8 = opByte a := by simp only [fld, ← hw]; omega
  have e4 : fld word 24 8 = opByte b := by simp only [fld, ← hw]; omega
  have e5 : fld word 10 3 = p.toNat := by simp only [fld, ← hw]; omega
  have e6 : fld word 13 3 = c.toNat := by simp only [fld, ← hw]; omega
  simp [decode32, row060, need, bv, bit, opnd_opByte, bool_toNat, e0, e1, e2, e3, e4, e5, e6]

theorem Sys2Proof.Laws.Encode.idot4 (d : BitVec 6) (a : Opnd) (b : Opnd) : Sys2Proof.Laws.Encode.Statement (.idot4 d a b) := by
  have _h0 := d.isLt
  have _h1 := opByte_lt a
  have _h2 := opByte_lt b
  refine of32 rfl (w := 0xc9 + d.toNat * 0x400 + opByte a * 0x10000 + opByte b * 0x1000000) rfl (by omega) (by omega) ?_
  generalize hw : 0xc9 + d.toNat * 0x400 + opByte a * 0x10000 + opByte b * 0x1000000 = word
  have e0 : fld word 0 4 = 9 := by simp only [fld, ← hw]; omega
  have e1 : fld word 4 6 = 12 := by simp only [fld, ← hw]; omega
  have e2 : fld word 1 3 = 4 := by simp only [fld, ← hw]; omega
  have e3 : fld word 16 8 = opByte a := by simp only [fld, ← hw]; omega
  have e4 : fld word 24 8 = opByte b := by simp only [fld, ← hw]; omega
  have e5 : fld word 10 6 = d.toNat := by simp only [fld, ← hw]; omega
  simp [decode32, row060, need, bv, bit, opnd_opByte, bool_toNat, e0, e1, e2, e3, e4, e5]

theorem Sys2Proof.Laws.Encode.iaddi (d : BitVec 6) (a : Opnd) (i : BitVec 8) : Sys2Proof.Laws.Encode.Statement (.iaddi d a i) := by
  have _h0 := d.isLt
  have _h1 := opByte_lt a
  have _h2 := i.isLt
  refine of32 rfl (w := 0xcb + d.toNat * 0x400 + opByte a * 0x10000 + i.toNat * 0x1000000) rfl (by omega) (by omega) ?_
  generalize hw : 0xcb + d.toNat * 0x400 + opByte a * 0x10000 + i.toNat * 0x1000000 = word
  have e0 : fld word 0 4 = 11 := by simp only [fld, ← hw]; omega
  have e1 : fld word 4 6 = 12 := by simp only [fld, ← hw]; omega
  have e2 : fld word 1 3 = 5 := by simp only [fld, ← hw]; omega
  have e3 : fld word 16 8 = opByte a := by simp only [fld, ← hw]; omega
  have e4 : fld word 10 6 = d.toNat := by simp only [fld, ← hw]; omega
  have e5 : fld word 24 8 = i.toNat := by simp only [fld, ← hw]; omega
  simp [decode32, row060, need, bv, bit, opnd_opByte, bool_toNat, e0, e1, e2, e3, e4, e5]

theorem Sys2Proof.Laws.Encode.shli (d : BitVec 6) (a : Opnd) (i : BitVec 8) : Sys2Proof.Laws.Encode.Statement (.shli d a i) := by
  have _h0 := d.isLt
  have _h1 := opByte_lt a
  have _h2 := i.isLt
  refine of32 rfl (w := 0xcd + d.toNat * 0x400 + opByte a * 0x10000 + i.toNat * 0x1000000) rfl (by omega) (by omega) ?_
  generalize hw : 0xcd + d.toNat * 0x400 + opByte a * 0x10000 + i.toNat * 0x1000000 = word
  have e0 : fld word 0 4 = 13 := by simp only [fld, ← hw]; omega
  have e1 : fld word 4 6 = 12 := by simp only [fld, ← hw]; omega
  have e2 : fld word 1 3 = 6 := by simp only [fld, ← hw]; omega
  have e3 : fld word 16 8 = opByte a := by simp only [fld, ← hw]; omega
  have e4 : fld word 10 6 = d.toNat := by simp only [fld, ← hw]; omega
  have e5 : fld word 24 8 = i.toNat := by simp only [fld, ← hw]; omega
  simp [decode32, row060, need, bv, bit, opnd_opByte, bool_toNat, e0, e1, e2, e3, e4, e5]

theorem Sys2Proof.Laws.Encode.shri (d : BitVec 6) (a : Opnd) (i : BitVec 8) : Sys2Proof.Laws.Encode.Statement (.shri d a i) := by
  have _h0 := d.isLt
  have _h1 := opByte_lt a
  have _h2 := i.isLt
  refine of32 rfl (w := 0xd1 + d.toNat * 0x400 + opByte a * 0x10000 + i.toNat * 0x1000000) rfl (by omega) (by omega) ?_
  generalize hw : 0xd1 + d.toNat * 0x400 + opByte a * 0x10000 + i.toNat * 0x1000000 = word
  have e0 : fld word 0 4 = 1 := by simp only [fld, ← hw]; omega
  have e1 : fld word 4 6 = 13 := by simp only [fld, ← hw]; omega
  have e2 : fld word 1 3 = 0 := by simp only [fld, ← hw]; omega
  have e3 : fld word 16 8 = opByte a := by simp only [fld, ← hw]; omega
  have e4 : fld word 10 6 = d.toNat := by simp only [fld, ← hw]; omega
  have e5 : fld word 24 8 = i.toNat := by simp only [fld, ← hw]; omega
  simp [decode32, row068, need, bv, bit, opnd_opByte, bool_toNat, e0, e1, e2, e3, e4, e5]

theorem Sys2Proof.Laws.Encode.iseti (d : BitVec 6) (a : Opnd) (i : BitVec 8) : Sys2Proof.Laws.Encode.Statement (.iseti d a i) := by
  have _h0 := d.isLt
  have _h1 := opByte_lt a
  have _h2 := i.isLt
  refine of32 rfl (w := 0xd3 + d.toNat * 0x400 + opByte a * 0x10000 + i.toNat * 0x1000000) rfl (by omega) (by omega) ?_
  generalize hw : 0xd3 + d.toNat * 0x400 + opByte a * 0x10000 + i.toNat * 0x1000000 = word
  have e0 : fld word 0 4 = 3 := by simp only [fld, ← hw]; omega
  have e1 : fld word 4 6 = 13 := by simp only [fld, ← hw]; omega
  have e2 : fld word 1 3 = 1 := by simp only [fld, ← hw]; omega
  have e3 : fld word 16 8 = opByte a := by simp only [fld, ← hw]; omega
  have e4 : fld word 10 6 = d.toNat := by simp only [fld, ← hw]; omega
  have e5 : fld word 24 8 = i.toNat := by simp only [fld, ← hw]; omega
  simp [decode32, row068, need, bv, bit, opnd_opByte, bool_toNat, e0, e1, e2, e3, e4, e5]

theorem Sys2Proof.Laws.Encode.ineg (d : BitVec 6) (a : Opnd) : Sys2Proof.Laws.Encode.Statement (.ineg d a) := by
  have _h0 := d.isLt
  have _h1 := opByte_lt a
  refine of32 rfl (w := 0xd5 + d.toNat * 0x400 + opByte a * 0x10000) rfl (by omega) (by omega) ?_
  generalize hw : 0xd5 + d.toNat * 0x400 + opByte a * 0x10000 = word
  have e0 : fld word 0 4 = 5 := by simp only [fld, ← hw]; omega
  have e1 : fld word 4 6 = 13 := by simp only [fld, ← hw]; omega
  have e2 : fld word 1 3 = 2 := by simp only [fld, ← hw]; omega
  have e3 : fld word 24 8 = 0 := by simp only [fld, ← hw]; omega
  have e4 : fld word 16 8 = opByte a := by simp only [fld, ← hw]; omega
  have e5 : fld word 10 6 = d.toNat := by simp only [fld, ← hw]; omega
  simp [decode32, row068, need, bv, bit, opnd_opByte, bool_toNat, e0, e1, e2, e3, e4, e5]

theorem Sys2Proof.Laws.Encode.iabs (d : BitVec 6) (a : Opnd) : Sys2Proof.Laws.Encode.Statement (.iabs d a) := by
  have _h0 := d.isLt
  have _h1 := opByte_lt a
  refine of32 rfl (w := 0xd7 + d.toNat * 0x400 + opByte a * 0x10000) rfl (by omega) (by omega) ?_
  generalize hw : 0xd7 + d.toNat * 0x400 + opByte a * 0x10000 = word
  have e0 : fld word 0 4 = 7 := by simp only [fld, ← hw]; omega
  have e1 : fld word 4 6 = 13 := by simp only [fld, ← hw]; omega
  have e2 : fld word 1 3 = 3 := by simp only [fld, ← hw]; omega
  have e3 : fld word 24 8 = 0 := by simp only [fld, ← hw]; omega
  have e4 : fld word 16 8 = opByte a := by simp only [fld, ← hw]; omega
  have e5 : fld word 10 6 = d.toNat := by simp only [fld, ← hw]; omega
  simp [decode32, row068, need, bv, bit, opnd_opByte, bool_toNat, e0, e1, e2, e3, e4, e5]

theorem Sys2Proof.Laws.Encode.not (d : BitVec 6) (a : Opnd) : Sys2Proof.Laws.Encode.Statement (.not d a) := by
  have _h0 := d.isLt
  have _h1 := opByte_lt a
  refine of32 rfl (w := 0xd9 + d.toNat * 0x400 + opByte a * 0x10000) rfl (by omega) (by omega) ?_
  generalize hw : 0xd9 + d.toNat * 0x400 + opByte a * 0x10000 = word
  have e0 : fld word 0 4 = 9 := by simp only [fld, ← hw]; omega
  have e1 : fld word 4 6 = 13 := by simp only [fld, ← hw]; omega
  have e2 : fld word 1 3 = 4 := by simp only [fld, ← hw]; omega
  have e3 : fld word 24 8 = 0 := by simp only [fld, ← hw]; omega
  have e4 : fld word 16 8 = opByte a := by simp only [fld, ← hw]; omega
  have e5 : fld word 10 6 = d.toNat := by simp only [fld, ← hw]; omega
  simp [decode32, row068, need, bv, bit, opnd_opByte, bool_toNat, e0, e1, e2, e3, e4, e5]

theorem Sys2Proof.Laws.Encode.popc (d : BitVec 6) (a : Opnd) : Sys2Proof.Laws.Encode.Statement (.popc d a) := by
  have _h0 := d.isLt
  have _h1 := opByte_lt a
  refine of32 rfl (w := 0xdb + d.toNat * 0x400 + opByte a * 0x10000) rfl (by omega) (by omega) ?_
  generalize hw : 0xdb + d.toNat * 0x400 + opByte a * 0x10000 = word
  have e0 : fld word 0 4 = 11 := by simp only [fld, ← hw]; omega
  have e1 : fld word 4 6 = 13 := by simp only [fld, ← hw]; omega
  have e2 : fld word 1 3 = 5 := by simp only [fld, ← hw]; omega
  have e3 : fld word 24 8 = 0 := by simp only [fld, ← hw]; omega
  have e4 : fld word 16 8 = opByte a := by simp only [fld, ← hw]; omega
  have e5 : fld word 10 6 = d.toNat := by simp only [fld, ← hw]; omega
  simp [decode32, row068, need, bv, bit, opnd_opByte, bool_toNat, e0, e1, e2, e3, e4, e5]

theorem Sys2Proof.Laws.Encode.clz (d : BitVec 6) (a : Opnd) : Sys2Proof.Laws.Encode.Statement (.clz d a) := by
  have _h0 := d.isLt
  have _h1 := opByte_lt a
  refine of32 rfl (w := 0xdd + d.toNat * 0x400 + opByte a * 0x10000) rfl (by omega) (by omega) ?_
  generalize hw : 0xdd + d.toNat * 0x400 + opByte a * 0x10000 = word
  have e0 : fld word 0 4 = 13 := by simp only [fld, ← hw]; omega
  have e1 : fld word 4 6 = 13 := by simp only [fld, ← hw]; omega
  have e2 : fld word 1 3 = 6 := by simp only [fld, ← hw]; omega
  have e3 : fld word 24 8 = 0 := by simp only [fld, ← hw]; omega
  have e4 : fld word 16 8 = opByte a := by simp only [fld, ← hw]; omega
  have e5 : fld word 10 6 = d.toNat := by simp only [fld, ← hw]; omega
  simp [decode32, row068, need, bv, bit, opnd_opByte, bool_toNat, e0, e1, e2, e3, e4, e5]

theorem Sys2Proof.Laws.Encode.brev (d : BitVec 6) (a : Opnd) : Sys2Proof.Laws.Encode.Statement (.brev d a) := by
  have _h0 := d.isLt
  have _h1 := opByte_lt a
  refine of32 rfl (w := 0xe1 + d.toNat * 0x400 + opByte a * 0x10000) rfl (by omega) (by omega) ?_
  generalize hw : 0xe1 + d.toNat * 0x400 + opByte a * 0x10000 = word
  have e0 : fld word 0 4 = 1 := by simp only [fld, ← hw]; omega
  have e1 : fld word 4 6 = 14 := by simp only [fld, ← hw]; omega
  have e2 : fld word 1 3 = 0 := by simp only [fld, ← hw]; omega
  have e3 : fld word 24 8 = 0 := by simp only [fld, ← hw]; omega
  have e4 : fld word 16 8 = opByte a := by simp only [fld, ← hw]; omega
  have e5 : fld word 10 6 = d.toNat := by simp only [fld, ← hw]; omega
  simp [decode32, row070, need, bv, bit, opnd_opByte, bool_toNat, e0, e1, e2, e3, e4, e5]

theorem Sys2Proof.Laws.Encode.fadd (d : BitVec 6) (a : Opnd) (b : Opnd) : Sys2Proof.Laws.Encode.Statement (.fadd d a b) := by
  have _h0 := d.isLt
  have _h1 := opByte_lt a
  have _h2 := opByte_lt b
  refine of32 rfl (w := 0xf1 + d.toNat * 0x400 + opByte a * 0x10000 + opByte b * 0x1000000) rfl (by omega) (by omega) ?_
  generalize hw : 0xf1 + d.toNat * 0x400 + opByte a * 0x10000 + opByte b * 0x1000000 = word
  have e0 : fld word 0 4 = 1 := by simp only [fld, ← hw]; omega
  have e1 : fld word 4 6 = 15 := by simp only [fld, ← hw]; omega
  have e2 : fld word 1 3 = 0 := by simp only [fld, ← hw]; omega
  have e3 : fld word 16 8 = opByte a := by simp only [fld, ← hw]; omega
  have e4 : fld word 24 8 = opByte b := by simp only [fld, ← hw]; omega
  have e5 : fld word 10 6 = d.toNat := by simp only [fld, ← hw]; omega
  simp [decode32, row078, need, bv, bit, opnd_opByte, bool_toNat, e0, e1, e2, e3, e4, e5]

theorem Sys2Proof.Laws.Encode.fsub (d : BitVec 6) (a : Opnd) (b : Opnd) : Sys2Proof.Laws.Encode.Statement (.fsub d a b) := by
  have _h0 := d.isLt
  have _h1 := opByte_lt a
  have _h2 := opByte_lt b
  refine of32 rfl (w := 0xf3 + d.toNat * 0x400 + opByte a * 0x10000 + opByte b * 0x1000000) rfl (by omega) (by omega) ?_
  generalize hw : 0xf3 + d.toNat * 0x400 + opByte a * 0x10000 + opByte b * 0x1000000 = word
  have e0 : fld word 0 4 = 3 := by simp only [fld, ← hw]; omega
  have e1 : fld word 4 6 = 15 := by simp only [fld, ← hw]; omega
  have e2 : fld word 1 3 = 1 := by simp only [fld, ← hw]; omega
  have e3 : fld word 16 8 = opByte a := by simp only [fld, ← hw]; omega
  have e4 : fld word 24 8 = opByte b := by simp only [fld, ← hw]; omega
  have e5 : fld word 10 6 = d.toNat := by simp only [fld, ← hw]; omega
  simp [decode32, row078, need, bv, bit, opnd_opByte, bool_toNat, e0, e1, e2, e3, e4, e5]

theorem Sys2Proof.Laws.Encode.fmul (d : BitVec 6) (a : Opnd) (b : Opnd) : Sys2Proof.Laws.Encode.Statement (.fmul d a b) := by
  have _h0 := d.isLt
  have _h1 := opByte_lt a
  have _h2 := opByte_lt b
  refine of32 rfl (w := 0xf5 + d.toNat * 0x400 + opByte a * 0x10000 + opByte b * 0x1000000) rfl (by omega) (by omega) ?_
  generalize hw : 0xf5 + d.toNat * 0x400 + opByte a * 0x10000 + opByte b * 0x1000000 = word
  have e0 : fld word 0 4 = 5 := by simp only [fld, ← hw]; omega
  have e1 : fld word 4 6 = 15 := by simp only [fld, ← hw]; omega
  have e2 : fld word 1 3 = 2 := by simp only [fld, ← hw]; omega
  have e3 : fld word 16 8 = opByte a := by simp only [fld, ← hw]; omega
  have e4 : fld word 24 8 = opByte b := by simp only [fld, ← hw]; omega
  have e5 : fld word 10 6 = d.toNat := by simp only [fld, ← hw]; omega
  simp [decode32, row078, need, bv, bit, opnd_opByte, bool_toNat, e0, e1, e2, e3, e4, e5]

theorem Sys2Proof.Laws.Encode.ffma (d : BitVec 6) (a : Opnd) (b : Opnd) : Sys2Proof.Laws.Encode.Statement (.ffma d a b) := by
  have _h0 := d.isLt
  have _h1 := opByte_lt a
  have _h2 := opByte_lt b
  refine of32 rfl (w := 0xf7 + d.toNat * 0x400 + opByte a * 0x10000 + opByte b * 0x1000000) rfl (by omega) (by omega) ?_
  generalize hw : 0xf7 + d.toNat * 0x400 + opByte a * 0x10000 + opByte b * 0x1000000 = word
  have e0 : fld word 0 4 = 7 := by simp only [fld, ← hw]; omega
  have e1 : fld word 4 6 = 15 := by simp only [fld, ← hw]; omega
  have e2 : fld word 1 3 = 3 := by simp only [fld, ← hw]; omega
  have e3 : fld word 16 8 = opByte a := by simp only [fld, ← hw]; omega
  have e4 : fld word 24 8 = opByte b := by simp only [fld, ← hw]; omega
  have e5 : fld word 10 6 = d.toNat := by simp only [fld, ← hw]; omega
  simp [decode32, row078, need, bv, bit, opnd_opByte, bool_toNat, e0, e1, e2, e3, e4, e5]

theorem Sys2Proof.Laws.Encode.fmin (d : BitVec 6) (a : Opnd) (b : Opnd) : Sys2Proof.Laws.Encode.Statement (.fmin d a b) := by
  have _h0 := d.isLt
  have _h1 := opByte_lt a
  have _h2 := opByte_lt b
  refine of32 rfl (w := 0xf9 + d.toNat * 0x400 + opByte a * 0x10000 + opByte b * 0x1000000) rfl (by omega) (by omega) ?_
  generalize hw : 0xf9 + d.toNat * 0x400 + opByte a * 0x10000 + opByte b * 0x1000000 = word
  have e0 : fld word 0 4 = 9 := by simp only [fld, ← hw]; omega
  have e1 : fld word 4 6 = 15 := by simp only [fld, ← hw]; omega
  have e2 : fld word 1 3 = 4 := by simp only [fld, ← hw]; omega
  have e3 : fld word 16 8 = opByte a := by simp only [fld, ← hw]; omega
  have e4 : fld word 24 8 = opByte b := by simp only [fld, ← hw]; omega
  have e5 : fld word 10 6 = d.toNat := by simp only [fld, ← hw]; omega
  simp [decode32, row078, need, bv, bit, opnd_opByte, bool_toNat, e0, e1, e2, e3, e4, e5]

theorem Sys2Proof.Laws.Encode.fmax (d : BitVec 6) (a : Opnd) (b : Opnd) : Sys2Proof.Laws.Encode.Statement (.fmax d a b) := by
  have _h0 := d.isLt
  have _h1 := opByte_lt a
  have _h2 := opByte_lt b
  refine of32 rfl (w := 0xfb + d.toNat * 0x400 + opByte a * 0x10000 + opByte b * 0x1000000) rfl (by omega) (by omega) ?_
  generalize hw : 0xfb + d.toNat * 0x400 + opByte a * 0x10000 + opByte b * 0x1000000 = word
  have e0 : fld word 0 4 = 11 := by simp only [fld, ← hw]; omega
  have e1 : fld word 4 6 = 15 := by simp only [fld, ← hw]; omega
  have e2 : fld word 1 3 = 5 := by simp only [fld, ← hw]; omega
  have e3 : fld word 16 8 = opByte a := by simp only [fld, ← hw]; omega
  have e4 : fld word 24 8 = opByte b := by simp only [fld, ← hw]; omega
  have e5 : fld word 10 6 = d.toNat := by simp only [fld, ← hw]; omega
  simp [decode32, row078, need, bv, bit, opnd_opByte, bool_toNat, e0, e1, e2, e3, e4, e5]

theorem Sys2Proof.Laws.Encode.fset (p : BitVec 3) (c : BitVec 3) (a : Opnd) (b : Opnd) : Sys2Proof.Laws.Encode.Statement (.fset p c a b) := by
  have _h0 := p.isLt
  have _h1 := c.isLt
  have _h2 := opByte_lt a
  have _h3 := opByte_lt b
  refine of32 rfl (w := 0xfd + p.toNat * 0x400 + c.toNat * 0x2000 + opByte a * 0x10000 + opByte b * 0x1000000) rfl (by omega) (by omega) ?_
  generalize hw : 0xfd + p.toNat * 0x400 + c.toNat * 0x2000 + opByte a * 0x10000 + opByte b * 0x1000000 = word
  have e0 : fld word 0 4 = 13 := by simp only [fld, ← hw]; omega
  have e1 : fld word 4 6 = 15 := by simp only [fld, ← hw]; omega
  have e2 : fld word 1 3 = 6 := by simp only [fld, ← hw]; omega
  have e3 : fld word 16 8 = opByte a := by simp only [fld, ← hw]; omega
  have e4 : fld word 24 8 = opByte b := by simp only [fld, ← hw]; omega
  have e5 : fld word 10 3 = p.toNat := by simp only [fld, ← hw]; omega
  have e6 : fld word 13 3 = c.toNat := by simp only [fld, ← hw]; omega
  simp [decode32, row078, need, bv, bit, opnd_opByte, bool_toNat, e0, e1, e2, e3, e4, e5, e6]

theorem Sys2Proof.Laws.Encode.fscale (d : BitVec 6) (a : Opnd) (b : Opnd) : Sys2Proof.Laws.Encode.Statement (.fscale d a b) := by
  have _h0 := d.isLt
  have _h1 := opByte_lt a
  have _h2 := opByte_lt b
  refine of32 rfl (w := 0x101 + d.toNat * 0x400 + opByte a * 0x10000 + opByte b * 0x1000000) rfl (by omega) (by omega) ?_
  generalize hw : 0x101 + d.toNat * 0x400 + opByte a * 0x10000 + opByte b * 0x1000000 = word
  have e0 : fld word 0 4 = 1 := by simp only [fld, ← hw]; omega
  have e1 : fld word 4 6 = 16 := by simp only [fld, ← hw]; omega
  have e2 : fld word 1 3 = 0 := by simp only [fld, ← hw]; omega
  have e3 : fld word 16 8 = opByte a := by simp only [fld, ← hw]; omega
  have e4 : fld word 24 8 = opByte b := by simp only [fld, ← hw]; omega
  have e5 : fld word 10 6 = d.toNat := by simp only [fld, ← hw]; omega
  simp [decode32, row080, need, bv, bit, opnd_opByte, bool_toNat, e0, e1, e2, e3, e4, e5]

theorem Sys2Proof.Laws.Encode.fdot2 (d : BitVec 6) (a : Opnd) (b : Opnd) : Sys2Proof.Laws.Encode.Statement (.fdot2 d a b) := by
  have _h0 := d.isLt
  have _h1 := opByte_lt a
  have _h2 := opByte_lt b
  refine of32 rfl (w := 0x103 + d.toNat * 0x400 + opByte a * 0x10000 + opByte b * 0x1000000) rfl (by omega) (by omega) ?_
  generalize hw : 0x103 + d.toNat * 0x400 + opByte a * 0x10000 + opByte b * 0x1000000 = word
  have e0 : fld word 0 4 = 3 := by simp only [fld, ← hw]; omega
  have e1 : fld word 4 6 = 16 := by simp only [fld, ← hw]; omega
  have e2 : fld word 1 3 = 1 := by simp only [fld, ← hw]; omega
  have e3 : fld word 16 8 = opByte a := by simp only [fld, ← hw]; omega
  have e4 : fld word 24 8 = opByte b := by simp only [fld, ← hw]; omega
  have e5 : fld word 10 6 = d.toNat := by simp only [fld, ← hw]; omega
  simp [decode32, row080, need, bv, bit, opnd_opByte, bool_toNat, e0, e1, e2, e3, e4, e5]

theorem Sys2Proof.Laws.Encode.fabs (d : BitVec 6) (a : Opnd) : Sys2Proof.Laws.Encode.Statement (.fabs d a) := by
  have _h0 := d.isLt
  have _h1 := opByte_lt a
  refine of32 rfl (w := 0x105 + d.toNat * 0x400 + opByte a * 0x10000) rfl (by omega) (by omega) ?_
  generalize hw : 0x105 + d.toNat * 0x400 + opByte a * 0x10000 = word
  have e0 : fld word 0 4 = 5 := by simp only [fld, ← hw]; omega
  have e1 : fld word 4 6 = 16 := by simp only [fld, ← hw]; omega
  have e2 : fld word 1 3 = 2 := by simp only [fld, ← hw]; omega
  have e3 : fld word 24 8 = 0 := by simp only [fld, ← hw]; omega
  have e4 : fld word 16 8 = opByte a := by simp only [fld, ← hw]; omega
  have e5 : fld word 10 6 = d.toNat := by simp only [fld, ← hw]; omega
  simp [decode32, row080, need, bv, bit, opnd_opByte, bool_toNat, e0, e1, e2, e3, e4, e5]

theorem Sys2Proof.Laws.Encode.fneg (d : BitVec 6) (a : Opnd) : Sys2Proof.Laws.Encode.Statement (.fneg d a) := by
  have _h0 := d.isLt
  have _h1 := opByte_lt a
  refine of32 rfl (w := 0x107 + d.toNat * 0x400 + opByte a * 0x10000) rfl (by omega) (by omega) ?_
  generalize hw : 0x107 + d.toNat * 0x400 + opByte a * 0x10000 = word
  have e0 : fld word 0 4 = 7 := by simp only [fld, ← hw]; omega
  have e1 : fld word 4 6 = 16 := by simp only [fld, ← hw]; omega
  have e2 : fld word 1 3 = 3 := by simp only [fld, ← hw]; omega
  have e3 : fld word 24 8 = 0 := by simp only [fld, ← hw]; omega
  have e4 : fld word 16 8 = opByte a := by simp only [fld, ← hw]; omega
  have e5 : fld word 10 6 = d.toNat := by simp only [fld, ← hw]; omega
  simp [decode32, row080, need, bv, bit, opnd_opByte, bool_toNat, e0, e1, e2, e3, e4, e5]

theorem Sys2Proof.Laws.Encode.frcp (d : BitVec 6) (a : Opnd) : Sys2Proof.Laws.Encode.Statement (.frcp d a) := by
  have _h0 := d.isLt
  have _h1 := opByte_lt a
  refine of32 rfl (w := 0x109 + d.toNat * 0x400 + opByte a * 0x10000) rfl (by omega) (by omega) ?_
  generalize hw : 0x109 + d.toNat * 0x400 + opByte a * 0x10000 = word
  have e0 : fld word 0 4 = 9 := by simp only [fld, ← hw]; omega
  have e1 : fld word 4 6 = 16 := by simp only [fld, ← hw]; omega
  have e2 : fld word 1 3 = 4 := by simp only [fld, ← hw]; omega
  have e3 : fld word 24 8 = 0 := by simp only [fld, ← hw]; omega
  have e4 : fld word 16 8 = opByte a := by simp only [fld, ← hw]; omega
  have e5 : fld word 10 6 = d.toNat := by simp only [fld, ← hw]; omega
  simp [decode32, row080, need, bv, bit, opnd_opByte, bool_toNat, e0, e1, e2, e3, e4, e5]

theorem Sys2Proof.Laws.Encode.frsq (d : BitVec 6) (a : Opnd) : Sys2Proof.Laws.Encode.Statement (.frsq d a) := by
  have _h0 := d.isLt
  have _h1 := opByte_lt a
  refine of32 rfl (w := 0x10b + d.toNat * 0x400 + opByte a * 0x10000) rfl (by omega) (by omega) ?_
  generalize hw : 0x10b + d.toNat * 0x400 + opByte a * 0x10000 = word
  have e0 : fld word 0 4 = 11 := by simp only [fld, ← hw]; omega
  have e1 : fld word 4 6 = 16 := by simp only [fld, ← hw]; omega
  have e2 : fld word 1 3 = 5 := by simp only [fld, ← hw]; omega
  have e3 : fld word 24 8 = 0 := by simp only [fld, ← hw]; omega
  have e4 : fld word 16 8 = opByte a := by simp only [fld, ← hw]; omega
  have e5 : fld word 10 6 = d.toNat := by simp only [fld, ← hw]; omega
  simp [decode32, row080, need, bv, bit, opnd_opByte, bool_toNat, e0, e1, e2, e3, e4, e5]

theorem Sys2Proof.Laws.Encode.fsqrt (d : BitVec 6) (a : Opnd) : Sys2Proof.Laws.Encode.Statement (.fsqrt d a) := by
  have _h0 := d.isLt
  have _h1 := opByte_lt a
  refine of32 rfl (w := 0x10d + d.toNat * 0x400 + opByte a * 0x10000) rfl (by omega) (by omega) ?_
  generalize hw : 0x10d + d.toNat * 0x400 + opByte a * 0x10000 = word
  have e0 : fld word 0 4 = 13 := by simp only [fld, ← hw]; omega
  have e1 : fld word 4 6 = 16 := by simp only [fld, ← hw]; omega
  have e2 : fld word 1 3 = 6 := by simp only [fld, ← hw]; omega
  have e3 : fld word 24 8 = 0 := by simp only [fld, ← hw]; omega
  have e4 : fld word 16 8 = opByte a := by simp only [fld, ← hw]; omega
  have e5 : fld word 10 6 = d.toNat := by simp only [fld, ← hw]; omega
  simp [decode32, row080, need, bv, bit, opnd_opByte, bool_toNat, e0, e1, e2, e3, e4, e5]

theorem Sys2Proof.Laws.Encode.fexp2 (d : BitVec 6) (a : Opnd) : Sys2Proof.Laws.Encode.Statement (.fexp2 d a) := by
  have _h0 := d.isLt
  have _h1 := opByte_lt a
  refine of32 rfl (w := 0x111 + d.toNat * 0x400 + opByte a * 0x10000) rfl (by omega) (by omega) ?_
  generalize hw : 0x111 + d.toNat * 0x400 + opByte a * 0x10000 = word
  have e0 : fld word 0 4 = 1 := by simp only [fld, ← hw]; omega
  have e1 : fld word 4 6 = 17 := by simp only [fld, ← hw]; omega
  have e2 : fld word 1 3 = 0 := by simp only [fld, ← hw]; omega
  have e3 : fld word 24 8 = 0 := by simp only [fld, ← hw]; omega
  have e4 : fld word 16 8 = opByte a := by simp only [fld, ← hw]; omega
  have e5 : fld word 10 6 = d.toNat := by simp only [fld, ← hw]; omega
  simp [decode32, row088, need, bv, bit, opnd_opByte, bool_toNat, e0, e1, e2, e3, e4, e5]

theorem Sys2Proof.Laws.Encode.flog2 (d : BitVec 6) (a : Opnd) : Sys2Proof.Laws.Encode.Statement (.flog2 d a) := by
  have _h0 := d.isLt
  have _h1 := opByte_lt a
  refine of32 rfl (w := 0x113 + d.toNat * 0x400 + opByte a * 0x10000) rfl (by omega) (by omega) ?_
  generalize hw : 0x113 + d.toNat * 0x400 + opByte a * 0x10000 = word
  have e0 : fld word 0 4 = 3 := by simp only [fld, ← hw]; omega
  have e1 : fld word 4 6 = 17 := by simp only [fld, ← hw]; omega
  have e2 : fld word 1 3 = 1 := by simp only [fld, ← hw]; omega
  have e3 : fld word 24 8 = 0 := by simp only [fld, ← hw]; omega
  have e4 : fld word 16 8 = opByte a := by simp only [fld, ← hw]; omega
  have e5 : fld word 10 6 = d.toNat := by simp only [fld, ← hw]; omega
  simp [decode32, row088, need, bv, bit, opnd_opByte, bool_toNat, e0, e1, e2, e3, e4, e5]

theorem Sys2Proof.Laws.Encode.fsin (d : BitVec 6) (a : Opnd) : Sys2Proof.Laws.Encode.Statement (.fsin d a) := by
  have _h0 := d.isLt
  have _h1 := opByte_lt a
  refine of32 rfl (w := 0x115 + d.toNat * 0x400 + opByte a * 0x10000) rfl (by omega) (by omega) ?_
  generalize hw : 0x115 + d.toNat * 0x400 + opByte a * 0x10000 = word
  have e0 : fld word 0 4 = 5 := by simp only [fld, ← hw]; omega
  have e1 : fld word 4 6 = 17 := by simp only [fld, ← hw]; omega
  have e2 : fld word 1 3 = 2 := by simp only [fld, ← hw]; omega
  have e3 : fld word 24 8 = 0 := by simp only [fld, ← hw]; omega
  have e4 : fld word 16 8 = opByte a := by simp only [fld, ← hw]; omega
  have e5 : fld word 10 6 = d.toNat := by simp only [fld, ← hw]; omega
  simp [decode32, row088, need, bv, bit, opnd_opByte, bool_toNat, e0, e1, e2, e3, e4, e5]

theorem Sys2Proof.Laws.Encode.fcos (d : BitVec 6) (a : Opnd) : Sys2Proof.Laws.Encode.Statement (.fcos d a) := by
  have _h0 := d.isLt
  have _h1 := opByte_lt a
  refine of32 rfl (w := 0x117 + d.toNat * 0x400 + opByte a * 0x10000) rfl (by omega) (by omega) ?_
  generalize hw : 0x117 + d.toNat * 0x400 + opByte a * 0x10000 = word
  have e0 : fld word 0 4 = 7 := by simp only [fld, ← hw]; omega
  have e1 : fld word 4 6 = 17 := by simp only [fld, ← hw]; omega
  have e2 : fld word 1 3 = 3 := by simp only [fld, ← hw]; omega
  have e3 : fld word 24 8 = 0 := by simp only [fld, ← hw]; omega
  have e4 : fld word 16 8 = opByte a := by simp only [fld, ← hw]; omega
  have e5 : fld word 10 6 = d.toNat := by simp only [fld, ← hw]; omega
  simp [decode32, row088, need, bv, bit, opnd_opByte, bool_toNat, e0, e1, e2, e3, e4, e5]

theorem Sys2Proof.Laws.Encode.ftanh (d : BitVec 6) (a : Opnd) : Sys2Proof.Laws.Encode.Statement (.ftanh d a) := by
  have _h0 := d.isLt
  have _h1 := opByte_lt a
  refine of32 rfl (w := 0x119 + d.toNat * 0x400 + opByte a * 0x10000) rfl (by omega) (by omega) ?_
  generalize hw : 0x119 + d.toNat * 0x400 + opByte a * 0x10000 = word
  have e0 : fld word 0 4 = 9 := by simp only [fld, ← hw]; omega
  have e1 : fld word 4 6 = 17 := by simp only [fld, ← hw]; omega
  have e2 : fld word 1 3 = 4 := by simp only [fld, ← hw]; omega
  have e3 : fld word 24 8 = 0 := by simp only [fld, ← hw]; omega
  have e4 : fld word 16 8 = opByte a := by simp only [fld, ← hw]; omega
  have e5 : fld word 10 6 = d.toNat := by simp only [fld, ← hw]; omega
  simp [decode32, row088, need, bv, bit, opnd_opByte, bool_toNat, e0, e1, e2, e3, e4, e5]

theorem Sys2Proof.Laws.Encode.frnd (d : BitVec 6) (a : Opnd) (f : BitVec 8) : Sys2Proof.Laws.Encode.Statement (.frnd d a f) := by
  have _h0 := d.isLt
  have _h1 := opByte_lt a
  have _h2 := f.isLt
  refine of32 rfl (w := 0x11b + d.toNat * 0x400 + opByte a * 0x10000 + f.toNat * 0x1000000) rfl (by omega) (by omega) ?_
  generalize hw : 0x11b + d.toNat * 0x400 + opByte a * 0x10000 + f.toNat * 0x1000000 = word
  have e0 : fld word 0 4 = 11 := by simp only [fld, ← hw]; omega
  have e1 : fld word 4 6 = 17 := by simp only [fld, ← hw]; omega
  have e2 : fld word 1 3 = 5 := by simp only [fld, ← hw]; omega
  have e3 : fld word 16 8 = opByte a := by simp only [fld, ← hw]; omega
  have e4 : fld word 10 6 = d.toNat := by simp only [fld, ← hw]; omega
  have e5 : fld word 24 8 = f.toNat := by simp only [fld, ← hw]; omega
  simp [decode32, row088, need, bv, bit, opnd_opByte, bool_toNat, e0, e1, e2, e3, e4, e5]

theorem Sys2Proof.Laws.Encode.fclass (d : BitVec 6) (a : Opnd) : Sys2Proof.Laws.Encode.Statement (.fclass d a) := by
  have _h0 := d.isLt
  have _h1 := opByte_lt a
  refine of32 rfl (w := 0x11d + d.toNat * 0x400 + opByte a * 0x10000) rfl (by omega) (by omega) ?_
  generalize hw : 0x11d + d.toNat * 0x400 + opByte a * 0x10000 = word
  have e0 : fld word 0 4 = 13 := by simp only [fld, ← hw]; omega
  have e1 : fld word 4 6 = 17 := by simp only [fld, ← hw]; omega
  have e2 : fld word 1 3 = 6 := by simp only [fld, ← hw]; omega
  have e3 : fld word 24 8 = 0 := by simp only [fld, ← hw]; omega
  have e4 : fld word 16 8 = opByte a := by simp only [fld, ← hw]; omega
  have e5 : fld word 10 6 = d.toNat := by simp only [fld, ← hw]; omega
  simp [decode32, row088, need, bv, bit, opnd_opByte, bool_toNat, e0, e1, e2, e3, e4, e5]

theorem Sys2Proof.Laws.Encode.cvt (d : BitVec 6) (a : Opnd) (r : BitVec 3) (g : BitVec 4) : Sys2Proof.Laws.Encode.Statement (.cvt d a r g) := by
  have _h0 := d.isLt
  have _h1 := opByte_lt a
  have _h2 := r.isLt
  have _h3 := g.isLt
  refine of32 rfl (w := 0x131 + d.toNat * 0x400 + opByte a * 0x10000 + r.toNat * 0x2000000 + g.toNat * 0x10000000) rfl (by omega) (by omega) ?_
  generalize hw : 0x131 + d.toNat * 0x400 + opByte a * 0x10000 + r.toNat * 0x2000000 + g.toNat * 0x10000000 = word
  have e0 : fld word 0 4 = 1 := by simp only [fld, ← hw]; omega
  have e1 : fld word 4 6 = 19 := by simp only [fld, ← hw]; omega
  have e2 : fld word 1 3 = 0 := by simp only [fld, ← hw]; omega
  have e3 : fld word 24 1 = 0 := by simp only [fld, ← hw]; omega
  have e4 : fld word 16 8 = opByte a := by simp only [fld, ← hw]; omega
  have e5 : fld word 10 6 = d.toNat := by simp only [fld, ← hw]; omega
  have e6 : fld word 25 3 = r.toNat := by simp only [fld, ← hw]; omega
  have e7 : fld word 28 4 = g.toNat := by simp only [fld, ← hw]; omega
  simp [decode32, row098, need, bv, bit, opnd_opByte, bool_toNat, e0, e1, e2, e3, e4, e5, e6, e7]

theorem Sys2Proof.Laws.Encode.cvts (d : BitVec 6) (a : Opnd) (b : Opnd) : Sys2Proof.Laws.Encode.Statement (.cvts d a b) := by
  have _h0 := d.isLt
  have _h1 := opByte_lt a
  have _h2 := opByte_lt b
  refine of32 rfl (w := 0x133 + d.toNat * 0x400 + opByte a * 0x10000 + opByte b * 0x1000000) rfl (by omega) (by omega) ?_
  generalize hw : 0x133 + d.toNat * 0x400 + opByte a * 0x10000 + opByte b * 0x1000000 = word
  have e0 : fld word 0 4 = 3 := by simp only [fld, ← hw]; omega
  have e1 : fld word 4 6 = 19 := by simp only [fld, ← hw]; omega
  have e2 : fld word 1 3 = 1 := by simp only [fld, ← hw]; omega
  have e3 : fld word 16 8 = opByte a := by simp only [fld, ← hw]; omega
  have e4 : fld word 24 8 = opByte b := by simp only [fld, ← hw]; omega
  have e5 : fld word 10 6 = d.toNat := by simp only [fld, ← hw]; omega
  simp [decode32, row098, need, bv, bit, opnd_opByte, bool_toNat, e0, e1, e2, e3, e4, e5]

theorem Sys2Proof.Laws.Encode.deq (d : BitVec 6) (a : Opnd) (b : Opnd) : Sys2Proof.Laws.Encode.Statement (.deq d a b) := by
  have _h0 := d.isLt
  have _h1 := opByte_lt a
  have _h2 := opByte_lt b
  refine of32 rfl (w := 0x135 + d.toNat * 0x400 + opByte a * 0x10000 + opByte b * 0x1000000) rfl (by omega) (by omega) ?_
  generalize hw : 0x135 + d.toNat * 0x400 + opByte a * 0x10000 + opByte b * 0x1000000 = word
  have e0 : fld word 0 4 = 5 := by simp only [fld, ← hw]; omega
  have e1 : fld word 4 6 = 19 := by simp only [fld, ← hw]; omega
  have e2 : fld word 1 3 = 2 := by simp only [fld, ← hw]; omega
  have e3 : fld word 16 8 = opByte a := by simp only [fld, ← hw]; omega
  have e4 : fld word 24 8 = opByte b := by simp only [fld, ← hw]; omega
  have e5 : fld word 10 6 = d.toNat := by simp only [fld, ← hw]; omega
  simp [decode32, row098, need, bv, bit, opnd_opByte, bool_toNat, e0, e1, e2, e3, e4, e5]

theorem Sys2Proof.Laws.Encode.pack (d : BitVec 6) (a : Opnd) (b : Opnd) : Sys2Proof.Laws.Encode.Statement (.pack d a b) := by
  have _h0 := d.isLt
  have _h1 := opByte_lt a
  have _h2 := opByte_lt b
  refine of32 rfl (w := 0x137 + d.toNat * 0x400 + opByte a * 0x10000 + opByte b * 0x1000000) rfl (by omega) (by omega) ?_
  generalize hw : 0x137 + d.toNat * 0x400 + opByte a * 0x10000 + opByte b * 0x1000000 = word
  have e0 : fld word 0 4 = 7 := by simp only [fld, ← hw]; omega
  have e1 : fld word 4 6 = 19 := by simp only [fld, ← hw]; omega
  have e2 : fld word 1 3 = 3 := by simp only [fld, ← hw]; omega
  have e3 : fld word 16 8 = opByte a := by simp only [fld, ← hw]; omega
  have e4 : fld word 24 8 = opByte b := by simp only [fld, ← hw]; omega
  have e5 : fld word 10 6 = d.toNat := by simp only [fld, ← hw]; omega
  simp [decode32, row098, need, bv, bit, opnd_opByte, bool_toNat, e0, e1, e2, e3, e4, e5]

theorem Sys2Proof.Laws.Encode.unpack (d : BitVec 6) (a : Opnd) (j : BitVec 2) : Sys2Proof.Laws.Encode.Statement (.unpack d a j) := by
  have _h0 := d.isLt
  have _h1 := opByte_lt a
  have _h2 := j.isLt
  refine of32 rfl (w := 0x139 + d.toNat * 0x400 + opByte a * 0x10000 + j.toNat * 0x1000000) rfl (by omega) (by omega) ?_
  generalize hw : 0x139 + d.toNat * 0x400 + opByte a * 0x10000 + j.toNat * 0x1000000 = word
  have e0 : fld word 0 4 = 9 := by simp only [fld, ← hw]; omega
  have e1 : fld word 4 6 = 19 := by simp only [fld, ← hw]; omega
  have e2 : fld word 1 3 = 4 := by simp only [fld, ← hw]; omega
  have e3 : fld word 26 6 = 0 := by simp only [fld, ← hw]; omega
  have e4 : fld word 16 8 = opByte a := by simp only [fld, ← hw]; omega
  have e5 : fld word 10 6 = d.toNat := by simp only [fld, ← hw]; omega
  have e6 : fld word 24 2 = j.toNat := by simp only [fld, ← hw]; omega
  simp [decode32, row098, need, bv, bit, opnd_opByte, bool_toNat, e0, e1, e2, e3, e4, e5, e6]

theorem Sys2Proof.Laws.Encode.ld (d : BitVec 6) (s : BitVec 6) (w : BitVec 2) (a : Opnd) : Sys2Proof.Laws.Encode.Statement (.ld d s w a) := by
  have _h0 := d.isLt
  have _h1 := s.isLt
  have _h2 := w.isLt
  have _h3 := opByte_lt a
  refine of32 rfl (w := 0x141 + d.toNat * 0x400 + s.toNat * 0x10000 + w.toNat * 0x400000 + opByte a * 0x1000000) rfl (by omega) (by omega) ?_
  generalize hw : 0x141 + d.toNat * 0x400 + s.toNat * 0x10000 + w.toNat * 0x400000 + opByte a * 0x1000000 = word
  have e0 : fld word 0 4 = 1 := by simp only [fld, ← hw]; omega
  have e1 : fld word 4 6 = 20 := by simp only [fld, ← hw]; omega
  have e2 : fld word 1 3 = 0 := by simp only [fld, ← hw]; omega
  have e3 : fld word 24 8 = opByte a := by simp only [fld, ← hw]; omega
  have e4 : fld word 10 6 = d.toNat := by simp only [fld, ← hw]; omega
  have e5 : fld word 16 6 = s.toNat := by simp only [fld, ← hw]; omega
  have e6 : fld word 22 2 = w.toNat := by simp only [fld, ← hw]; omega
  simp [decode32, row0A0, need, bv, bit, opnd_opByte, bool_toNat, e0, e1, e2, e3, e4, e5, e6]

theorem Sys2Proof.Laws.Encode.st (d : BitVec 6) (s : BitVec 6) (w : BitVec 2) (a : Opnd) : Sys2Proof.Laws.Encode.Statement (.st d s w a) := by
  have _h0 := d.isLt
  have _h1 := s.isLt
  have _h2 := w.isLt
  have _h3 := opByte_lt a
  refine of32 rfl (w := 0x143 + d.toNat * 0x400 + s.toNat * 0x10000 + w.toNat * 0x400000 + opByte a * 0x1000000) rfl (by omega) (by omega) ?_
  generalize hw : 0x143 + d.toNat * 0x400 + s.toNat * 0x10000 + w.toNat * 0x400000 + opByte a * 0x1000000 = word
  have e0 : fld word 0 4 = 3 := by simp only [fld, ← hw]; omega
  have e1 : fld word 4 6 = 20 := by simp only [fld, ← hw]; omega
  have e2 : fld word 1 3 = 1 := by simp only [fld, ← hw]; omega
  have e3 : fld word 24 8 = opByte a := by simp only [fld, ← hw]; omega
  have e4 : fld word 10 6 = d.toNat := by simp only [fld, ← hw]; omega
  have e5 : fld word 16 6 = s.toNat := by simp only [fld, ← hw]; omega
  have e6 : fld word 22 2 = w.toNat := by simp only [fld, ← hw]; omega
  simp [decode32, row0A0, need, bv, bit, opnd_opByte, bool_toNat, e0, e1, e2, e3, e4, e5, e6]

theorem Sys2Proof.Laws.Encode.ldacq (d : BitVec 6) (s : BitVec 6) (c : BitVec 2) (a : Opnd) : Sys2Proof.Laws.Encode.Statement (.ldacq d s c a) := by
  have _h0 := d.isLt
  have _h1 := s.isLt
  have _h2 := c.isLt
  have _h3 := opByte_lt a
  refine of32 rfl (w := 0x145 + d.toNat * 0x400 + s.toNat * 0x10000 + c.toNat * 0x400000 + opByte a * 0x1000000) rfl (by omega) (by omega) ?_
  generalize hw : 0x145 + d.toNat * 0x400 + s.toNat * 0x10000 + c.toNat * 0x400000 + opByte a * 0x1000000 = word
  have e0 : fld word 0 4 = 5 := by simp only [fld, ← hw]; omega
  have e1 : fld word 4 6 = 20 := by simp only [fld, ← hw]; omega
  have e2 : fld word 1 3 = 2 := by simp only [fld, ← hw]; omega
  have e3 : fld word 24 8 = opByte a := by simp only [fld, ← hw]; omega
  have e4 : fld word 10 6 = d.toNat := by simp only [fld, ← hw]; omega
  have e5 : fld word 16 6 = s.toNat := by simp only [fld, ← hw]; omega
  have e6 : fld word 22 2 = c.toNat := by simp only [fld, ← hw]; omega
  simp [decode32, row0A0, need, bv, bit, opnd_opByte, bool_toNat, e0, e1, e2, e3, e4, e5, e6]

theorem Sys2Proof.Laws.Encode.strel (d : BitVec 6) (s : BitVec 6) (c : BitVec 2) (a : Opnd) : Sys2Proof.Laws.Encode.Statement (.strel d s c a) := by
  have _h0 := d.isLt
  have _h1 := s.isLt
  have _h2 := c.isLt
  have _h3 := opByte_lt a
  refine of32 rfl (w := 0x147 + d.toNat * 0x400 + s.toNat * 0x10000 + c.toNat * 0x400000 + opByte a * 0x1000000) rfl (by omega) (by omega) ?_
  generalize hw : 0x147 + d.toNat * 0x400 + s.toNat * 0x10000 + c.toNat * 0x400000 + opByte a * 0x1000000 = word
  have e0 : fld word 0 4 = 7 := by simp only [fld, ← hw]; omega
  have e1 : fld word 4 6 = 20 := by simp only [fld, ← hw]; omega
  have e2 : fld word 1 3 = 3 := by simp only [fld, ← hw]; omega
  have e3 : fld word 24 8 = opByte a := by simp only [fld, ← hw]; omega
  have e4 : fld word 10 6 = d.toNat := by simp only [fld, ← hw]; omega
  have e5 : fld word 16 6 = s.toNat := by simp only [fld, ← hw]; omega
  have e6 : fld word 22 2 = c.toNat := by simp only [fld, ← hw]; omega
  simp [decode32, row0A0, need, bv, bit, opnd_opByte, bool_toNat, e0, e1, e2, e3, e4, e5, e6]

theorem Sys2Proof.Laws.Encode.sld (d : BitVec 6) (s : BitVec 6) (w : BitVec 2) (a : Opnd) : Sys2Proof.Laws.Encode.Statement (.sld d s w a) := by
  have _h0 := d.isLt
  have _h1 := s.isLt
  have _h2 := w.isLt
  have _h3 := opByte_lt a
  refine of32 rfl (w := 0x149 + d.toNat * 0x400 + s.toNat * 0x10000 + w.toNat * 0x400000 + opByte a * 0x1000000) rfl (by omega) (by omega) ?_
  generalize hw : 0x149 + d.toNat * 0x400 + s.toNat * 0x10000 + w.toNat * 0x400000 + opByte a * 0x1000000 = word
  have e0 : fld word 0 4 = 9 := by simp only [fld, ← hw]; omega
  have e1 : fld word 4 6 = 20 := by simp only [fld, ← hw]; omega
  have e2 : fld word 1 3 = 4 := by simp only [fld, ← hw]; omega
  have e3 : fld word 24 8 = opByte a := by simp only [fld, ← hw]; omega
  have e4 : fld word 10 6 = d.toNat := by simp only [fld, ← hw]; omega
  have e5 : fld word 16 6 = s.toNat := by simp only [fld, ← hw]; omega
  have e6 : fld word 22 2 = w.toNat := by simp only [fld, ← hw]; omega
  simp [decode32, row0A0, need, bv, bit, opnd_opByte, bool_toNat, e0, e1, e2, e3, e4, e5, e6]

theorem Sys2Proof.Laws.Encode.sst (d : BitVec 6) (s : BitVec 6) (w : BitVec 2) (a : Opnd) : Sys2Proof.Laws.Encode.Statement (.sst d s w a) := by
  have _h0 := d.isLt
  have _h1 := s.isLt
  have _h2 := w.isLt
  have _h3 := opByte_lt a
  refine of32 rfl (w := 0x14b + d.toNat * 0x400 + s.toNat * 0x10000 + w.toNat * 0x400000 + opByte a * 0x1000000) rfl (by omega) (by omega) ?_
  generalize hw : 0x14b + d.toNat * 0x400 + s.toNat * 0x10000 + w.toNat * 0x400000 + opByte a * 0x1000000 = word
  have e0 : fld word 0 4 = 11 := by simp only [fld, ← hw]; omega
  have e1 : fld word 4 6 = 20 := by simp only [fld, ← hw]; omega
  have e2 : fld word 1 3 = 5 := by simp only [fld, ← hw]; omega
  have e3 : fld word 24 8 = opByte a := by simp only [fld, ← hw]; omega
  have e4 : fld word 10 6 = d.toNat := by simp only [fld, ← hw]; omega
  have e5 : fld word 16 6 = s.toNat := by simp only [fld, ← hw]; omega
  have e6 : fld word 22 2 = w.toNat := by simp only [fld, ← hw]; omega
  simp [decode32, row0A0, need, bv, bit, opnd_opByte, bool_toNat, e0, e1, e2, e3, e4, e5, e6]

theorem Sys2Proof.Laws.Encode.atom (d : BitVec 6) (a : Opnd) (o : BitVec 3) (c : BitVec 3) (w : BitVec 2) : Sys2Proof.Laws.Encode.Statement (.atom d a o c w) := by
  have _h0 := d.isLt
  have _h1 := opByte_lt a
  have _h2 := o.isLt
  have _h3 := c.isLt
  have _h4 := w.isLt
  refine of32 rfl (w := 0x14d + d.toNat * 0x400 + opByte a * 0x10000 + o.toNat * 0x1000000 + c.toNat * 0x8000000 + w.toNat * 0x40000000) rfl (by omega) (by omega) ?_
  generalize hw : 0x14d + d.toNat * 0x400 + opByte a * 0x10000 + o.toNat * 0x1000000 + c.toNat * 0x8000000 + w.toNat * 0x40000000 = word
  have e0 : fld word 0 4 = 13 := by simp only [fld, ← hw]; omega
  have e1 : fld word 4 6 = 20 := by simp only [fld, ← hw]; omega
  have e2 : fld word 1 3 = 6 := by simp only [fld, ← hw]; omega
  have e3 : fld word 16 8 = opByte a := by simp only [fld, ← hw]; omega
  have e4 : fld word 10 6 = d.toNat := by simp only [fld, ← hw]; omega
  have e5 : fld word 24 3 = o.toNat := by simp only [fld, ← hw]; omega
  have e6 : fld word 27 3 = c.toNat := by simp only [fld, ← hw]; omega
  have e7 : fld word 30 2 = w.toNat := by simp only [fld, ← hw]; omega
  simp [decode32, row0A0, need, bv, bit, opnd_opByte, bool_toNat, e0, e1, e2, e3, e4, e5, e6, e7]

theorem Sys2Proof.Laws.Encode.atomr (d : BitVec 6) (a : Opnd) (o : BitVec 3) (c : BitVec 3) (w : BitVec 2) : Sys2Proof.Laws.Encode.Statement (.atomr d a o c w) := by
  have _h0 := d.isLt
  have _h1 := opByte_lt a
  have _h2 := o.isLt
  have _h3 := c.isLt
  have _h4 := w.isLt
  refine of32 rfl (w := 0x151 + d.toNat * 0x400 + opByte a * 0x10000 + o.toNat * 0x1000000 + c.toNat * 0x8000000 + w.toNat * 0x40000000) rfl (by omega) (by omega) ?_
  generalize hw : 0x151 + d.toNat * 0x400 + opByte a * 0x10000 + o.toNat * 0x1000000 + c.toNat * 0x8000000 + w.toNat * 0x40000000 = word
  have e0 : fld word 0 4 = 1 := by simp only [fld, ← hw]; omega
  have e1 : fld word 4 6 = 21 := by simp only [fld, ← hw]; omega
  have e2 : fld word 1 3 = 0 := by simp only [fld, ← hw]; omega
  have e3 : fld word 16 8 = opByte a := by simp only [fld, ← hw]; omega
  have e4 : fld word 10 6 = d.toNat := by simp only [fld, ← hw]; omega
  have e5 : fld word 24 3 = o.toNat := by simp only [fld, ← hw]; omega
  have e6 : fld word 27 3 = c.toNat := by simp only [fld, ← hw]; omega
  have e7 : fld word 30 2 = w.toNat := by simp only [fld, ← hw]; omega
  simp [decode32, row0A8, need, bv, bit, opnd_opByte, bool_toNat, e0, e1, e2, e3, e4, e5, e6, e7]

theorem Sys2Proof.Laws.Encode.cas (d : BitVec 6) (a : Opnd) (c : BitVec 3) (w : BitVec 2) : Sys2Proof.Laws.Encode.Statement (.cas d a c w) := by
  have _h0 := d.isLt
  have _h1 := opByte_lt a
  have _h2 := c.isLt
  have _h3 := w.isLt
  refine of32 rfl (w := 0x153 + d.toNat * 0x400 + opByte a * 0x10000 + c.toNat * 0x8000000 + w.toNat * 0x40000000) rfl (by omega) (by omega) ?_
  generalize hw : 0x153 + d.toNat * 0x400 + opByte a * 0x10000 + c.toNat * 0x8000000 + w.toNat * 0x40000000 = word
  have e0 : fld word 0 4 = 3 := by simp only [fld, ← hw]; omega
  have e1 : fld word 4 6 = 21 := by simp only [fld, ← hw]; omega
  have e2 : fld word 1 3 = 1 := by simp only [fld, ← hw]; omega
  have e3 : fld word 24 3 = 0 := by simp only [fld, ← hw]; omega
  have e4 : fld word 16 8 = opByte a := by simp only [fld, ← hw]; omega
  have e5 : fld word 10 6 = d.toNat := by simp only [fld, ← hw]; omega
  have e6 : fld word 27 3 = c.toNat := by simp only [fld, ← hw]; omega
  have e7 : fld word 30 2 = w.toNat := by simp only [fld, ← hw]; omega
  simp [decode32, row0A8, need, bv, bit, opnd_opByte, bool_toNat, e0, e1, e2, e3, e4, e5, e6, e7]

theorem Sys2Proof.Laws.Encode.pref (h : Bool) (s : BitVec 6) (a : Opnd) : Sys2Proof.Laws.Encode.Statement (.pref h s a) := by
  have _h0 := Bool.toNat_lt h
  have _h1 := s.isLt
  have _h2 := opByte_lt a
  refine of32 rfl (w := 0x155 + h.toNat * 0x400 + s.toNat * 0x10000 + opByte a * 0x1000000) rfl (by omega) (by omega) ?_
  generalize hw : 0x155 + h.toNat * 0x400 + s.toNat * 0x10000 + opByte a * 0x1000000 = word
  have e0 : fld word 0 4 = 5 := by simp only [fld, ← hw]; omega
  have e1 : fld word 4 6 = 21 := by simp only [fld, ← hw]; omega
  have e2 : fld word 1 3 = 2 := by simp only [fld, ← hw]; omega
  have e3 : fld word 11 5 = 0 := by simp only [fld, ← hw]; omega
  have e4 : fld word 22 2 = 0 := by simp only [fld, ← hw]; omega
  have e5 : fld word 24 8 = opByte a := by simp only [fld, ← hw]; omega
  have e6 : fld word 16 6 = s.toNat := by simp only [fld, ← hw]; omega
  have e7 : fld word 10 1 = h.toNat := by simp only [fld, ← hw]; omega
  simp [decode32, row0A8, need, bv, bit, opnd_opByte, bool_toNat, e0, e1, e2, e3, e4, e5, e6, e7]

theorem Sys2Proof.Laws.Encode.fence (c : BitVec 3) (k : BitVec 2) : Sys2Proof.Laws.Encode.Statement (.fence c k) := by
  have _h0 := c.isLt
  have _h1 := k.isLt
  refine of32 rfl (w := 0x157 + c.toNat * 0x1000000 + k.toNat * 0x8000000) rfl (by omega) (by omega) ?_
  generalize hw : 0x157 + c.toNat * 0x1000000 + k.toNat * 0x8000000 = word
  have e0 : fld word 0 4 = 7 := by simp only [fld, ← hw]; omega
  have e1 : fld word 4 6 = 21 := by simp only [fld, ← hw]; omega
  have e2 : fld word 1 3 = 3 := by simp only [fld, ← hw]; omega
  have e3 : fld word 10 14 = 0 := by simp only [fld, ← hw]; omega
  have e4 : fld word 29 3 = 0 := by simp only [fld, ← hw]; omega
  have e5 : fld word 24 3 = c.toNat := by simp only [fld, ← hw]; omega
  have e6 : fld word 27 2 = k.toNat := by simp only [fld, ← hw]; omega
  simp [decode32, row0A8, need, bv, bit, opnd_opByte, bool_toNat, e0, e1, e2, e3, e4, e5, e6]

theorem Sys2Proof.Laws.Encode.cflush (s : BitVec 6) (a : Opnd) : Sys2Proof.Laws.Encode.Statement (.cflush s a) := by
  have _h0 := s.isLt
  have _h1 := opByte_lt a
  refine of32 rfl (w := 0x159 + s.toNat * 0x10000 + opByte a * 0x1000000) rfl (by omega) (by omega) ?_
  generalize hw : 0x159 + s.toNat * 0x10000 + opByte a * 0x1000000 = word
  have e0 : fld word 0 4 = 9 := by simp only [fld, ← hw]; omega
  have e1 : fld word 4 6 = 21 := by simp only [fld, ← hw]; omega
  have e2 : fld word 1 3 = 4 := by simp only [fld, ← hw]; omega
  have e3 : fld word 10 6 = 0 := by simp only [fld, ← hw]; omega
  have e4 : fld word 22 2 = 0 := by simp only [fld, ← hw]; omega
  have e5 : fld word 24 8 = opByte a := by simp only [fld, ← hw]; omega
  have e6 : fld word 16 6 = s.toNat := by simp only [fld, ← hw]; omega
  simp [decode32, row0A8, need, bv, bit, opnd_opByte, bool_toNat, e0, e1, e2, e3, e4, e5, e6]

theorem Sys2Proof.Laws.Encode.cinv (s : BitVec 6) (a : Opnd) : Sys2Proof.Laws.Encode.Statement (.cinv s a) := by
  have _h0 := s.isLt
  have _h1 := opByte_lt a
  refine of32 rfl (w := 0x15b + s.toNat * 0x10000 + opByte a * 0x1000000) rfl (by omega) (by omega) ?_
  generalize hw : 0x15b + s.toNat * 0x10000 + opByte a * 0x1000000 = word
  have e0 : fld word 0 4 = 11 := by simp only [fld, ← hw]; omega
  have e1 : fld word 4 6 = 21 := by simp only [fld, ← hw]; omega
  have e2 : fld word 1 3 = 5 := by simp only [fld, ← hw]; omega
  have e3 : fld word 10 6 = 0 := by simp only [fld, ← hw]; omega
  have e4 : fld word 22 2 = 0 := by simp only [fld, ← hw]; omega
  have e5 : fld word 24 8 = opByte a := by simp only [fld, ← hw]; omega
  have e6 : fld word 16 6 = s.toNat := by simp only [fld, ← hw]; omega
  simp [decode32, row0A8, need, bv, bit, opnd_opByte, bool_toNat, e0, e1, e2, e3, e4, e5, e6]

theorem Sys2Proof.Laws.Encode.tfence (a : Opnd) (c : BitVec 3) : Sys2Proof.Laws.Encode.Statement (.tfence a c) := by
  have _h0 := opByte_lt a
  have _h1 := c.isLt
  refine of32 rfl (w := 0x15d + opByte a * 0x10000 + c.toNat * 0x1000000) rfl (by omega) (by omega) ?_
  generalize hw : 0x15d + opByte a * 0x10000 + c.toNat * 0x1000000 = word
  have e0 : fld word 0 4 = 13 := by simp only [fld, ← hw]; omega
  have e1 : fld word 4 6 = 21 := by simp only [fld, ← hw]; omega
  have e2 : fld word 1 3 = 6 := by simp only [fld, ← hw]; omega
  have e3 : fld word 10 6 = 0 := by simp only [fld, ← hw]; omega
  have e4 : fld word 27 5 = 0 := by simp only [fld, ← hw]; omega
  have e5 : fld word 16 8 = opByte a := by simp only [fld, ← hw]; omega
  have e6 : fld word 10 14 = opByte a * 64 := by simp only [fld, ← hw]; omega
  have e7 : fld word 24 3 = c.toNat := by simp only [fld, ← hw]; omega
  simp [decode32, row0A8, need, bv, bit, opnd_opByte, bool_toNat, e0, e1, e2, e3, e4, e5, e6, e7]

theorem Sys2Proof.Laws.Encode.tfenceAll (c : BitVec 3) : Sys2Proof.Laws.Encode.Statement (.tfenceAll c) := by
  have _h0 := c.isLt
  refine of32 rfl (w := 0x800015d + c.toNat * 0x1000000) rfl (by omega) (by omega) ?_
  generalize hw : 0x800015d + c.toNat * 0x1000000 = word
  have e0 : fld word 0 4 = 13 := by simp only [fld, ← hw]; omega
  have e1 : fld word 4 6 = 21 := by simp only [fld, ← hw]; omega
  have e2 : fld word 1 3 = 6 := by simp only [fld, ← hw]; omega
  have e3 : fld word 10 6 = 0 := by simp only [fld, ← hw]; omega
  have e4 : fld word 27 5 = 1 := by simp only [fld, ← hw]; omega
  have e5 : fld word 16 8 = 0 := by simp only [fld, ← hw]; omega
  have e6 : fld word 10 14 = 0 := by simp only [fld, ← hw]; omega
  have e7 : fld word 24 3 = c.toNat := by simp only [fld, ← hw]; omega
  simp [decode32, row0A8, need, bv, bit, opnd_opByte, bool_toNat, e0, e1, e2, e3, e4, e5, e6, e7]

theorem Sys2Proof.Laws.Encode.rstrel (d : BitVec 6) (s : BitVec 6) (w : BitVec 2) (a : Opnd) : Sys2Proof.Laws.Encode.Statement (.rstrel d s w a) := by
  have _h0 := d.isLt
  have _h1 := s.isLt
  have _h2 := w.isLt
  have _h3 := opByte_lt a
  refine of32 rfl (w := 0x171 + d.toNat * 0x400 + s.toNat * 0x10000 + w.toNat * 0x400000 + opByte a * 0x1000000) rfl (by omega) (by omega) ?_
  generalize hw : 0x171 + d.toNat * 0x400 + s.toNat * 0x10000 + w.toNat * 0x400000 + opByte a * 0x1000000 = word
  have e0 : fld word 0 4 = 1 := by simp only [fld, ← hw]; omega
  have e1 : fld word 4 6 = 23 := by simp only [fld, ← hw]; omega
  have e2 : fld word 1 3 = 0 := by simp only [fld, ← hw]; omega
  have e3 : fld word 24 8 = opByte a := by simp only [fld, ← hw]; omega
  have e4 : fld word 10 6 = d.toNat := by simp only [fld, ← hw]; omega
  have e5 : fld word 16 6 = s.toNat := by simp only [fld, ← hw]; omega
  have e6 : fld word 22 2 = w.toNat := by simp only [fld, ← hw]; omega
  simp [decode32, row0B8, need, bv, bit, opnd_opByte, bool_toNat, e0, e1, e2, e3, e4, e5, e6]

theorem Sys2Proof.Laws.Encode.rstarv (d : BitVec 6) (s : BitVec 6) (w : BitVec 2) (a : Opnd) : Sys2Proof.Laws.Encode.Statement (.rstarv d s w a) := by
  have _h0 := d.isLt
  have _h1 := s.isLt
  have _h2 := w.isLt
  have _h3 := opByte_lt a
  refine of32 rfl (w := 0x173 + d.toNat * 0x400 + s.toNat * 0x10000 + w.toNat * 0x400000 + opByte a * 0x1000000) rfl (by omega) (by omega) ?_
  generalize hw : 0x173 + d.toNat * 0x400 + s.toNat * 0x10000 + w.toNat * 0x400000 + opByte a * 0x1000000 = word
  have e0 : fld word 0 4 = 3 := by simp only [fld, ← hw]; omega
  have e1 : fld word 4 6 = 23 := by simp only [fld, ← hw]; omega
  have e2 : fld word 1 3 = 1 := by simp only [fld, ← hw]; omega
  have e3 : fld word 24 8 = opByte a := by simp only [fld, ← hw]; omega
  have e4 : fld word 10 6 = d.toNat := by simp only [fld, ← hw]; omega
  have e5 : fld word 16 6 = s.toNat := by simp only [fld, ← hw]; omega
  have e6 : fld word 22 2 = w.toNat := by simp only [fld, ← hw]; omega
  simp [decode32, row0B8, need, bv, bit, opnd_opByte, bool_toNat, e0, e1, e2, e3, e4, e5, e6]

theorem Sys2Proof.Laws.Encode.rfence (d : BitVec 6) (a : Opnd) (w : Bool) : Sys2Proof.Laws.Encode.Statement (.rfence d a w) := by
  have _h0 := d.isLt
  have _h1 := opByte_lt a
  have _h2 := Bool.toNat_lt w
  refine of32 rfl (w := 0x175 + d.toNat * 0x400 + opByte a * 0x10000 + w.toNat * 0x1000000) rfl (by omega) (by omega) ?_
  generalize hw : 0x175 + d.toNat * 0x400 + opByte a * 0x10000 + w.toNat * 0x1000000 = word
  have e0 : fld word 0 4 = 5 := by simp only [fld, ← hw]; omega
  have e1 : fld word 4 6 = 23 := by simp only [fld, ← hw]; omega
  have e2 : fld word 1 3 = 2 := by simp only [fld, ← hw]; omega
  have e3 : fld word 25 7 = 0 := by simp only [fld, ← hw]; omega
  have e4 : fld word 16 8 = opByte a := by simp only [fld, ← hw]; omega
  have e5 : fld word 10 6 = d.toNat := by simp only [fld, ← hw]; omega
  have e6 : fld word 24 1 = w.toNat := by simp only [fld, ← hw]; omega
  simp [decode32, row0B8, need, bv, bit, opnd_opByte, bool_toNat, e0, e1, e2, e3, e4, e5, e6]

theorem Sys2Proof.Laws.Encode.cpy (s : BitVec 6) (r : BitVec 5) (o : Bool) : Sys2Proof.Laws.Encode.Statement (.cpy s r o) := by
  have _h0 := s.isLt
  have _h1 := r.isLt
  have _h2 := Bool.toNat_lt o
  refine of32 rfl (w := 0x181 + s.toNat * 0x400 + r.toNat * 0x10000 + o.toNat * 0x200000) rfl (by omega) (by omega) ?_
  generalize hw : 0x181 + s.toNat * 0x400 + r.toNat * 0x10000 + o.toNat * 0x200000 = word
  have e0 : fld word 0 4 = 1 := by simp only [fld, ← hw]; omega
  have e1 : fld word 4 6 = 24 := by simp only [fld, ← hw]; omega
  have e2 : fld word 1 3 = 0 := by simp only [fld, ← hw]; omega
  have e3 : fld word 22 10 = 0 := by simp only [fld, ← hw]; omega
  have e4 : fld word 10 6 = s.toNat := by simp only [fld, ← hw]; omega
  have e5 : fld word 16 5 = r.toNat := by simp only [fld, ← hw]; omega
  have e6 : fld word 21 1 = o.toNat := by simp only [fld, ← hw]; omega
  simp [decode32, row0C0, need, bv, bit, opnd_opByte, bool_toNat, e0, e1, e2, e3, e4, e5, e6]

theorem Sys2Proof.Laws.Encode.cpyr (s : BitVec 6) (r : BitVec 5) (o : Bool) : Sys2Proof.Laws.Encode.Statement (.cpyr s r o) := by
  have _h0 := s.isLt
  have _h1 := r.isLt
  have _h2 := Bool.toNat_lt o
  refine of32 rfl (w := 0x183 + s.toNat * 0x400 + r.toNat * 0x10000 + o.toNat * 0x200000) rfl (by omega) (by omega) ?_
  generalize hw : 0x183 + s.toNat * 0x400 + r.toNat * 0x10000 + o.toNat * 0x200000 = word
  have e0 : fld word 0 4 = 3 := by simp only [fld, ← hw]; omega
  have e1 : fld word 4 6 = 24 := by simp only [fld, ← hw]; omega
  have e2 : fld word 1 3 = 1 := by simp only [fld, ← hw]; omega
  have e3 : fld word 22 10 = 0 := by simp only [fld, ← hw]; omega
  have e4 : fld word 10 6 = s.toNat := by simp only [fld, ← hw]; omega
  have e5 : fld word 16 5 = r.toNat := by simp only [fld, ← hw]; omega
  have e6 : fld word 21 1 = o.toNat := by simp only [fld, ← hw]; omega
  simp [decode32, row0C0, need, bv, bit, opnd_opByte, bool_toNat, e0, e1, e2, e3, e4, e5, e6]

theorem Sys2Proof.Laws.Encode.cpym (s : BitVec 6) (r : BitVec 5) (o : Bool) : Sys2Proof.Laws.Encode.Statement (.cpym s r o) := by
  have _h0 := s.isLt
  have _h1 := r.isLt
  have _h2 := Bool.toNat_lt o
  refine of32 rfl (w := 0x185 + s.toNat * 0x400 + r.toNat * 0x10000 + o.toNat * 0x200000) rfl (by omega) (by omega) ?_
  generalize hw : 0x185 + s.toNat * 0x400 + r.toNat * 0x10000 + o.toNat * 0x200000 = word
  have e0 : fld word 0 4 = 5 := by simp only [fld, ← hw]; omega
  have e1 : fld word 4 6 = 24 := by simp only [fld, ← hw]; omega
  have e2 : fld word 1 3 = 2 := by simp only [fld, ← hw]; omega
  have e3 : fld word 22 10 = 0 := by simp only [fld, ← hw]; omega
  have e4 : fld word 10 6 = s.toNat := by simp only [fld, ← hw]; omega
  have e5 : fld word 16 5 = r.toNat := by simp only [fld, ← hw]; omega
  have e6 : fld word 21 1 = o.toNat := by simp only [fld, ← hw]; omega
  simp [decode32, row0C0, need, bv, bit, opnd_opByte, bool_toNat, e0, e1, e2, e3, e4, e5, e6]

theorem Sys2Proof.Laws.Encode.cpyt (o : BitVec 6) (a : Opnd) (n : BitVec 5) (g : BitVec 3) : Sys2Proof.Laws.Encode.Statement (.cpyt o a n g) := by
  have _h0 := o.isLt
  have _h1 := opByte_lt a
  have _h2 := n.isLt
  have _h3 := g.isLt
  refine of32 rfl (w := 0x187 + o.toNat * 0x400 + opByte a * 0x10000 + n.toNat * 0x1000000 + g.toNat * 0x20000000) rfl (by omega) (by omega) ?_
  generalize hw : 0x187 + o.toNat * 0x400 + opByte a * 0x10000 + n.toNat * 0x1000000 + g.toNat * 0x20000000 = word
  have e0 : fld word 0 4 = 7 := by simp only [fld, ← hw]; omega
  have e1 : fld word 4 6 = 24 := by simp only [fld, ← hw]; omega
  have e2 : fld word 1 3 = 3 := by simp only [fld, ← hw]; omega
  have e3 : fld word 16 8 = opByte a := by simp only [fld, ← hw]; omega
  have e4 : fld word 10 6 = o.toNat := by simp only [fld, ← hw]; omega
  have e5 : fld word 24 5 = n.toNat := by simp only [fld, ← hw]; omega
  have e6 : fld word 29 3 = g.toNat := by simp only [fld, ← hw]; omega
  simp [decode32, row0C0, need, bv, bit, opnd_opByte, bool_toNat, e0, e1, e2, e3, e4, e5, e6]

theorem Sys2Proof.Laws.Encode.cpywait (m : BitVec 8) : Sys2Proof.Laws.Encode.Statement (.cpywait m) := by
  have _h0 := m.isLt
  refine of32 rfl (w := 0x189 + m.toNat * 0x1000000) rfl (by omega) (by omega) ?_
  generalize hw : 0x189 + m.toNat * 0x1000000 = word
  have e0 : fld word 0 4 = 9 := by simp only [fld, ← hw]; omega
  have e1 : fld word 4 6 = 24 := by simp only [fld, ← hw]; omega
  have e2 : fld word 1 3 = 4 := by simp only [fld, ← hw]; omega
  have e3 : fld word 10 14 = 0 := by simp only [fld, ← hw]; omega
  have e4 : fld word 24 8 = m.toNat := by simp only [fld, ← hw]; omega
  simp [decode32, row0C0, need, bv, bit, opnd_opByte, bool_toNat, e0, e1, e2, e3, e4]

theorem Sys2Proof.Laws.Encode.cpyq (d : BitVec 6) (a : Opnd) (c : BitVec 3) (n : Bool) : Sys2Proof.Laws.Encode.Statement (.cpyq d a c n) := by
  have _h0 := d.isLt
  have _h1 := opByte_lt a
  have _h2 := c.isLt
  have _h3 := Bool.toNat_lt n
  refine of32 rfl (w := 0x18b + d.toNat * 0x400 + opByte a * 0x10000 + c.toNat * 0x1000000 + n.toNat * 0x8000000) rfl (by omega) (by omega) ?_
  generalize hw : 0x18b + d.toNat * 0x400 + opByte a * 0x10000 + c.toNat * 0x1000000 + n.toNat * 0x8000000 = word
  have e0 : fld word 0 4 = 11 := by simp only [fld, ← hw]; omega
  have e1 : fld word 4 6 = 24 := by simp only [fld, ← hw]; omega
  have e2 : fld word 1 3 = 5 := by simp only [fld, ← hw]; omega
  have e3 : fld word 28 4 = 0 := by simp only [fld, ← hw]; omega
  have e4 : fld word 16 8 = opByte a := by simp only [fld, ← hw]; omega
  have e5 : fld word 10 6 = d.toNat := by simp only [fld, ← hw]; omega
  have e6 : fld word 24 3 = c.toNat := by simp only [fld, ← hw]; omega
  have e7 : fld word 27 1 = n.toNat := by simp only [fld, ← hw]; omega
  simp [decode32, row0C0, need, bv, bit, opnd_opByte, bool_toNat, e0, e1, e2, e3, e4, e5, e6, e7]

theorem Sys2Proof.Laws.Encode.cpystatCount (d : BitVec 6) : Sys2Proof.Laws.Encode.Statement (.cpystatCount d) := by
  have _h0 := d.isLt
  refine of32 rfl (w := 0x18d + d.toNat * 0x400) rfl (by omega) (by omega) ?_
  generalize hw : 0x18d + d.toNat * 0x400 = word
  have e0 : fld word 0 4 = 13 := by simp only [fld, ← hw]; omega
  have e1 : fld word 4 6 = 24 := by simp only [fld, ← hw]; omega
  have e2 : fld word 1 3 = 6 := by simp only [fld, ← hw]; omega
  have e3 : fld word 16 16 = 0 := by simp only [fld, ← hw]; omega
  have e4 : fld word 10 6 = d.toNat := by simp only [fld, ← hw]; omega
  simp [decode32, row0C0, need, bv, bit, opnd_opByte, bool_toNat, e0, e1, e2, e3, e4]

theorem Sys2Proof.Laws.Encode.cpystatBitmap (d : BitVec 6) : Sys2Proof.Laws.Encode.Statement (.cpystatBitmap d) := by
  have _h0 := d.isLt
  refine of32 rfl (w := 0x100018d + d.toNat * 0x400) rfl (by omega) (by omega) ?_
  generalize hw : 0x100018d + d.toNat * 0x400 = word
  have e0 : fld word 0 4 = 13 := by simp only [fld, ← hw]; omega
  have e1 : fld word 4 6 = 24 := by simp only [fld, ← hw]; omega
  have e2 : fld word 1 3 = 6 := by simp only [fld, ← hw]; omega
  have e3 : fld word 16 16 = 256 := by simp only [fld, ← hw]; omega
  have e4 : fld word 10 6 = d.toNat := by simp only [fld, ← hw]; omega
  simp [decode32, row0C0, need, bv, bit, opnd_opByte, bool_toNat, e0, e1, e2, e3, e4]

theorem Sys2Proof.Laws.Encode.cpystatTags (d : BitVec 6) : Sys2Proof.Laws.Encode.Statement (.cpystatTags d) := by
  have _h0 := d.isLt
  refine of32 rfl (w := 0x200018d + d.toNat * 0x400) rfl (by omega) (by omega) ?_
  generalize hw : 0x200018d + d.toNat * 0x400 = word
  have e0 : fld word 0 4 = 13 := by simp only [fld, ← hw]; omega
  have e1 : fld word 4 6 = 24 := by simp only [fld, ← hw]; omega
  have e2 : fld word 1 3 = 6 := by simp only [fld, ← hw]; omega
  have e3 : fld word 16 16 = 512 := by simp only [fld, ← hw]; omega
  have e4 : fld word 10 6 = d.toNat := by simp only [fld, ← hw]; omega
  simp [decode32, row0C0, need, bv, bit, opnd_opByte, bool_toNat, e0, e1, e2, e3, e4]

theorem Sys2Proof.Laws.Encode.cpycan (d : BitVec 6) (a : Opnd) : Sys2Proof.Laws.Encode.Statement (.cpycan d a) := by
  have _h0 := d.isLt
  have _h1 := opByte_lt a
  refine of32 rfl (w := 0x191 + d.toNat * 0x400 + opByte a * 0x10000) rfl (by omega) (by omega) ?_
  generalize hw : 0x191 + d.toNat * 0x400 + opByte a * 0x10000 = word
  have e0 : fld word 0 4 = 1 := by simp only [fld, ← hw]; omega
  have e1 : fld word 4 6 = 25 := by simp only [fld, ← hw]; omega
  have e2 : fld word 1 3 = 0 := by simp only [fld, ← hw]; omega
  have e3 : fld word 24 8 = 0 := by simp only [fld, ← hw]; omega
  have e4 : fld word 16 8 = opByte a := by simp only [fld, ← hw]; omega
  have e5 : fld word 16 16 = opByte a := by simp only [fld, ← hw]; omega
  have e6 : fld word 10 6 = d.toNat := by simp only [fld, ← hw]; omega
  simp [decode32, row0C8, need, bv, bit, opnd_opByte, bool_toNat, e0, e1, e2, e3, e4, e5, e6]

theorem Sys2Proof.Laws.Encode.cpycanAll (d : BitVec 6) : Sys2Proof.Laws.Encode.Statement (.cpycanAll d) := by
  have _h0 := d.isLt
  refine of32 rfl (w := 0x1000191 + d.toNat * 0x400) rfl (by omega) (by omega) ?_
  generalize hw : 0x1000191 + d.toNat * 0x400 = word
  have e0 : fld word 0 4 = 1 := by simp only [fld, ← hw]; omega
  have e1 : fld word 4 6 = 25 := by simp only [fld, ← hw]; omega
  have e2 : fld word 1 3 = 0 := by simp only [fld, ← hw]; omega
  have e3 : fld word 24 8 = 1 := by simp only [fld, ← hw]; omega
  have e4 : fld word 16 8 = 0 := by simp only [fld, ← hw]; omega
  have e5 : fld word 16 16 = 256 := by simp only [fld, ← hw]; omega
  have e6 : fld word 10 6 = d.toNat := by simp only [fld, ← hw]; omega
  simp [decode32, row0C8, need, bv, bit, opnd_opByte, bool_toNat, e0, e1, e2, e3, e4, e5, e6]

theorem Sys2Proof.Laws.Encode.tdef (d : BitVec 6) (a : Opnd) : Sys2Proof.Laws.Encode.Statement (.tdef d a) := by
  have _h0 := d.isLt
  have _h1 := opByte_lt a
  refine of32 rfl (w := 0x1a1 + d.toNat * 0x400 + opByte a * 0x10000) rfl (by omega) (by omega) ?_
  generalize hw : 0x1a1 + d.toNat * 0x400 + opByte a * 0x10000 = word
  have e0 : fld word 0 4 = 1 := by simp only [fld, ← hw]; omega
  have e1 : fld word 4 6 = 26 := by simp only [fld, ← hw]; omega
  have e2 : fld word 1 3 = 0 := by simp only [fld, ← hw]; omega
  have e3 : fld word 24 8 = 0 := by simp only [fld, ← hw]; omega
  have e4 : fld word 16 8 = opByte a := by simp only [fld, ← hw]; omega
  have e5 : fld word 10 6 = d.toNat := by simp only [fld, ← hw]; omega
  simp [decode32, row0D0, need, bv, bit, opnd_opByte, bool_toNat, e0, e1, e2, e3, e4, e5]

theorem Sys2Proof.Laws.Encode.tld (d : BitVec 6) (t : BitVec 4) (f : BitVec 4) (a : Opnd) : Sys2Proof.Laws.Encode.Statement (.tld d t f a) := by
  have _h0 := d.isLt
  have _h1 := t.isLt
  have _h2 := f.isLt
  have _h3 := opByte_lt a
  refine of32 rfl (w := 0x1a3 + d.toNat * 0x400 + t.toNat * 0x10000 + f.toNat * 0x100000 + opByte a * 0x1000000) rfl (by omega) (by omega) ?_
  generalize hw : 0x1a3 + d.toNat * 0x400 + t.toNat * 0x10000 + f.toNat * 0x100000 + opByte a * 0x1000000 = word
  have e0 : fld word 0 4 = 3 := by simp only [fld, ← hw]; omega
  have e1 : fld word 4 6 = 26 := by simp only [fld, ← hw]; omega
  have e2 : fld word 1 3 = 1 := by simp only [fld, ← hw]; omega
  have e3 : fld word 24 8 = opByte a := by simp only [fld, ← hw]; omega
  have e4 : fld word 10 6 = d.toNat := by simp only [fld, ← hw]; omega
  have e5 : fld word 16 4 = t.toNat := by simp only [fld, ← hw]; omega
  have e6 : fld word 20 4 = f.toNat := by simp only [fld, ← hw]; omega
  simp [decode32, row0D0, need, bv, bit, opnd_opByte, bool_toNat, e0, e1, e2, e3, e4, e5, e6]

theorem Sys2Proof.Laws.Encode.tst (d : BitVec 6) (t : BitVec 4) (f : BitVec 4) (a : Opnd) : Sys2Proof.Laws.Encode.Statement (.tst d t f a) := by
  have _h0 := d.isLt
  have _h1 := t.isLt
  have _h2 := f.isLt
  have _h3 := opByte_lt a
  refine of32 rfl (w := 0x1a5 + d.toNat * 0x400 + t.toNat * 0x10000 + f.toNat * 0x100000 + opByte a * 0x1000000) rfl (by omega) (by omega) ?_
  generalize hw : 0x1a5 + d.toNat * 0x400 + t.toNat * 0x10000 + f.toNat * 0x100000 + opByte a * 0x1000000 = word
  have e0 : fld word 0 4 = 5 := by simp only [fld, ← hw]; omega
  have e1 : fld word 4 6 = 26 := by simp only [fld, ← hw]; omega
  have e2 : fld word 1 3 = 2 := by simp only [fld, ← hw]; omega
  have e3 : fld word 24 8 = opByte a := by simp only [fld, ← hw]; omega
  have e4 : fld word 10 6 = d.toNat := by simp only [fld, ← hw]; omega
  have e5 : fld word 16 4 = t.toNat := by simp only [fld, ← hw]; omega
  have e6 : fld word 20 4 = f.toNat := by simp only [fld, ← hw]; omega
  simp [decode32, row0D0, need, bv, bit, opnd_opByte, bool_toNat, e0, e1, e2, e3, e4, e5, e6]

theorem Sys2Proof.Laws.Encode.tldc (d : BitVec 6) (t : BitVec 4) (f : BitVec 4) (a : Opnd) : Sys2Proof.Laws.Encode.Statement (.tldc d t f a) := by
  have _h0 := d.isLt
  have _h1 := t.isLt
  have _h2 := f.isLt
  have _h3 := opByte_lt a
  refine of32 rfl (w := 0x1a7 + d.toNat * 0x400 + t.toNat * 0x10000 + f.toNat * 0x100000 + opByte a * 0x1000000) rfl (by omega) (by omega) ?_
  generalize hw : 0x1a7 + d.toNat * 0x400 + t.toNat * 0x10000 + f.toNat * 0x100000 + opByte a * 0x1000000 = word
  have e0 : fld word 0 4 = 7 := by simp only [fld, ← hw]; omega
  have e1 : fld word 4 6 = 26 := by simp only [fld, ← hw]; omega
  have e2 : fld word 1 3 = 3 := by simp only [fld, ← hw]; omega
  have e3 : fld word 24 8 = opByte a := by simp only [fld, ← hw]; omega
  have e4 : fld word 10 6 = d.toNat := by simp only [fld, ← hw]; omega
  have e5 : fld word 16 4 = t.toNat := by simp only [fld, ← hw]; omega
  have e6 : fld word 20 4 = f.toNat := by simp only [fld, ← hw]; omega
  simp [decode32, row0D0, need, bv, bit, opnd_opByte, bool_toNat, e0, e1, e2, e3, e4, e5, e6]

theorem Sys2Proof.Laws.Encode.tarm (t : BitVec 4) (a : Opnd) : Sys2Proof.Laws.Encode.Statement (.tarm t a) := by
  have _h0 := t.isLt
  have _h1 := opByte_lt a
  refine of32 rfl (w := 0x1a9 + t.toNat * 0x10000 + opByte a * 0x1000000) rfl (by omega) (by omega) ?_
  generalize hw : 0x1a9 + t.toNat * 0x10000 + opByte a * 0x1000000 = word
  have e0 : fld word 0 4 = 9 := by simp only [fld, ← hw]; omega
  have e1 : fld word 4 6 = 26 := by simp only [fld, ← hw]; omega
  have e2 : fld word 1 3 = 4 := by simp only [fld, ← hw]; omega
  have e3 : fld word 10 6 = 0 := by simp only [fld, ← hw]; omega
  have e4 : fld word 20 4 = 0 := by simp only [fld, ← hw]; omega
  have e5 : fld word 24 8 = opByte a := by simp only [fld, ← hw]; omega
  have e6 : fld word 16 4 = t.toNat := by simp only [fld, ← hw]; omega
  simp [decode32, row0D0, need, bv, bit, opnd_opByte, bool_toNat, e0, e1, e2, e3, e4, e5, e6]

theorem Sys2Proof.Laws.Encode.twait (t : BitVec 4) : Sys2Proof.Laws.Encode.Statement (.twait t) := by
  have _h0 := t.isLt
  refine of32 rfl (w := 0x1ab + t.toNat * 0x10000) rfl (by omega) (by omega) ?_
  generalize hw : 0x1ab + t.toNat * 0x10000 = word
  have e0 : fld word 0 4 = 11 := by simp only [fld, ← hw]; omega
  have e1 : fld word 4 6 = 26 := by simp only [fld, ← hw]; omega
  have e2 : fld word 1 3 = 5 := by simp only [fld, ← hw]; omega
  have e3 : fld word 10 6 = 0 := by simp only [fld, ← hw]; omega
  have e4 : fld word 20 12 = 0 := by simp only [fld, ← hw]; omega
  have e5 : fld word 16 4 = t.toNat := by simp only [fld, ← hw]; omega
  simp [decode32, row0D0, need, bv, bit, opnd_opByte, bool_toNat, e0, e1, e2, e3, e4, e5]

theorem Sys2Proof.Laws.Encode.ttest (d : BitVec 6) (t : BitVec 4) : Sys2Proof.Laws.Encode.Statement (.ttest d t) := by
  have _h0 := d.isLt
  have _h1 := t.isLt
  refine of32 rfl (w := 0x1ad + d.toNat * 0x400 + t.toNat * 0x10000) rfl (by omega) (by omega) ?_
  generalize hw : 0x1ad + d.toNat * 0x400 + t.toNat * 0x10000 = word
  have e0 : fld word 0 4 = 13 := by simp only [fld, ← hw]; omega
  have e1 : fld word 4 6 = 26 := by simp only [fld, ← hw]; omega
  have e2 : fld word 1 3 = 6 := by simp only [fld, ← hw]; omega
  have e3 : fld word 20 12 = 0 := by simp only [fld, ← hw]; omega
  have e4 : fld word 10 6 = d.toNat := by simp only [fld, ← hw]; omega
  have e5 : fld word 16 4 = t.toNat := by simp only [fld, ← hw]; omega
  simp [decode32, row0D0, need, bv, bit, opnd_opByte, bool_toNat, e0, e1, e2, e3, e4, e5]

theorem Sys2Proof.Laws.Encode.tclr (t : BitVec 4) : Sys2Proof.Laws.Encode.Statement (.tclr t) := by
  have _h0 := t.isLt
  refine of32 rfl (w := 0x1b1 + t.toNat * 0x10000) rfl (by omega) (by omega) ?_
  generalize hw : 0x1b1 + t.toNat * 0x10000 = word
  have e0 : fld word 0 4 = 1 := by simp only [fld, ← hw]; omega
  have e1 : fld word 4 6 = 27 := by simp only [fld, ← hw]; omega
  have e2 : fld word 1 3 = 0 := by simp only [fld, ← hw]; omega
  have e3 : fld word 10 6 = 0 := by simp only [fld, ← hw]; omega
  have e4 : fld word 20 12 = 0 := by simp only [fld, ← hw]; omega
  have e5 : fld word 16 4 = t.toNat := by simp only [fld, ← hw]; omega
  simp [decode32, row0D8, need, bv, bit, opnd_opByte, bool_toNat, e0, e1, e2, e3, e4, e5]

theorem Sys2Proof.Laws.Encode.tfill (t : BitVec 4) (a : Opnd) : Sys2Proof.Laws.Encode.Statement (.tfill t a) := by
  have _h0 := t.isLt
  have _h1 := opByte_lt a
  refine of32 rfl (w := 0x1b3 + t.toNat * 0x10000 + opByte a * 0x1000000) rfl (by omega) (by omega) ?_
  generalize hw : 0x1b3 + t.toNat * 0x10000 + opByte a * 0x1000000 = word
  have e0 : fld word 0 4 = 3 := by simp only [fld, ← hw]; omega
  have e1 : fld word 4 6 = 27 := by simp only [fld, ← hw]; omega
  have e2 : fld word 1 3 = 1 := by simp only [fld, ← hw]; omega
  have e3 : fld word 10 6 = 0 := by simp only [fld, ← hw]; omega
  have e4 : fld word 20 4 = 0 := by simp only [fld, ← hw]; omega
  have e5 : fld word 24 8 = opByte a := by simp only [fld, ← hw]; omega
  have e6 : fld word 16 4 = t.toNat := by simp only [fld, ← hw]; omega
  simp [decode32, row0D8, need, bv, bit, opnd_opByte, bool_toNat, e0, e1, e2, e3, e4, e5, e6]

theorem Sys2Proof.Laws.Encode.tzero (t : BitVec 4) : Sys2Proof.Laws.Encode.Statement (.tzero t) := by
  have _h0 := t.isLt
  refine of32 rfl (w := 0x1b5 + t.toNat * 0x10000) rfl (by omega) (by omega) ?_
  generalize hw : 0x1b5 + t.toNat * 0x10000 = word
  have e0 : fld word 0 4 = 5 := by simp only [fld, ← hw]; omega
  have e1 : fld word 4 6 = 27 := by simp only [fld, ← hw]; omega
  have e2 : fld word 1 3 = 2 := by simp only [fld, ← hw]; omega
  have e3 : fld word 10 6 = 0 := by simp only [fld, ← hw]; omega
  have e4 : fld word 20 12 = 0 := by simp only [fld, ← hw]; omega
  have e5 : fld word 16 4 = t.toNat := by simp only [fld, ← hw]; omega
  simp [decode32, row0D8, need, bv, bit, opnd_opByte, bool_toNat, e0, e1, e2, e3, e4, e5]

theorem Sys2Proof.Laws.Encode.scld (d : BitVec 6) (t : BitVec 4) (a : Opnd) : Sys2Proof.Laws.Encode.Statement (.scld d t a) := by
  have _h0 := d.isLt
  have _h1 := t.isLt
  have _h2 := opByte_lt a
  refine of32 rfl (w := 0x1b7 + d.toNat * 0x400 + t.toNat * 0x10000 + opByte a * 0x1000000) rfl (by omega) (by omega) ?_
  generalize hw : 0x1b7 + d.toNat * 0x400 + t.toNat * 0x10000 + opByte a * 0x1000000 = word
  have e0 : fld word 0 4 = 7 := by simp only [fld, ← hw]; omega
  have e1 : fld word 4 6 = 27 := by simp only [fld, ← hw]; omega
  have e2 : fld word 1 3 = 3 := by simp only [fld, ← hw]; omega
  have e3 : fld word 20 4 = 0 := by simp only [fld, ← hw]; omega
  have e4 : fld word 24 8 = opByte a := by simp only [fld, ← hw]; omega
  have e5 : fld word 10 6 = d.toNat := by simp only [fld, ← hw]; omega
  have e6 : fld word 16 4 = t.toNat := by simp only [fld, ← hw]; omega
  simp [decode32, row0D8, need, bv, bit, opnd_opByte, bool_toNat, e0, e1, e2, e3, e4, e5, e6]

theorem Sys2Proof.Laws.Encode.mma (k : BitVec 3) (c : BitVec 3) (a : BitVec 4) (b : BitVec 4) (m : BitVec 2) : Sys2Proof.Laws.Encode.Statement (.mma k c a b m) := by
  have _h0 := k.isLt
  have _h1 := c.isLt
  have _h2 := a.isLt
  have _h3 := b.isLt
  have _h4 := m.isLt
  refine of32 rfl (w := 0x1c1 + k.toNat * 0x400 + c.toNat * 0x2000 + a.toNat * 0x10000 + b.toNat * 0x100000 + m.toNat * 0x40000000) rfl (by omega) (by omega) ?_
  generalize hw : 0x1c1 + k.toNat * 0x400 + c.toNat * 0x2000 + a.toNat * 0x10000 + b.toNat * 0x100000 + m.toNat * 0x40000000 = word
  have e0 : fld word 0 4 = 1 := by simp only [fld, ← hw]; omega
  have e1 : fld word 4 6 = 28 := by simp only [fld, ← hw]; omega
  have e2 : fld word 1 3 = 0 := by simp only [fld, ← hw]; omega
  have e3 : fld word 24 6 = 0 := by simp only [fld, ← hw]; omega
  have e4 : fld word 10 3 = k.toNat := by simp only [fld, ← hw]; omega
  have e5 : fld word 13 3 = c.toNat := by simp only [fld, ← hw]; omega
  have e6 : fld word 16 4 = a.toNat := by simp only [fld, ← hw]; omega
  have e7 : fld word 20 4 = b.toNat := by simp only [fld, ← hw]; omega
  have e8 : fld word 30 2 = m.toNat := by simp only [fld, ← hw]; omega
  simp [decode32, row0E0, need, bv, bit, opnd_opByte, bool_toNat, e0, e1, e2, e3, e4, e5, e6, e7, e8]

theorem Sys2Proof.Laws.Encode.mmag (k : BitVec 3) (c : BitVec 3) (a : BitVec 4) (b : BitVec 4) (x : BitVec 6) (m : BitVec 2) : Sys2Proof.Laws.Encode.Statement (.mmag k c a b x m) := by
  have _h0 := k.isLt
  have _h1 := c.isLt
  have _h2 := a.isLt
  have _h3 := b.isLt
  have _h4 := x.isLt
  have _h5 := m.isLt
  refine of32 rfl (w := 0x1c3 + k.toNat * 0x400 + c.toNat * 0x2000 + a.toNat * 0x10000 + b.toNat * 0x100000 + x.toNat * 0x1000000 + m.toNat * 0x40000000) rfl (by omega) (by omega) ?_
  generalize hw : 0x1c3 + k.toNat * 0x400 + c.toNat * 0x2000 + a.toNat * 0x10000 + b.toNat * 0x100000 + x.toNat * 0x1000000 + m.toNat * 0x40000000 = word
  have e0 : fld word 0 4 = 3 := by simp only [fld, ← hw]; omega
  have e1 : fld word 4 6 = 28 := by simp only [fld, ← hw]; omega
  have e2 : fld word 1 3 = 1 := by simp only [fld, ← hw]; omega
  have e3 : fld word 10 3 = k.toNat := by simp only [fld, ← hw]; omega
  have e4 : fld word 13 3 = c.toNat := by simp only [fld, ← hw]; omega
  have e5 : fld word 16 4 = a.toNat := by simp only [fld, ← hw]; omega
  have e6 : fld word 20 4 = b.toNat := by simp only [fld, ← hw]; omega
  have e7 : fld word 24 6 = x.toNat := by simp only [fld, ← hw]; omega
  have e8 : fld word 30 2 = m.toNat := by simp only [fld, ← hw]; omega
  simp [decode32, row0E0, need, bv, bit, opnd_opByte, bool_toNat, e0, e1, e2, e3, e4, e5, e6, e7, e8]

theorem Sys2Proof.Laws.Encode.mmas (k : BitVec 3) (c : BitVec 3) (a : BitVec 4) (b : BitVec 4) (m : BitVec 2) : Sys2Proof.Laws.Encode.Statement (.mmas k c a b m) := by
  have _h0 := k.isLt
  have _h1 := c.isLt
  have _h2 := a.isLt
  have _h3 := b.isLt
  have _h4 := m.isLt
  refine of32 rfl (w := 0x1c5 + k.toNat * 0x400 + c.toNat * 0x2000 + a.toNat * 0x10000 + b.toNat * 0x100000 + m.toNat * 0x40000000) rfl (by omega) (by omega) ?_
  generalize hw : 0x1c5 + k.toNat * 0x400 + c.toNat * 0x2000 + a.toNat * 0x10000 + b.toNat * 0x100000 + m.toNat * 0x40000000 = word
  have e0 : fld word 0 4 = 5 := by simp only [fld, ← hw]; omega
  have e1 : fld word 4 6 = 28 := by simp only [fld, ← hw]; omega
  have e2 : fld word 1 3 = 2 := by simp only [fld, ← hw]; omega
  have e3 : fld word 24 6 = 0 := by simp only [fld, ← hw]; omega
  have e4 : fld word 10 3 = k.toNat := by simp only [fld, ← hw]; omega
  have e5 : fld word 13 3 = c.toNat := by simp only [fld, ← hw]; omega
  have e6 : fld word 16 4 = a.toNat := by simp only [fld, ← hw]; omega
  have e7 : fld word 20 4 = b.toNat := by simp only [fld, ← hw]; omega
  have e8 : fld word 30 2 = m.toNat := by simp only [fld, ← hw]; omega
  simp [decode32, row0E0, need, bv, bit, opnd_opByte, bool_toNat, e0, e1, e2, e3, e4, e5, e6, e7, e8]

theorem Sys2Proof.Laws.Encode.mmags (k : BitVec 3) (c : BitVec 3) (a : BitVec 4) (b : BitVec 4) (x : BitVec 6) (m : BitVec 2) : Sys2Proof.Laws.Encode.Statement (.mmags k c a b x m) := by
  have _h0 := k.isLt
  have _h1 := c.isLt
  have _h2 := a.isLt
  have _h3 := b.isLt
  have _h4 := x.isLt
  have _h5 := m.isLt
  refine of32 rfl (w := 0x1c7 + k.toNat * 0x400 + c.toNat * 0x2000 + a.toNat * 0x10000 + b.toNat * 0x100000 + x.toNat * 0x1000000 + m.toNat * 0x40000000) rfl (by omega) (by omega) ?_
  generalize hw : 0x1c7 + k.toNat * 0x400 + c.toNat * 0x2000 + a.toNat * 0x10000 + b.toNat * 0x100000 + x.toNat * 0x1000000 + m.toNat * 0x40000000 = word
  have e0 : fld word 0 4 = 7 := by simp only [fld, ← hw]; omega
  have e1 : fld word 4 6 = 28 := by simp only [fld, ← hw]; omega
  have e2 : fld word 1 3 = 3 := by simp only [fld, ← hw]; omega
  have e3 : fld word 10 3 = k.toNat := by simp only [fld, ← hw]; omega
  have e4 : fld word 13 3 = c.toNat := by simp only [fld, ← hw]; omega
  have e5 : fld word 16 4 = a.toNat := by simp only [fld, ← hw]; omega
  have e6 : fld word 20 4 = b.toNat := by simp only [fld, ← hw]; omega
  have e7 : fld word 24 6 = x.toNat := by simp only [fld, ← hw]; omega
  have e8 : fld word 30 2 = m.toNat := by simp only [fld, ← hw]; omega
  simp [decode32, row0E0, need, bv, bit, opnd_opByte, bool_toNat, e0, e1, e2, e3, e4, e5, e6, e7, e8]

theorem Sys2Proof.Laws.Encode.mzero (k : BitVec 3) (m : BitVec 2) : Sys2Proof.Laws.Encode.Statement (.mzero k m) := by
  have _h0 := k.isLt
  have _h1 := m.isLt
  refine of32 rfl (w := 0x1c9 + k.toNat * 0x400 + m.toNat * 0x40000000) rfl (by omega) (by omega) ?_
  generalize hw : 0x1c9 + k.toNat * 0x400 + m.toNat * 0x40000000 = word
  have e0 : fld word 0 4 = 9 := by simp only [fld, ← hw]; omega
  have e1 : fld word 4 6 = 28 := by simp only [fld, ← hw]; omega
  have e2 : fld word 1 3 = 4 := by simp only [fld, ← hw]; omega
  have e3 : fld word 13 17 = 0 := by simp only [fld, ← hw]; omega
  have e4 : fld word 10 3 = k.toNat := by simp only [fld, ← hw]; omega
  have e5 : fld word 30 2 = m.toNat := by simp only [fld, ← hw]; omega
  simp [decode32, row0E0, need, bv, bit, opnd_opByte, bool_toNat, e0, e1, e2, e3, e4, e5]

theorem Sys2Proof.Laws.Encode.mrd (d : BitVec 6) (t : BitVec 4) (f : BitVec 4) (a : Opnd) : Sys2Proof.Laws.Encode.Statement (.mrd d t f a) := by
  have _h0 := d.isLt
  have _h1 := t.isLt
  have _h2 := f.isLt
  have _h3 := opByte_lt a
  refine of32 rfl (w := 0x1cb + d.toNat * 0x400 + t.toNat * 0x10000 + f.toNat * 0x100000 + opByte a * 0x1000000) rfl (by omega) (by omega) ?_
  generalize hw : 0x1cb + d.toNat * 0x400 + t.toNat * 0x10000 + f.toNat * 0x100000 + opByte a * 0x1000000 = word
  have e0 : fld word 0 4 = 11 := by simp only [fld, ← hw]; omega
  have e1 : fld word 4 6 = 28 := by simp only [fld, ← hw]; omega
  have e2 : fld word 1 3 = 5 := by simp only [fld, ← hw]; omega
  have e3 : fld word 24 8 = opByte a := by simp only [fld, ← hw]; omega
  have e4 : fld word 10 6 = d.toNat := by simp only [fld, ← hw]; omega
  have e5 : fld word 16 4 = t.toNat := by simp only [fld, ← hw]; omega
  have e6 : fld word 20 4 = f.toNat := by simp only [fld, ← hw]; omega
  simp [decode32, row0E0, need, bv, bit, opnd_opByte, bool_toNat, e0, e1, e2, e3, e4, e5, e6]

theorem Sys2Proof.Laws.Encode.mwr (d : BitVec 6) (t : BitVec 4) (f : BitVec 4) (a : Opnd) : Sys2Proof.Laws.Encode.Statement (.mwr d t f a) := by
  have _h0 := d.isLt
  have _h1 := t.isLt
  have _h2 := f.isLt
  have _h3 := opByte_lt a
  refine of32 rfl (w := 0x1cd + d.toNat * 0x400 + t.toNat * 0x10000 + f.toNat * 0x100000 + opByte a * 0x1000000) rfl (by omega) (by omega) ?_
  generalize hw : 0x1cd + d.toNat * 0x400 + t.toNat * 0x10000 + f.toNat * 0x100000 + opByte a * 0x1000000 = word
  have e0 : fld word 0 4 = 13 := by simp only [fld, ← hw]; omega
  have e1 : fld word 4 6 = 28 := by simp only [fld, ← hw]; omega
  have e2 : fld word 1 3 = 6 := by simp only [fld, ← hw]; omega
  have e3 : fld word 24 8 = opByte a := by simp only [fld, ← hw]; omega
  have e4 : fld word 10 6 = d.toNat := by simp only [fld, ← hw]; omega
  have e5 : fld word 16 4 = t.toNat := by simp only [fld, ← hw]; omega
  have e6 : fld word 20 4 = f.toNat := by simp only [fld, ← hw]; omega
  simp [decode32, row0E0, need, bv, bit, opnd_opByte, bool_toNat, e0, e1, e2, e3, e4, e5, e6]

theorem Sys2Proof.Laws.Encode.mstore (k : BitVec 3) : Sys2Proof.Laws.Encode.Statement (.mstore k) := by
  have _h0 := k.isLt
  refine of32 rfl (w := 0x1d1 + k.toNat * 0x400) rfl (by omega) (by omega) ?_
  generalize hw : 0x1d1 + k.toNat * 0x400 = word
  have e0 : fld word 0 4 = 1 := by simp only [fld, ← hw]; omega
  have e1 : fld word 4 6 = 29 := by simp only [fld, ← hw]; omega
  have e2 : fld word 1 3 = 0 := by simp only [fld, ← hw]; omega
  have e3 : fld word 13 19 = 0 := by simp only [fld, ← hw]; omega
  have e4 : fld word 10 3 = k.toNat := by simp only [fld, ← hw]; omega
  simp [decode32, row0E8, need, bv, bit, opnd_opByte, bool_toNat, e0, e1, e2, e3, e4]

theorem Sys2Proof.Laws.Encode.mprogWrite (a : Opnd) (w : BitVec 3) : Sys2Proof.Laws.Encode.Statement (.mprogWrite a w) := by
  have _h0 := opByte_lt a
  have _h1 := w.isLt
  refine of32 rfl (w := 0x1d3 + opByte a * 0x10000 + w.toNat * 0x1000000) rfl (by omega) (by omega) ?_
  generalize hw : 0x1d3 + opByte a * 0x10000 + w.toNat * 0x1000000 = word
  have e0 : fld word 0 4 = 3 := by simp only [fld, ← hw]; omega
  have e1 : fld word 4 6 = 29 := by simp only [fld, ← hw]; omega
  have e2 : fld word 1 3 = 1 := by simp only [fld, ← hw]; omega
  have e3 : fld word 10 6 = 0 := by simp only [fld, ← hw]; omega
  have e4 : fld word 27 5 = 0 := by simp only [fld, ← hw]; omega
  have e5 : fld word 16 8 = opByte a := by simp only [fld, ← hw]; omega
  have e6 : fld word 24 3 = w.toNat := by simp only [fld, ← hw]; omega
  simp [decode32, row0E8, need, bv, bit, opnd_opByte, bool_toNat, e0, e1, e2, e3, e4, e5, e6]

theorem Sys2Proof.Laws.Encode.mprogRead (d : BitVec 6) (w : BitVec 3) : Sys2Proof.Laws.Encode.Statement (.mprogRead d w) := by
  have _h0 := d.isLt
  have _h1 := w.isLt
  refine of32 rfl (w := 0x800001d3 + d.toNat * 0x400 + w.toNat * 0x1000000) rfl (by omega) (by omega) ?_
  generalize hw : 0x800001d3 + d.toNat * 0x400 + w.toNat * 0x1000000 = word
  have e0 : fld word 0 4 = 3 := by simp only [fld, ← hw]; omega
  have e1 : fld word 4 6 = 29 := by simp only [fld, ← hw]; omega
  have e2 : fld word 1 3 = 1 := by simp only [fld, ← hw]; omega
  have e3 : fld word 10 6 = d.toNat := by simp only [fld, ← hw]; omega
  have e4 : fld word 27 5 = 16 := by simp only [fld, ← hw]; omega
  have e5 : fld word 16 8 = 0 := by simp only [fld, ← hw]; omega
  have e6 : fld word 24 3 = w.toNat := by simp only [fld, ← hw]; omega
  simp [decode32, row0E8, need, bv, bit, opnd_opByte, bool_toNat, e0, e1, e2, e3, e4, e5, e6]

theorem Sys2Proof.Laws.Encode.entryPromotion (launch_ : Nat) (team_ : Nat) (gang_ : Nat) (eid_ : Nat) : Sys2Proof.Laws.Encode.Statement (.entryPromotion launch_ team_ gang_ eid_) := fun h => absurd rfl h

theorem Sys2Proof.Laws.Encode.pollingRetest (launch_ : Nat) (team_ : Nat) (gang_ : Nat) (eid_ : Nat) : Sys2Proof.Laws.Encode.Statement (.pollingRetest launch_ team_ gang_ eid_) := fun h => absurd rfl h

theorem Sys2Proof.Laws.Encode.walkStart (die_ : Nat) : Sys2Proof.Laws.Encode.Statement (.walkStart die_) := fun h => absurd rfl h

theorem Sys2Proof.Laws.Encode.walkComplete (die_ : Nat) (id_ : Nat) : Sys2Proof.Laws.Encode.Statement (.walkComplete die_ id_) := fun h => absurd rfl h

theorem Sys2Proof.Laws.Encode.sectorFill (core_ : Nat) (id_ : Nat) : Sys2Proof.Laws.Encode.Statement (.sectorFill core_ id_) := fun h => absurd rfl h

theorem Sys2Proof.Laws.Encode.memoryReturnComplete (launch_ : Nat) (team_ : Nat) (gang_ : Nat) (id_ : Nat) : Sys2Proof.Laws.Encode.Statement (.memoryReturnComplete launch_ team_ gang_ id_) := fun h => absurd rfl h

theorem Sys2Proof.Laws.Encode.storeQueueDrain (launch_ : Nat) (team_ : Nat) (gang_ : Nat) : Sys2Proof.Laws.Encode.Statement (.storeQueueDrain launch_ team_ gang_) := fun h => absurd rfl h

theorem Sys2Proof.Laws.Encode.storeAck (launch_ : Nat) (team_ : Nat) (gang_ : Nat) : Sys2Proof.Laws.Encode.Statement (.storeAck launch_ team_ gang_) := fun h => absurd rfl h

theorem Sys2Proof.Laws.Encode.dirtyLineWriteback (core_ : Nat) (line_ : Nat) : Sys2Proof.Laws.Encode.Statement (.dirtyLineWriteback core_ line_) := fun h => absurd rfl h

theorem Sys2Proof.Laws.Encode.dirtyLineAgeExpiry (core_ : Nat) (line_ : Nat) : Sys2Proof.Laws.Encode.Statement (.dirtyLineAgeExpiry core_ line_) := fun h => absurd rfl h

theorem Sys2Proof.Laws.Encode.cacheEviction (core_ : Nat) (line_ : Nat) : Sys2Proof.Laws.Encode.Statement (.cacheEviction core_ line_) := fun h => absurd rfl h

theorem Sys2Proof.Laws.Encode.homeWriteback (line_ : Nat) : Sys2Proof.Laws.Encode.Statement (.homeWriteback line_) := fun h => absurd rfl h

theorem Sys2Proof.Laws.Encode.wayReductionLine (func_ : Nat) (stack_ : Bool) (line_ : Nat) : Sys2Proof.Laws.Encode.Statement (.wayReductionLine func_ stack_ line_) := fun h => absurd rfl h

theorem Sys2Proof.Laws.Encode.wayReductionComplete (func_ : Nat) : Sys2Proof.Laws.Encode.Statement (.wayReductionComplete func_) := fun h => absurd rfl h

theorem Sys2Proof.Laws.Encode.routerPacket (k_ : Nat) : Sys2Proof.Laws.Encode.Statement (.routerPacket k_) := fun h => absurd rfl h

theorem Sys2Proof.Laws.Encode.rstrelPerform (src_ : Nat) (launch_ : Nat) (team_ : Nat) (gang_ : Nat) : Sys2Proof.Laws.Encode.Statement (.rstrelPerform src_ launch_ team_ gang_) := fun h => absurd rfl h

theorem Sys2Proof.Laws.Encode.fabricRetryTimer (core_ : Nat) (id_ : Nat) : Sys2Proof.Laws.Encode.Statement (.fabricRetryTimer core_ id_) := fun h => absurd rfl h

theorem Sys2Proof.Laws.Encode.fabricAttemptTimeout (core_ : Nat) (id_ : Nat) : Sys2Proof.Laws.Encode.Statement (.fabricAttemptTimeout core_ id_) := fun h => absurd rfl h

theorem Sys2Proof.Laws.Encode.copyElementLand (core_ : Nat) (id_ : Nat) (chunk_ : Nat) : Sys2Proof.Laws.Encode.Statement (.copyElementLand core_ id_ chunk_) := fun h => absurd rfl h

theorem Sys2Proof.Laws.Encode.copyComplete (core_ : Nat) (id_ : Nat) : Sys2Proof.Laws.Encode.Statement (.copyComplete core_ id_) := fun h => absurd rfl h

theorem Sys2Proof.Laws.Encode.cpytComplete (core_ : Nat) (id_ : Nat) : Sys2Proof.Laws.Encode.Statement (.cpytComplete core_ id_) := fun h => absurd rfl h

theorem Sys2Proof.Laws.Encode.matrixOpStart (core_ : Nat) (id_ : Nat) : Sys2Proof.Laws.Encode.Statement (.matrixOpStart core_ id_) := fun h => absurd rfl h

theorem Sys2Proof.Laws.Encode.matrixKStep (core_ : Nat) (id_ : Nat) : Sys2Proof.Laws.Encode.Statement (.matrixKStep core_ id_) := fun h => absurd rfl h

theorem Sys2Proof.Laws.Encode.matrixOpComplete (core_ : Nat) (id_ : Nat) : Sys2Proof.Laws.Encode.Statement (.matrixOpComplete core_ id_) := fun h => absurd rfl h

theorem Sys2Proof.Laws.Encode.poolGrant (core_ : Nat) (uni_ : Bool) : Sys2Proof.Laws.Encode.Statement (.poolGrant core_ uni_) := fun h => absurd rfl h

theorem Sys2Proof.Laws.Encode.queueNop (func_ : Nat) (page_ : Nat) : Sys2Proof.Laws.Encode.Statement (.queueNop func_ page_) := fun h => absurd rfl h

theorem Sys2Proof.Laws.Encode.queueLaunch (func_ : Nat) (page_ : Nat) : Sys2Proof.Laws.Encode.Statement (.queueLaunch func_ page_) := fun h => absurd rfl h

theorem Sys2Proof.Laws.Encode.queueCopy (func_ : Nat) (page_ : Nat) (core_ : Nat) : Sys2Proof.Laws.Encode.Statement (.queueCopy func_ page_ core_) := fun h => absurd rfl h

theorem Sys2Proof.Laws.Encode.queueWaittile (func_ : Nat) (page_ : Nat) : Sys2Proof.Laws.Encode.Statement (.queueWaittile func_ page_) := fun h => absurd rfl h

theorem Sys2Proof.Laws.Encode.queueWaitval (func_ : Nat) (page_ : Nat) : Sys2Proof.Laws.Encode.Statement (.queueWaitval func_ page_) := fun h => absurd rfl h

theorem Sys2Proof.Laws.Encode.waitvalPoll (func_ : Nat) (page_ : Nat) : Sys2Proof.Laws.Encode.Statement (.waitvalPoll func_ page_) := fun h => absurd rfl h

theorem Sys2Proof.Laws.Encode.queueSignal (func_ : Nat) (page_ : Nat) : Sys2Proof.Laws.Encode.Statement (.queueSignal func_ page_) := fun h => absurd rfl h

theorem Sys2Proof.Laws.Encode.queueFencemark (func_ : Nat) (page_ : Nat) : Sys2Proof.Laws.Encode.Statement (.queueFencemark func_ page_) := fun h => absurd rfl h

theorem Sys2Proof.Laws.Encode.clusterPlacement (launch_ : Nat) (bay_ : Nat) (cores_ : List Nat) : Sys2Proof.Laws.Encode.Statement (.clusterPlacement launch_ bay_ cores_) := fun h => absurd rfl h

theorem Sys2Proof.Laws.Encode.rangeSplit (launch_ : Nat) (core_ : Nat) : Sys2Proof.Laws.Encode.Statement (.rangeSplit launch_ core_) := fun h => absurd rfl h

theorem Sys2Proof.Laws.Encode.teamExitRelease (launch_ : Nat) (team_ : Nat) : Sys2Proof.Laws.Encode.Statement (.teamExitRelease launch_ team_) := fun h => absurd rfl h

theorem Sys2Proof.Laws.Encode.successorListRead (launch_ : Nat) (team_ : Nat) : Sys2Proof.Laws.Encode.Statement (.successorListRead launch_ team_) := fun h => absurd rfl h

theorem Sys2Proof.Laws.Encode.launchComplete (launch_ : Nat) : Sys2Proof.Laws.Encode.Statement (.launchComplete launch_) := fun h => absurd rfl h

theorem Sys2Proof.Laws.Encode.preemption (func_ : Nat) : Sys2Proof.Laws.Encode.Statement (.preemption func_) := fun h => absurd rfl h

theorem Sys2Proof.Laws.Encode.quiescenceReached (func_ : Nat) : Sys2Proof.Laws.Encode.Statement (.quiescenceReached func_) := fun h => absurd rfl h

theorem Sys2Proof.Laws.Encode.clusterRollback (launch_ : Nat) (cluster_ : Nat) (bay_ : Nat) : Sys2Proof.Laws.Encode.Statement (.clusterRollback launch_ cluster_ bay_) := fun h => absurd rfl h

theorem Sys2Proof.Laws.Encode.watchdogHang (func_ : Nat) : Sys2Proof.Laws.Encode.Statement (.watchdogHang func_) := fun h => absurd rfl h

theorem Sys2Proof.Laws.Encode.partitionReset (func_ : Nat) (cause_ : Nat) : Sys2Proof.Laws.Encode.Statement (.partitionReset func_ cause_) := fun h => absurd rfl h

theorem Sys2Proof.Laws.Encode.invalidationComplete (func_ : Nat) : Sys2Proof.Laws.Encode.Statement (.invalidationComplete func_) := fun h => absurd rfl h

theorem Sys2Proof.Laws.Encode.precopyRound (func_ : Nat) : Sys2Proof.Laws.Encode.Statement (.precopyRound func_) := fun h => absurd rfl h

theorem Sys2Proof.Laws.Encode.stopPhase (func_ : Nat) : Sys2Proof.Laws.Encode.Statement (.stopPhase func_) := fun h => absurd rfl h

theorem Sys2Proof.Laws.Encode.mirrorWindowExpiry (func_ : Nat) : Sys2Proof.Laws.Encode.Statement (.mirrorWindowExpiry func_) := fun h => absurd rfl h

theorem Sys2Proof.Laws.Encode.checkpointCapture (func_ : Nat) : Sys2Proof.Laws.Encode.Statement (.checkpointCapture func_) := fun h => absurd rfl h

theorem Sys2Proof.Laws.Encode.checkpointPartialTimeout (func_ : Nat) : Sys2Proof.Laws.Encode.Statement (.checkpointPartialTimeout func_) := fun h => absurd rfl h

theorem Sys2Proof.Laws.Encode.checkpointTimer (func_ : Nat) : Sys2Proof.Laws.Encode.Statement (.checkpointTimer func_) := fun h => absurd rfl h

theorem Sys2Proof.Laws.Encode.zeroLengthReadCompletion (launch_ : Nat) (team_ : Nat) (gang_ : Nat) : Sys2Proof.Laws.Encode.Statement (.zeroLengthReadCompletion launch_ team_ gang_) := fun h => absurd rfl h

theorem Sys2Proof.Laws.Encode.pageReplyRetry (owner_ : Nat) (id_ : Nat) : Sys2Proof.Laws.Encode.Statement (.pageReplyRetry owner_ id_) := fun h => absurd rfl h

theorem Sys2Proof.Laws.Encode.pageReplyRefuse (owner_ : Nat) (id_ : Nat) : Sys2Proof.Laws.Encode.Statement (.pageReplyRefuse owner_ id_) := fun h => absurd rfl h

theorem Sys2Proof.Laws.Encode.patrolScrub (sector_ : Nat) : Sys2Proof.Laws.Encode.Statement (.patrolScrub sector_) := fun h => absurd rfl h

theorem Sys2Proof.Laws.Encode.linkDown (port_ : Nat) : Sys2Proof.Laws.Encode.Statement (.linkDown port_) := fun h => absurd rfl h

theorem Sys2Proof.Laws.Encode.fabricRead (p_ : Packet) : Sys2Proof.Laws.Encode.Statement (.fabricRead p_) := fun h => absurd rfl h

theorem Sys2Proof.Laws.Encode.fabricStore (p_ : Packet) : Sys2Proof.Laws.Encode.Statement (.fabricStore p_) := fun h => absurd rfl h

theorem Sys2Proof.Laws.Encode.fabricAtomic (p_ : Packet) : Sys2Proof.Laws.Encode.Statement (.fabricAtomic p_) := fun h => absurd rfl h

theorem Sys2Proof.Laws.Encode.fabricRstrel (p_ : Packet) : Sys2Proof.Laws.Encode.Statement (.fabricRstrel p_) := fun h => absurd rfl h

theorem Sys2Proof.Laws.Encode.fabricRstarv (p_ : Packet) : Sys2Proof.Laws.Encode.Statement (.fabricRstarv p_) := fun h => absurd rfl h

theorem Sys2Proof.Laws.Encode.fabricReducingWrite (p_ : Packet) : Sys2Proof.Laws.Encode.Statement (.fabricReducingWrite p_) := fun h => absurd rfl h

theorem Sys2Proof.Laws.Encode.fabricClosePacket (p_ : Packet) : Sys2Proof.Laws.Encode.Statement (.fabricClosePacket p_) := fun h => absurd rfl h

theorem Sys2Proof.Laws.Encode.fabricOk (r_ : ReplyTo) (k_ : Seal) (data_ : BitVec 256) (poison_ : Bool) : Sys2Proof.Laws.Encode.Statement (.fabricOk r_ k_ data_ poison_) := fun h => absurd rfl h

theorem Sys2Proof.Laws.Encode.fabricNack (r_ : ReplyTo) (k_ : Seal) (kind_ : NackKind) : Sys2Proof.Laws.Encode.Statement (.fabricNack r_ k_ kind_) := fun h => absurd rfl h

theorem Sys2Proof.Laws.Encode.nackMoved (r_ : ReplyTo) (k_ : Seal) : Sys2Proof.Laws.Encode.Statement (.nackMoved r_ k_) := fun h => absurd rfl h

theorem Sys2Proof.Laws.Encode.fabricFault (r_ : ReplyTo) (k_ : Seal) (code_ : FaultCode) (detail_ : W64) : Sys2Proof.Laws.Encode.Statement (.fabricFault r_ k_ code_ detail_) := fun h => absurd rfl h

theorem Sys2Proof.Laws.Encode.tlbInvalidationMessage (src_ : Nat) (id_ : Nat) (func_ : Nat) (all_ : Bool) (page_ : Nat) : Sys2Proof.Laws.Encode.Statement (.tlbInvalidationMessage src_ id_ func_ all_ page_) := fun h => absurd rfl h

theorem Sys2Proof.Laws.Encode.tlbInvalidationAck (id_ : Nat) (dev_ : Nat) : Sys2Proof.Laws.Encode.Statement (.tlbInvalidationAck id_ dev_) := fun h => absurd rfl h

theorem Sys2Proof.Laws.Encode.doorbellWrite (func_ : Nat) (page_ : Nat) : Sys2Proof.Laws.Encode.Statement (.doorbellWrite func_ page_) := fun h => absurd rfl h

theorem Sys2Proof.Laws.Encode.faultRecordWrite : Sys2Proof.Laws.Encode.Statement (.faultRecordWrite) := fun h => absurd rfl h

theorem Sys2Proof.Laws.Encode.teamResume (func_ : Nat) (value_ : W64) : Sys2Proof.Laws.Encode.Statement (.teamResume func_ value_) := fun h => absurd rfl h

theorem Sys2Proof.Laws.Encode.svcReplySeq (func_ : Nat) (value_ : W64) : Sys2Proof.Laws.Encode.Statement (.svcReplySeq func_ value_) := fun h => absurd rfl h

theorem Sys2Proof.Laws.Encode.svcReplyValue (func_ : Nat) (value_ : W64) : Sys2Proof.Laws.Encode.Statement (.svcReplyValue func_ value_) := fun h => absurd rfl h

theorem Sys2Proof.Laws.Encode.imageRestore (func_ : Nat) (image_ : List Byte) (bays_ : List Nat) : Sys2Proof.Laws.Encode.Statement (.imageRestore func_ image_ bays_) := fun h => absurd rfl h

theorem Sys2Proof.Laws.Encode.tagParityError (level_ : CacheLevel) (unit_ : Nat) (line_ : Nat) : Sys2Proof.Laws.Encode.Statement (.tagParityError level_ unit_ line_) := fun h => absurd rfl h

theorem Sys2Proof.Laws.Encode.thermalThrottle : Sys2Proof.Laws.Encode.Statement (.thermalThrottle) := fun h => absurd rfl h

theorem Sys2Proof.Laws.Encode.thermalShutdown : Sys2Proof.Laws.Encode.Statement (.thermalShutdown) := fun h => absurd rfl h

theorem Sys2Proof.Laws.Encode.bringUp : Sys2Proof.Laws.Encode.Statement (.bringUp) := fun h => absurd rfl h

theorem Sys2Proof.Laws.Encode.firmwareLoad (image_ : List Byte) (sig_ : BitVec 512) : Sys2Proof.Laws.Encode.Statement (.firmwareLoad image_ sig_) := fun h => absurd rfl h

theorem Sys2Proof.Laws.Encode.attestationRequest (func_ : Nat) (nonce_ : BitVec 256) : Sys2Proof.Laws.Encode.Statement (.attestationRequest func_ nonce_) := fun h => absurd rfl h

theorem Sys2Proof.Laws.Encode.hostWindowRead (func_ : Nat) (off_ : Nat) (n_ : Nat) : Sys2Proof.Laws.Encode.Statement (.hostWindowRead func_ off_ n_) := fun h => absurd rfl h

theorem Sys2Proof.Laws.Encode.hostWindowWrite (func_ : Nat) (off_ : Nat) (bytes_ : List Byte) : Sys2Proof.Laws.Encode.Statement (.hostWindowWrite func_ off_ bytes_) := fun h => absurd rfl h

theorem Sys2Proof.Laws.Encode.mctpRead (what_ : MctpItem) : Sys2Proof.Laws.Encode.Statement (.mctpRead what_) := fun h => absurd rfl h

theorem Sys2Proof.Laws.Encode.registerWrite (win_ : Nat) (off_ : Nat) (value_ : W64) : Sys2Proof.Laws.Encode.Statement (.registerWrite win_ off_ value_) := fun h => absurd rfl h

theorem Sys2Proof.Laws.Encode.ringSetup (win_ : Nat) (func_ : Nat) (ring_ : Nat) (value_ : W64) : Sys2Proof.Laws.Encode.Statement (.ringSetup win_ func_ ring_ value_) := fun h => absurd rfl h

theorem Sys2Proof.Laws.Encode.ringReadIndexWrite (func_ : Nat) (ring_ : Nat) (value_ : W64) : Sys2Proof.Laws.Encode.Statement (.ringReadIndexWrite func_ ring_ value_) := fun h => absurd rfl h

theorem Sys2Proof.Laws.Encode.errcntClear (func_ : Nat) (index_ : Nat) (value_ : W64) : Sys2Proof.Laws.Encode.Statement (.errcntClear func_ index_ value_) := fun h => absurd rfl h

theorem Sys2Proof.Laws.Encode.statusClear (func_ : Nat) (value_ : W64) : Sys2Proof.Laws.Encode.Statement (.statusClear func_ value_) := fun h => absurd rfl h

theorem Sys2Proof.Laws.Encode.queueUnbind (func_ : Nat) (page_ : Nat) : Sys2Proof.Laws.Encode.Statement (.queueUnbind func_ page_) := fun h => absurd rfl h

theorem Sys2Proof.Laws.Encode.queueBind (func_ : Nat) (page_ : Nat) : Sys2Proof.Laws.Encode.Statement (.queueBind func_ page_) := fun h => absurd rfl h

theorem Sys2Proof.Laws.Encode.queueSelect (func_ : Nat) (page_ : Nat) : Sys2Proof.Laws.Encode.Statement (.queueSelect func_ page_) := fun h => absurd rfl h

theorem Sys2Proof.Laws.Encode.queueRestart (func_ : Nat) (page_ : Nat) : Sys2Proof.Laws.Encode.Statement (.queueRestart func_ page_) := fun h => absurd rfl h

theorem Sys2Proof.Laws.Encode.configWrite (win_ : Nat) (func_ : Nat) (off_ : Nat) (value_ : W64) : Sys2Proof.Laws.Encode.Statement (.configWrite win_ func_ off_ value_) := fun h => absurd rfl h

theorem Sys2Proof.Laws.Encode.stage2Invalidate (func_ : Nat) (value_ : W64) : Sys2Proof.Laws.Encode.Statement (.stage2Invalidate func_ value_) := fun h => absurd rfl h

theorem Sys2Proof.Laws.Encode.gridWrite (value_ : W64) : Sys2Proof.Laws.Encode.Statement (.gridWrite value_) := fun h => absurd rfl h

theorem Sys2Proof.Laws.Encode.migrateStart (func_ : Nat) : Sys2Proof.Laws.Encode.Statement (.migrateStart func_) := fun h => absurd rfl h

theorem Sys2Proof.Laws.Encode.migrateStop (func_ : Nat) : Sys2Proof.Laws.Encode.Statement (.migrateStop func_) := fun h => absurd rfl h

theorem Sys2Proof.Laws.Encode.migrateForceStop (func_ : Nat) : Sys2Proof.Laws.Encode.Statement (.migrateForceStop func_) := fun h => absurd rfl h

theorem Sys2Proof.Laws.Encode.migrateAbandon (func_ : Nat) : Sys2Proof.Laws.Encode.Statement (.migrateAbandon func_) := fun h => absurd rfl h

theorem Sys2Proof.Laws.Encode.migrateReceive (func_ : Nat) : Sys2Proof.Laws.Encode.Statement (.migrateReceive func_) := fun h => absurd rfl h

theorem Sys2Proof.Laws.Encode.checkpointAtStep (func_ : Nat) : Sys2Proof.Laws.Encode.Statement (.checkpointAtStep func_) := fun h => absurd rfl h

theorem Sys2Proof.Laws.Encode.checkpointByTimer (func_ : Nat) : Sys2Proof.Laws.Encode.Statement (.checkpointByTimer func_) := fun h => absurd rfl h

theorem Sys2Proof.Laws.Encode.recordMode (func_ : Nat) : Sys2Proof.Laws.Encode.Statement (.recordMode func_) := fun h => absurd rfl h

theorem Sys2Proof.Laws.Encode.replayMode (func_ : Nat) : Sys2Proof.Laws.Encode.Statement (.replayMode func_) := fun h => absurd rfl h

theorem Sys2Proof.Laws.Encode.normalMode (func_ : Nat) : Sys2Proof.Laws.Encode.Statement (.normalMode func_) := fun h => absurd rfl h

theorem Sys2Proof.Laws.Encode.heldRequestReplay (func_ : Nat) : Sys2Proof.Laws.Encode.Statement (.heldRequestReplay func_) := fun h => absurd rfl h

theorem Sys2Proof.Laws.Encode.forwardPacket (p_ : Packet) : Sys2Proof.Laws.Encode.Statement (.forwardPacket p_) := fun h => absurd rfl h

theorem Sys2Proof.Laws.Encode.checkpointQuery (func_ : Nat) (src_ : Nat) : Sys2Proof.Laws.Encode.Statement (.checkpointQuery func_ src_) := fun h => absurd rfl h

theorem Sys2Proof.Laws.Encode.checkpointQueryReply (func_ : Nat) (src_ : Nat) (high_ : W64) : Sys2Proof.Laws.Encode.Statement (.checkpointQueryReply func_ src_ high_) := fun h => absurd rfl h

theorem Sys2Proof.Laws.Encode.checkpointStepSet (func_ : Nat) (value_ : W64) : Sys2Proof.Laws.Encode.Statement (.checkpointStepSet func_ value_) := fun h => absurd rfl h

theorem Sys2Proof.Laws.Encode.keySlotLoad (slot_ : Nat) (key_ : BitVec 256) (router_ : Bool) : Sys2Proof.Laws.Encode.Statement (.keySlotLoad slot_ key_ router_) := fun h => absurd rfl h

theorem Sys2Proof.Laws.Encode.linkUp (port_ : Nat) : Sys2Proof.Laws.Encode.Statement (.linkUp port_) := fun h => absurd rfl h

theorem Sys2Proof.Laws.Encode.configurationRequest (write_ : Bool) (sriov_ : Bool) : Sys2Proof.Laws.Encode.Statement (.configurationRequest write_ sriov_) := fun h => absurd rfl h

end Encoding
end

