-- ==== Sys2Proof/Safety.lean ====
section
/-! DEFINITION. What claims call safe, and the terms they use: the issuing bundle, a core with room for registers, what an
instruction on registers leaves alone. -/

namespace Sys2Proof.Machine

/-- Every step of the run from a state answers a next state. -/
def Safe (s : State) : Prop := ∀ k : Nat, ∃ t : State, Sys2Proof.core.run k s = Host.Outcome.next t

/-- Device memory is in its canonical form. -/
def State.memOk (s : State) : Prop := Memory.wf s.mem = true

/-- So are the bytes of every typed buffer. -/
def State.buffersOk (s : State) : Prop := ∀ k b, Memory.wf ((s.core k).buf b).bytes = true

/-- A home or stack cache holds a sector whole or not at all (03 R57, 04 R77, R78). -/
def Line.whole (l : Line) : Prop := ∀ k, k < 4 → l.valid &&& sectorMask k = 0 ∨ l.valid &&& sectorMask k = sectorMask k
def State.linesWhole (s : State) : Prop := (∀ l ∈ s.home, l.whole) ∧ ∀ l ∈ s.stack, l.whole

/-- Reads and writes at the homes find room: no line is replaced for them. -/
structure Roomy (s : State) : Prop where
  whole : s.linesWhole
  home : s.home.length + 64 ≤ Config.wayLines
  stack : s.stack.length + 64 ≤ Config.wayLines

/-- The bundle `c` of gang `g` of team `t` is issuing. -/
structure Issues (s : State) (c : Cur) (t : Team) (g : Gang) : Prop where
  cur : s.cur = some c
  team : s.team? c.launch c.team = some t
  gang : t.gangs[c.gang]? = some g

/-- The bundle is issuing with an active lane. -/
structure Acts (s : State) (c : Cur) (t : Team) (g : Gang) : Prop extends Issues s c t g where
  active : c.mask ≠ 0

/-- The core of a team has registers for whatever its gang may come to hold, no claim waits there, and no upset is about to meet a bundle
of the core (what one does is in the statements on reflection). -/
structure Ample (s : State) (c : Cur) : Prop where
  noClaims : (s.core (s.coreOf c.launch c.team)).claims = []
  vector : 256 ≤ (s.core (s.coreOf c.launch c.team)).poolV
  uniform : 256 ≤ (s.core (s.coreOf c.launch c.team)).poolS
  calm : (s.core (s.coreOf c.launch c.team)).upsets = []

/-- Everything of the device but its teams and the counts of its register pools is the same. -/
structure KeepsDevice (s u : State) : Prop where
  rest : { u with teams := s.teams, cores := s.cores } = s
  cores : ∀ k, { u.core k with poolV := (s.core k).poolV, poolS := (s.core k).poolS } = s.core k

/-- Every byte of memory reads as before. -/
def SameMemory (s u : State) : Prop := ∀ a, u.homeGet a = s.homeGet a

/-- A gang after an instruction: vector registers outside `vs`, uniform registers outside `ss` and predicates outside `ps` keep their
values, and so does all else but the entries of the frontier, the forms of the registers and what the gang holds. -/
structure KeepsGang (g g' : Gang) (vs ss ps : List Nat) : Prop where
  vector : ∀ r, r ∉ vs → g'.lanes r = g.lanes r ∧ g'.tag r = g.tag r
  uniform : ∀ r, r ∉ ss → g'.uni r = g.uni r
  predicate : ∀ p, p ∉ ps → g'.pred p = g.pred p
  rest : g'.tregs = g.tregs ∧ g'.flags = g.flags ∧ g'.lpa = g.lpa ∧ g'.lpb = g.lpb ∧ g'.ctags = g.ctags ∧ g'.step = g.step ∧
    g'.round = g.round ∧ g'.exited = g.exited ∧ g'.ended = g.ended ∧ g'.stq = g.stq ∧ g'.ops = g.ops ∧ g'.streams = g.streams ∧
    g'.barPhase = g.barPhase ∧ g'.replay = g.replay ∧ g'.hostWrote = g.hostWrote ∧ g'.unacked = g.unacked ∧
    g'.reachedStep = g.reachedStep ∧ g'.idx = g.idx ∧ g'.lastIssue = g.lastIssue

/-- The entry of the bundle has moved past its instruction and is ready; the other entries are as they were. -/
def Passed (c : Cur) (g g' : Gang) : Prop := g'.frontier = (g.advance c).frontier

/-- The gang of the bundle becomes `g'`, its core's pools give and take what it holds, and nothing else changes. -/
def Commits (s : State) (c : Cur) (g' : Gang) (u : State) : Prop :=
  u.gang? c.launch c.team c.gang = some g' ∧ KeepsDevice s u ∧
  (∀ l t k, ¬ (l = c.launch ∧ t = c.team ∧ k = c.gang) → u.gang? l t k = s.gang? l t k) ∧
  (∀ l t, (u.team? l t).map (fun x => { x with gangs := [] }) = (s.team? l t).map (fun x => { x with gangs := [] }))

/-- Register files of the sizes of 08 Table 8-1 and 13 R300. -/
structure Shaped (g : Gang) : Prop where
  vector : g.vmap.length = 64
  uniform : g.smap.length = 64
  predicates : g.preds.length = 8
  tiles : g.tregs.length = 16
  flags : g.flags.length = 12
  tags : g.ctags.length = 8
  phases : g.barPhase.length = 16

/-! ### Values of lanes and of their elements -/

/-- Lane `n` of a source: 64 bits of a pair, else 32. -/
def srcLane (x : Src × Src) (pair : Bool) (n : Nat) : Nat := if pair then pairVal x.1 x.2 n else x.1.val n

/-- Lane `n` of register `r` of a gang, or of the pair that it begins. -/
def Gang.lane (g : Gang) (r : Nat) (pair : Bool) (n : Nat) : Nat := srcLane (g.srcD r, g.srcD (r + 1)) pair n

/-- Operands a and b with their odd halves. -/
def Gang.opA (g : Gang) (a : Opnd) : Src × Src := (g.srcA a, g.srcA1 a)
def Gang.opB (g : Gang) (b : Opnd) : Src × Src := (g.srcB b, g.srcB1 b)
def Gang.opD (g : Gang) (r : Nat) : Src × Src := (g.srcD r, g.srcD (r + 1))

/-- Width of the elements of a tag, their number, and element `k` of a lane. -/
def elemWidth (t : Tag) : Nat := (slotsOf t).1
def elemCount (t : Tag) : Nat := (slotsOf t).2
def elemAt (t : Tag) (x k : Nat) : Nat := fld x (elemWidth t * k) (elemWidth t)

/-- Registers that operands marked L free: each its own, or its pair. -/
def freedBy (os : List Opnd) (pair : Bool) : List Nat :=
  os.flatMap fun o => if o.last then (if pair then [o.reg.toNat, o.reg.toNat + 1] else [o.reg.toNat]) else []

/-- Sources of one operation tag `T` of a group (10 R217, R218): for integers NONE matches any tag; the pairs of I64 and F64 are even,
with one tag in both halves, and so is the destination. -/
structure TypedBy (float : Bool) (group : List Tag) (ss : List (Src × Src)) (d : Option Nat) (T : Tag) : Prop where
  inGroup : T ∈ group
  tags : ∀ x ∈ ss, x.1.tag = T ∨ (float = false ∧ x.1.tag = .none)
  named : T = .none ∨ ∃ x ∈ ss, x.1.tag = T
  pairs : isPairTag T = true → (∀ x ∈ ss, x.1.reg % 2 = 0 ∧ x.2.tag = x.1.tag) ∧ ∀ r ∈ d, r % 2 = 0

/-- A source that an untyped instruction reads: not POISON, and a pair when it carries I64 or F64. -/
def Readable (x : Src × Src) : Prop :=
  x.1.tag ≠ .poison ∧ (isPairTag x.1.tag = true → x.1.reg % 2 = 0 ∧ x.2.tag = x.1.tag)

/-! ### Effects -/

/-- Lanes of d take values: each active lane one that `P` allows, the others keep theirs; d takes the tag; the vector registers in `freed`
that are not written, and the uniform registers in `fs`, are unmapped; the entry goes on, and all else stays. -/
structure LaneEffect (s u : State) (c : Cur) (t : Team) (g g' : Gang) (d : Nat) (pair : Bool) (tag : Tag) (freed fs : List Nat)
    (P : Nat → Nat → Prop) : Prop where
  commits : Commits s c g' u
  passed : Passed c g g'
  active : ∀ n, n < 32 → n < t.lanes → c.mask.getLsbD n = true → P n (g'.lane d pair n)
  inactive : ∀ n, n < 32 → n < t.lanes → c.mask.getLsbD n = false → g'.lane d pair n = g.lane d pair n
  tag : g'.tag d = tag ∧ (pair = true → g'.tag (d + 1) = tag)
  unmapped : ∀ r ∈ freed, r ≠ d → ¬ (pair = true ∧ r = d + 1) → g'.vreg r = none
  unmappedS : ∀ r ∈ fs, g'.uni r = 0
  frame : KeepsGang g g' ((if pair then [d, d + 1] else [d]) ++ freed) fs []

/-- An instruction completes with such an effect. -/
def WritesLanes (i : Instr) (s : State) (c : Cur) (t : Team) (g : Gang) (d : BitVec 6) (pair : Bool) (tag : Tag) (freed : List Nat)
    (P : Nat → Nat → Prop) (fs : List Nat := []) : Prop :=
  ∃ u g', exec i s = .next u ∧ LaneEffect s u c t g g' d.toNat pair tag freed fs P

/-- An instruction completes by writing the active lanes of predicate `p`, p0 but for which nothing is written. -/
def WritesPredicate (i : Instr) (s : State) (c : Cur) (g : Gang) (p : Nat) (freed : List Nat) (P : Nat → Bool) : Prop :=
  ∃ u g', exec i s = .next u ∧ Commits s c g' u ∧ Passed c g g' ∧
    (∀ n, n < 32 → (g'.pred p).getLsbD n = if p = 0 then true else if c.mask.getLsbD n then P n else (g.pred p).getLsbD n) ∧
    (∀ r ∈ freed, g'.vreg r = none) ∧ KeepsGang g g' freed [] [p]

/-- An instruction completes by making its gang what `g1` is, but for vector registers `fv` and uniform registers `fs`, which are unmapped. -/
def GangBecomes (i : Instr) (s : State) (c : Cur) (g g1 : Gang) (fv fs : List Nat) : Prop :=
  ∃ u g', exec i s = .next u ∧ Commits s c g' u ∧ Passed c g g' ∧ (∀ r ∈ fv, g'.vreg r = none) ∧ (∀ r ∈ fs, g'.uni r = 0) ∧
    KeepsGang g1 g' fv fs []

/-- A region that has just begun (13 R298), with the live-ins of two masks. -/
structure NewRegion (g' : Gang) (num : Nat) (mv ms : BitVec 64) : Prop where
  num : g'.region.num = num
  entries : g'.region.entries = g'.frontier.map Entry.record
  vector : ∀ r, r < 64 → (g'.region.vlive.find? (·.1 == r)).map (fun x => (x.2.lanes, x.2.tag)) =
    if mv.getLsbD r then (g'.vreg r).map (fun v => (v.lanes, v.tag)) else none
  uniform : ∀ r, r < 64 → (g'.region.slive.find? (·.1 == r)).map (·.2) = if ms.getLsbD r then (g'.smap[r]?).join else none
  rest : g'.region.heldV = 0 ∧ g'.region.heldS = 0 ∧ g'.region.preds = g'.preds ∧ g'.region.tregs = g'.tregs ∧ g'.region.lpa = g'.lpa ∧
    g'.region.lpb = g'.lpb ∧ g'.region.round = g'.round ∧ g'.region.step = g'.step ∧ g'.region.draws = [] ∧ g'.replay = []

/-- As `GangBecomes`, with a new region. -/
def GangBegins (i : Instr) (s : State) (c : Cur) (g g1 : Gang) (mv ms : BitVec 64) (fs : List Nat) : Prop :=
  ∃ u g', exec i s = .next u ∧ Commits s c g' u ∧ Passed c g g' ∧ (∀ r ∈ fs, g'.uni r = 0) ∧
    KeepsGang { g1 with replay := [] } g' [] fs [] ∧ NewRegion g' (g.region.num + 1) mv ms

/-- An instruction completes by writing uniform register `d`. -/
def WritesUniform (i : Instr) (s : State) (c : Cur) (g : Gang) (d : Nat) (fv fs : List Nat) (v : W64) : Prop :=
  ∃ u g', exec i s = .next u ∧ Commits s c g' u ∧ Passed c g g' ∧ g'.uni d = v ∧
    (∀ r ∈ fv, g'.vreg r = none) ∧ (∀ r ∈ fs, r ≠ d → g'.uni r = 0) ∧ KeepsGang g g' fv (d :: fs) []

end Sys2Proof.Machine
end

