-- ==== Sys2Proof/Certificates/Slice0/Obligations.lean ====
section
/-! DEFINITION. Statements for the provers, family by family in the order of the opcode table. -/

open Sys2Proof Sys2Proof.Machine

/-! ### Integer instructions (10 R220 to R222) -/

namespace Sys2Proof.Claims

/-- Typed integer instructions: the destination, the operands that may be marked L, and the sources. The compact form `op d, b` is
`op d, d, b` (02 R31). -/
def intForm (g : Gang) : Instr → Option (BitVec 6 × List Opnd × List (Src × Src))
  | .iadd d a b => some (d, [a, b], [g.opA a, g.opB b])
  | .isub d a b => some (d, [a, b], [g.opA a, g.opB b])
  | .imul d a b => some (d, [a, b], [g.opA a, g.opB b])
  | .imulhi d a b => some (d, [a, b], [g.opA a, g.opB b])
  | .imad d a b => some (d, [a, b], [g.opA a, g.opB b, g.opD d.toNat])
  | .imin d a b => some (d, [a, b], [g.opA a, g.opB b])
  | .imax d a b => some (d, [a, b], [g.opA a, g.opB b])
  | .umin d a b => some (d, [a, b], [g.opA a, g.opB b])
  | .umax d a b => some (d, [a, b], [g.opA a, g.opB b])
  | .iset d a b => some (d, [a, b], [g.opA a, g.opB b])
  | .iaddC d b => some (wide d, [], [g.opA (plain d), g.opB (plain b)])
  | .isubC d b => some (wide d, [], [g.opA (plain d), g.opB (plain b)])
  | .imulC d b => some (wide d, [], [g.opA (plain d), g.opB (plain b)])
  | .iminC d b => some (wide d, [], [g.opA (plain d), g.opB (plain b)])
  | .imaxC d b => some (wide d, [], [g.opA (plain d), g.opB (plain b)])
  | .iaddi d a _ => some (d, [a], [g.opA a])
  | .iseti d a _ => some (d, [a], [g.opA a])
  | .ineg d a => some (d, [a], [g.opA a])
  | .iabs d a => some (d, [a], [g.opA a])
  | _ => none

/-- Tags that each accepts (10 Table 10-2). -/
def intTags : Instr → List Tag
  | .imulhi _ _ _ => [.i32, .u32, .none, .i64]
  | .iabs _ _ => [.i32, .i16x2, .i8x4, .i64]
  | _ => [.i32, .u32, .none, .i16x2, .i8x4, .u8x4, .i64]

/-- Tag of the result: ISET and ISETI give the signed tag of the same shape. -/
def intResultTag (i : Instr) (t : Tag) : Tag :=
  match i, t with
  | .iset _ _ _, .u32 => .i32
  | .iset _ _ _, .none => .i32
  | .iset _ _ _, .u8x4 => .i8x4
  | .iseti _ _ _, .u32 => .i32
  | .iseti _ _ _, .none => .i32
  | .iseti _ _ _, .u8x4 => .i8x4
  | _, t => t

/-- −1, 0 or 1 as x lies below, at or above y. -/
def threeWay {w : Nat} (sg : Bool) (x y : BitVec w) : BitVec w :=
  if (if sg then x.slt y else x.ult y) then BitVec.allOnes w else if x = y then 0 else 1

/-- One element of the result (10 Table 10-3), as arithmetic on `w`-bit vectors. -/
def intElem (i : Instr) (w : Nat) (sg : Bool) (x y z : BitVec w) : BitVec w :=
  match i with
  | .iadd _ _ _ => x + y
  | .iaddC _ _ => x + y
  | .isub _ _ _ => x - y
  | .isubC _ _ => x - y
  | .imul _ _ _ => x * y
  | .imulC _ _ => x * y
  | .imulhi _ _ _ => if sg then BitVec.ofInt w (x.toInt * y.toInt / (2 ^ w : Nat)) else BitVec.ofNat w (x.toNat * y.toNat / 2 ^ w)
  | .imad _ _ _ => x * y + z
  | .imin _ _ _ => if x.slt y then x else y
  | .iminC _ _ => if x.slt y then x else y
  | .imax _ _ _ => if x.slt y then y else x
  | .imaxC _ _ => if x.slt y then y else x
  | .umin _ _ _ => if x.ult y then x else y
  | .umax _ _ _ => if x.ult y then y else x
  | .iset _ _ _ => threeWay sg x y
  | .iaddi _ _ m => x + m.signExtend w
  | .iseti _ _ m => threeWay sg x (m.signExtend w)
  | .ineg _ _ => -x
  | .iabs _ _ => if x.msb then -x else x
  | _ => 0

/-- Element `k` of source `j` at lane `n`, as a bit vector. -/
def elemBits (T : Tag) (ss : List (Src × Src)) (j n k : Nat) : BitVec (elemWidth T) :=
  BitVec.ofNat _ (elemAt T (srcLane (ss.getD j (⟨0, .none, []⟩, ⟨0, .none, []⟩)) (isPairTag T) n) k)

end Sys2Proof.Claims

open Sys2Proof.Claims

/-- 10 Table 10-3: every element of every active lane is the instruction's function of the source elements at the width of the operation
tag. -/
def Sys2Proof.Claims.IntegerElementwise : Prop :=
  ∀ (i : Instr) (s : State) (c : Cur) (t : Team) (g : Gang) (d : BitVec 6) (os : List Opnd) (ss : List (Src × Src)) (T : Tag),
    intForm g i = some (d, os, ss) → Acts s c t g → Ample s c → Shaped g → TypedBy false (intTags i) ss (some d.toNat) T →
    WritesLanes i s c t g d (isPairTag T) (intResultTag i T) (freedBy os (isPairTag T)) fun n x =>
      ∀ k, k < elemCount T → elemAt T x k =
        (intElem i (elemWidth T) (isSigned T) (elemBits T ss 0 n k) (elemBits T ss 1 n k) (elemBits T ss 2 n k)).toNat

/-- 10 R220: IADDC writes the carry and ISUBB the borrow of a 32-bit limb, with bit 0 of the old d as the carry or borrow in. -/
def Sys2Proof.Claims.CarryOfLimb : Prop :=
  ∀ (s : State) (c : Cur) (t : Team) (g : Gang) (d : BitVec 6) (a b : Opnd) (T : Tag),
    Acts s c t g → Ample s c → Shaped g → TypedBy false [.i32, .u32, .none] [g.opA a, g.opB b] none T → g.tag d.toNat ≠ .poison →
    WritesLanes (.iaddc d a b) s c t g d false .u32 (freedBy [a, b] false) (fun n x =>
      x = if 2 ^ 32 ≤ (g.srcA a).val n + (g.srcB b).val n + (g.srcD d.toNat).val n % 2 then 1 else 0) ∧
    WritesLanes (.isubb d a b) s c t g d false .u32 (freedBy [a, b] false) (fun n x =>
      x = if (g.srcA a).val n < (g.srcB b).val n + (g.srcD d.toNat).val n % 2 then 1 else 0)

namespace Sys2Proof.Claims

/-- Logic of two sources. -/
def logicForm : Instr → Option (BitVec 6 × Opnd × Opnd)
  | .and d a b => some (d, a, b)
  | .or d a b => some (d, a, b)
  | .xor d a b => some (d, a, b)
  | .andn d a b => some (d, a, b)
  | .andC d b => some (wide d, plain d, plain b)
  | .orC d b => some (wide d, plain d, plain b)
  | .xorC d b => some (wide d, plain d, plain b)
  | _ => none

def logicBits (i : Instr) (x y : BitVec 64) : BitVec 64 :=
  match i with
  | .and _ _ _ => x &&& y
  | .andC _ _ => x &&& y
  | .or _ _ _ => x ||| y
  | .orC _ _ => x ||| y
  | .xor _ _ _ => x ^^^ y
  | .xorC _ _ => x ^^^ y
  | _ => x &&& ~~~ y

end Sys2Proof.Claims

/-- 10 R221: AND, OR, XOR and ANDN act on the bits of lanes, 64 of them when a carries I64 or F64. The result has the tag that both sources
carry, else NONE. -/
def Sys2Proof.Claims.LogicOfLanes : Prop :=
  ∀ (i : Instr) (s : State) (c : Cur) (t : Team) (g : Gang) (d : BitVec 6) (a b : Opnd),
    logicForm i = some (d, a, b) → Acts s c t g → Ample s c → Shaped g → Readable (g.opA a) → (g.srcB b).tag ≠ .poison →
    (isPairTag (g.srcA a).tag = true → d.toNat % 2 = 0 ∧ (g.srcB b).reg % 2 = 0 ∧ (g.srcB1 b).tag = (g.srcB b).tag) →
    WritesLanes i s c t g d (isPairTag (g.srcA a).tag) (if (g.srcA a).tag = (g.srcB b).tag then (g.srcA a).tag else .none)
      (freedBy [a, b] (isPairTag (g.srcA a).tag)) fun n x =>
        x = (logicBits i (BitVec.ofNat 64 (srcLane (g.opA a) (isPairTag (g.srcA a).tag) n))
          (BitVec.ofNat 64 (srcLane (g.opB b) (isPairTag (g.srcA a).tag) n))).toNat

namespace Sys2Proof.Claims

/-- Shifts and bit counts: destination, source, and the operand that gives the count. -/
def shiftForm : Instr → Option (BitVec 6 × Opnd × List Opnd)
  | .shl d a b => some (d, a, [b])
  | .shr d a b => some (d, a, [b])
  | .sar d a b => some (d, a, [b])
  | .rotl d a b => some (d, a, [b])
  | .shlC d b => some (wide d, plain d, [plain b])
  | .shrC d b => some (wide d, plain d, [plain b])
  | .shli d a _ => some (d, a, [])
  | .shri d a _ => some (d, a, [])
  | .not d a => some (d, a, [])
  | .brev d a => some (d, a, [])
  | .popc d a => some (d, a, [])
  | .clz d a => some (d, a, [])
  | _ => none

/-- The count of an immediate form, else that of the operand. -/
def shiftCountOf (i : Instr) (c : Nat) : Nat :=
  match i with
  | .shli _ _ m => m.toNat
  | .shri _ _ m => m.toNat
  | _ => c

/-- POPC and CLZ give a single register tagged U32; the others keep a's tag and width. -/
def counts : Instr → Bool
  | .popc _ _ => true
  | .clz _ _ => true
  | _ => false

/-- The result on `w` bits. -/
def shiftBits (i : Instr) {w : Nat} (x : BitVec w) (c : Nat) : Nat :=
  match i with
  | .shl _ _ _ => (x <<< c).toNat
  | .shlC _ _ => (x <<< c).toNat
  | .shli _ _ _ => (x <<< c).toNat
  | .shr _ _ _ => (x >>> c).toNat
  | .shrC _ _ => (x >>> c).toNat
  | .shri _ _ _ => (x >>> c).toNat
  | .sar _ _ _ => (x.sshiftRight c).toNat
  | .rotl _ _ _ => (x.rotateLeft c).toNat
  | .not _ _ => (~~~ x).toNat
  | .brev _ _ => x.reverse.toNat
  | .popc _ _ => (List.range w).countP (x.getLsbD ·)
  | _ => if x = 0 then w else w - 1 - Nat.log2 x.toNat

end Sys2Proof.Claims

/-- 10 R221: shifts by the unsigned 32-bit count (a count of the width or more shifts every bit out), rotation, complement, bit reversal and
the bit counts, on 32 bits or on the 64 of a pair. -/
def Sys2Proof.Claims.ShiftsAndCounts : Prop :=
  ∀ (i : Instr) (s : State) (c : Cur) (t : Team) (g : Gang) (d : BitVec 6) (a : Opnd) (bs : List Opnd),
    shiftForm i = some (d, a, bs) → Acts s c t g → Ample s c → Shaped g → Readable (g.opA a) → (∀ b ∈ bs, (g.srcB b).tag ≠ .poison) →
    (isPairTag (g.srcA a).tag = true → counts i = false → d.toNat % 2 = 0) →
    WritesLanes i s c t g d (isPairTag (g.srcA a).tag && !counts i) (if counts i then .u32 else (g.srcA a).tag)
      (freedBy [a] (isPairTag (g.srcA a).tag) ++ freedBy bs false) fun n x =>
        x = shiftBits i (BitVec.ofNat (if isPairTag (g.srcA a).tag then 64 else 32) (srcLane (g.opA a) (isPairTag (g.srcA a).tag) n))
          (shiftCountOf i ((bs.map fun b => (g.srcB b).val n).headD 0))

/-- 10 R221: BFE takes the field at bits 4..0 of b of the length at bits 13..8 of b, cut at bit 31, sign-extended under I32; BFI puts the low
bits of a there in d; SEL takes a where d is not zero; IDOT4 adds four products of 8-bit slots to d. -/
def Sys2Proof.Claims.FieldsAndSelects : Prop :=
  ∀ (s : State) (c : Cur) (t : Team) (g : Gang) (d : BitVec 6) (a b : Opnd),
    Acts s c t g → Ample s c → Shaped g →
    let x (n : Nat) := (g.srcA a).val n
    let y (n : Nat) := (g.srcB b).val n
    let z (n : Nat) := (g.srcD d.toNat).val n
    let pos (n : Nat) := y n % 32
    let len (n : Nat) := min (y n / 256 % 64) (32 - pos n)
    let w32 (T : Tag) := T = .i32 ∨ T = .u32 ∨ T = .none
    (w32 (g.srcA a).tag → w32 (g.srcB b).tag →
      WritesLanes (.bfe d a b) s c t g d false (g.srcA a).tag (freedBy [a, b] false) fun n v =>
        v = if (g.srcA a).tag = .i32 then (BitVec.signExtend 32 (BitVec.ofNat (len n) (x n / 2 ^ pos n))).toNat
            else x n / 2 ^ pos n % 2 ^ len n) ∧
    (w32 (g.srcA a).tag → w32 (g.srcB b).tag → w32 (g.tag d.toNat) →
      (g.srcA a).tag = g.tag d.toNat ∨ (g.srcA a).tag = .none ∨ g.tag d.toNat = .none →
      WritesLanes (.bfi d a b) s c t g d false (g.tag d.toNat) (freedBy [a, b] false) fun n v =>
        ∀ k, k < 32 → v.testBit k = if pos n ≤ k ∧ k < pos n + len n then (x n).testBit (k - pos n) else (z n).testBit k) ∧
    ((g.srcA a).tag ≠ .poison → (g.srcB b).tag ≠ .poison → g.tag d.toNat ≠ .poison →
      WritesLanes (.sel d a b) s c t g d false (if (g.srcA a).tag = (g.srcB b).tag then (g.srcA a).tag else .none) (freedBy [a, b] false)
        fun n v => v = if z n ≠ 0 then x n else y n) ∧
    ((g.srcA a).tag = .i8x4 ∨ (g.srcA a).tag = .u8x4 → (g.srcB b).tag = .i8x4 ∨ (g.srcB b).tag = .u8x4 → w32 (g.tag d.toNat) →
      WritesLanes (.idot4 d a b) s c t g d false (g.tag d.toNat) (freedBy [a, b] false) fun n v =>
        let e (T : Tag) (q k : Nat) : Int :=
          if T = .i8x4 then (BitVec.ofNat 8 (q / 2 ^ (8 * k))).toInt else ((q / 2 ^ (8 * k) % 256 : Nat) : Int)
        let p (k : Nat) : Int := e (g.srcA a).tag (x n) k * e (g.srcB b).tag (y n) k
        (v : Int) = ((z n : Int) + p 0 + p 1 + p 2 + p 3) % 2 ^ 32)

/-- 10 R221, R222: LEA adds b, sign-extended under I32, to the address pair of a; PSET writes the condition's lanes of a predicate. -/
def Sys2Proof.Claims.AddressAndPredicate : Prop :=
  ∀ (s : State) (c : Cur) (t : Team) (g : Gang) (d : BitVec 6) (p cc : BitVec 3) (a b : Opnd) (T : Tag),
    Acts s c t g → Ample s c → Shaped g →
    (wellFormed (.lea d a b) = true → (g.srcA a).tag = .i64 ∨ (g.srcA a).tag = .none → (g.srcA1 a).tag = (g.srcA a).tag →
      (g.srcB b).tag = .i32 ∨ (g.srcB b).tag = .u32 ∨ (g.srcB b).tag = .none →
      WritesLanes (.lea d a b) s c t g d true .i64 (freedBy [a] true ++ freedBy [b] false) fun n v =>
        BitVec.ofNat 64 v = BitVec.ofNat 64 (srcLane (g.opA a) true n) +
          (if (g.srcB b).tag = .i32 then (BitVec.ofNat 32 ((g.srcB b).val n)).signExtend 64
           else (BitVec.ofNat 32 ((g.srcB b).val n)).setWidth 64)) ∧
    (TypedBy false [.i32, .u32, .none, .i64] [g.opA a, g.opB b] none T →
      WritesPredicate (.pset p cc a b) s c g p.toNat (freedBy [a, b] (isPairTag T)) fun n =>
        let x : BitVec (elemWidth T) := BitVec.ofNat _ (srcLane (g.opA a) (isPairTag T) n)
        let y : BitVec (elemWidth T) := BitVec.ofNat _ (srcLane (g.opB b) (isPairTag T) n)
        let lt := if isSigned T then x.slt y else x.ult y
        match cc.toNat with
        | 0 => x == y
        | 1 => x != y
        | 2 => lt
        | 3 => lt || x == y
        | 4 => !lt && x != y
        | 5 => !lt
        | 6 => x &&& y != 0
        | _ => x &&& y == 0)

/-! ### Floating-point instructions (10 R223 to R226) -/

namespace Sys2Proof.Claims

/-- Typed floating-point instructions: destination, operands that may be marked L, sources. -/
def floatForm (g : Gang) : Instr → Option (BitVec 6 × List Opnd × List (Src × Src))
  | .fadd d a b => some (d, [a, b], [g.opA a, g.opB b])
  | .fsub d a b => some (d, [a, b], [g.opA a, g.opB b])
  | .fmul d a b => some (d, [a, b], [g.opA a, g.opB b])
  | .ffma d a b => some (d, [a, b], [g.opA a, g.opB b, g.opD d.toNat])
  | .fmin d a b => some (d, [a, b], [g.opA a, g.opB b])
  | .fmax d a b => some (d, [a, b], [g.opA a, g.opB b])
  | .faddC d b => some (wide d, [], [g.opA (plain d), g.opB (plain b)])
  | .fsubC d b => some (wide d, [], [g.opA (plain d), g.opB (plain b)])
  | .fmulC d b => some (wide d, [], [g.opA (plain d), g.opB (plain b)])
  | .fminC d b => some (wide d, [], [g.opA (plain d), g.opB (plain b)])
  | .fmaxC d b => some (wide d, [], [g.opA (plain d), g.opB (plain b)])
  | .fabs d a => some (d, [a], [g.opA a])
  | .fneg d a => some (d, [a], [g.opA a])
  | .frcp d a => some (d, [a], [g.opA a])
  | .frsq d a => some (d, [a], [g.opA a])
  | .fsqrt d a => some (d, [a], [g.opA a])
  | .fexp2 d a => some (d, [a], [g.opA a])
  | .flog2 d a => some (d, [a], [g.opA a])
  | .fsin d a => some (d, [a], [g.opA a])
  | .fcos d a => some (d, [a], [g.opA a])
  | .ftanh d a => some (d, [a], [g.opA a])
  | .frnd d a _ => some (d, [a], [g.opA a])
  | _ => none

/-- Tags that each accepts (10 Table 10-6). -/
def floatTags : Instr → List Tag
  | .frcp _ _ => [.f32, .f64]
  | .frsq _ _ => [.f32, .f64]
  | .fsqrt _ _ => [.f32, .f64]
  | .frnd _ _ _ => [.f32, .f64]
  | .fexp2 _ _ => [.f32]
  | .flog2 _ _ => [.f32]
  | .fsin _ _ => [.f32]
  | .fcos _ _ => [.f32]
  | .ftanh _ _ => [.f32]
  | _ => [.f32, .f64, .f16x2, .bf16x2]

/-- The rounding mode of SR_ROUND (00 Table 0-3), and that of an FRND code. -/
def roundMode (r : BitVec 2) : RMode := if r = 0 then .rne else if r = 1 then .rtz else if r = 2 then .rup else .rdn
def frndMode (g : Gang) (n : BitVec 8) : RMode :=
  if n = 0 then roundMode g.round else if n = 1 then .rne else if n = 2 then .rtz else if n = 3 then .rup else .rdn

/-- One element of the result: the exact value rounded once (R223). -/
def floatElem (i : Instr) (g : Gang) (f : Fmt) (x y z : Nat) : Nat :=
  let m := roundMode g.round
  match i with
  | .fadd _ _ _ => f.round m (Val.sum m [f.val x, f.val y])
  | .faddC _ _ => f.round m (Val.sum m [f.val x, f.val y])
  | .fsub _ _ _ => f.round m (Val.sum m [f.val x, (f.val y).neg])
  | .fsubC _ _ => f.round m (Val.sum m [f.val x, (f.val y).neg])
  | .fmul _ _ _ => f.round m ((f.val x).mul (f.val y))
  | .fmulC _ _ => f.round m ((f.val x).mul (f.val y))
  | .ffma _ _ _ => f.round m (Val.sum m [(f.val x).mul (f.val y), f.val z])
  | .fmin _ _ _ => f.minmax false x y
  | .fminC _ _ => f.minmax false x y
  | .fmax _ _ _ => f.minmax true x y
  | .fmaxC _ _ => f.minmax true x y
  | .fabs _ _ => x % 2 ^ (f.width - 1)
  | .fneg _ _ => x ^^^ 2 ^ (f.width - 1)
  | .frcp _ _ => f.func .rcp m x
  | .frsq _ _ => f.func .rsq m x
  | .fsqrt _ _ => f.func .sqrt m x
  | .fexp2 _ _ => f.func .exp2 m x
  | .flog2 _ _ => f.func .log2 m x
  | .fsin _ _ => f.func .sin m x
  | .fcos _ _ => f.func .cos m x
  | .ftanh _ _ => f.func .tanh m x
  | .frnd _ _ n => f.rnd (frndMode g n) x
  | _ => 0

/-- The format of a floating-point tag's elements. -/
def tagFormat (T : Tag) : Fmt := if T = .f64 then ⟨11, 52⟩ else if T = .f16x2 then ⟨5, 10⟩ else if T = .bf16x2 then ⟨8, 7⟩ else ⟨8, 23⟩

end Sys2Proof.Claims

/-- 10 R223: every element of every active lane is the instruction's function of the source elements in the format of the operation tag. The
functions of R225 are free values within their bounds (log 6), which this statement leaves open. -/
def Sys2Proof.Claims.FloatElementwise : Prop :=
  ∀ (i : Instr) (s : State) (c : Cur) (t : Team) (g : Gang) (d : BitVec 6) (os : List Opnd) (ss : List (Src × Src)) (T : Tag),
    floatForm g i = some (d, os, ss) → wellFormed i = true → Acts s c t g → Ample s c → Shaped g →
    TypedBy true (floatTags i) ss (some d.toNat) T →
    WritesLanes i s c t g d (isPairTag T) T (freedBy os (isPairTag T)) fun n x =>
      ∀ k, k < elemCount T → elemAt T x k = floatElem i g (tagFormat T) (elemBits T ss 0 n k).toNat (elemBits T ss 1 n k).toNat
        (elemBits T ss 2 n k).toNat

/-- 10 R222, R223, R226: FSCALE multiplies by a power of two, FDOT2 adds two products to d before one rounding, FCLASS writes the one bit of
Table 10-8, FSET writes a predicate. -/
def Sys2Proof.Claims.FloatScalesAndTests : Prop :=
  ∀ (s : State) (c : Cur) (t : Team) (g : Gang) (d : BitVec 6) (p cc : BitVec 3) (a b : Opnd) (T : Tag),
    Acts s c t g → Ample s c → Shaped g →
    (TypedBy true [.f32, .f64] [g.opA a] (some d.toNat) T → (g.srcB b).tag = .i32 ∨ (g.srcB b).tag = .none →
      WritesLanes (.fscale d a b) s c t g d (isPairTag T) T (freedBy [a] (isPairTag T) ++ freedBy [b] false) fun n x =>
        let f := tagFormat T
        let y := (BitVec.ofNat 32 ((g.srcB b).val n)).toInt
        x = match f.val (srcLane (g.opA a) (isPairTag T) n) with
          | .fin neg q => f.round (roundMode g.round) (.fin neg ⟨q.n, q.d, q.e + max (-8192) (min 8192 y)⟩)
          | v => f.round (roundMode g.round) v) ∧
    ((g.srcA a).tag = .f16x2 ∨ (g.srcA a).tag = .bf16x2 → (g.srcB b).tag = .f16x2 ∨ (g.srcB b).tag = .bf16x2 → g.tag d.toNat = .f32 →
      WritesLanes (.fdot2 d a b) s c t g d false .f32 (freedBy [a, b] false) fun n x =>
        let v (T : Tag) (q k : Nat) := (tagFormat T).val (q / 2 ^ (16 * k) % 2 ^ 16)
        let m := roundMode g.round
        x = fF32.round m (Val.sum m [fF32.val ((g.srcD d.toNat).val n),
          (v (g.srcA a).tag ((g.srcA a).val n) 0).mul (v (g.srcB b).tag ((g.srcB b).val n) 0),
          (v (g.srcA a).tag ((g.srcA a).val n) 1).mul (v (g.srcB b).tag ((g.srcB b).val n) 1)])) ∧
    (TypedBy true [.f32, .f64] [g.opA a] none T →
      WritesLanes (.fclass d a) s c t g d false .u32 (freedBy [a] (isPairTag T)) fun n x =>
        let f := tagFormat T
        let q := srcLane (g.opA a) (isPairTag T) n
        let neg := q.testBit (f.eb + f.fb)
        let e := q / 2 ^ f.fb % 2 ^ f.eb
        let r := q % 2 ^ f.fb
        x = if e = 2 ^ f.eb - 1 then (if r = 0 then (if neg then 1 else 128) else if r.testBit (f.fb - 1) then 512 else 256)
          else if e = 0 then (if r = 0 then (if neg then 8 else 16) else if neg then 4 else 32)
          else if neg then 2 else 64) ∧
    (TypedBy true [.f32, .f64] [g.opA a, g.opB b] none T →
      WritesPredicate (.fset p cc a b) s c g p.toNat (freedBy [a, b] (isPairTag T)) fun n =>
        let f := tagFormat T
        let x := f.val (srcLane (g.opA a) (isPairTag T) n)
        let y := f.val (srcLane (g.opB b) (isPairTag T) n)
        let uno := x == .nan || y == .nan
        match cc.toNat with
        | 0 => !uno && x.cmp y == .eq
        | 1 => uno || x.cmp y != .eq
        | 2 => !uno && x.cmp y == .lt
        | 3 => !uno && (x.cmp y == .lt || x.cmp y == .eq)
        | 4 => !uno && x.cmp y == .gt
        | 5 => !uno && (x.cmp y == .gt || x.cmp y == .eq)
        | 6 => !uno
        | _ => uno)

/-- 10 Table 10-7: the special values of the eight functions, in F32 and, for the first three, in F64. -/
def Sys2Proof.Claims.FunctionSpecialValues : Prop :=
  ∀ (f : Fmt) (m : RMode) (n : Bool), f = fF32 ∨ f = fF64 →
    f.func .rcp m (f.signBit n) = f.inf n ∧ f.func .rcp m (f.inf n) = f.signBit n ∧
    f.func .rsq m (f.signBit n) = f.inf n ∧ f.func .rsq m (f.inf false) = 0 ∧ f.func .rsq m (f.inf true) = f.nan ∧
    f.func .sqrt m (f.signBit n) = f.signBit n ∧ f.func .sqrt m (f.inf false) = f.inf false ∧ f.func .sqrt m (f.inf true) = f.nan ∧
    fF32.func .exp2 m (fF32.inf true) = 0 ∧ fF32.func .exp2 m (fF32.inf false) = fF32.inf false ∧
    fF32.func .log2 m (fF32.signBit n) = fF32.inf true ∧ fF32.func .log2 m (fF32.inf false) = fF32.inf false ∧
    fF32.func .log2 m 0x3F800000 = 0 ∧
    fF32.func .sin m (fF32.inf n) = fF32.nan ∧ fF32.func .cos m (fF32.inf n) = fF32.nan ∧
    fF32.func .sin m (fF32.signBit n) = fF32.signBit n ∧ fF32.func .cos m (fF32.signBit n) = 0x3F800000 ∧
    fF32.func .tanh m (fF32.inf n) = 0x3F800000 + fF32.signBit n ∧ fF32.func .tanh m (fF32.signBit n) = fF32.signBit n

/-! ### Conversions (09 R201 to R209) -/

namespace Sys2Proof.Claims

/-- Tags of one slot count (09 Table 9-7). -/
def likeTags (T : Tag) : List Tag :=
  if elemCount T = 2 then [.i16x2, .f16x2, .bf16x2] else if elemCount T = 4 then [.i8x4, .u8x4, .t8x4, .t6x4] else [.i32, .u32, .f32, .i64, .f64]

/-- Convert(x, target, mode) of one element pattern (09 R203). -/
def convertElem (src dst : Tag) (m : RMode) (x : Nat) : Nat := convertTo dst m (elemVal src x)

end Sys2Proof.Claims

/-- 09 R201 to R209: CVT converts every element to the target tag; UNPACK widens slot j; PACK narrows a and b into d; CVTS quantises a by the
scale and zero point in b into byte 0 of d, the older bytes moving up; DEQ is its inverse. -/
def Sys2Proof.Claims.Conversions : Prop :=
  ∀ (s : State) (c : Cur) (t : Team) (g : Gang) (d : BitVec 6) (a b : Opnd) (r : BitVec 3) (g4 : BitVec 4) (j : BitVec 2),
    Acts s c t g → Ample s c → Shaped g →
    let A := (g.srcA a).tag
    let x (n : Nat) := (g.srcA a).val n
    let y (n : Nat) := (g.srcB b).val n
    let z (n : Nat) := (g.srcD d.toNat).val n
    let T := tagOf g4.toNat
    let D := g.tag d.toNat
    let real := A = .f32 ∨ A = .i32 ∨ A = .u32
    let scale := (g.srcB b).tag = .none ∨ (g.srcB b).tag = .i32 ∨ (g.srcB b).tag = .u32
    (wellFormed (.cvt d a r g4) = true → A ∈ likeTags T → (isPairTag A = true → (g.srcA a).reg % 2 = 0 ∧ (g.srcA1 a).tag = A) →
      (isPairTag T = true → d.toNat % 2 = 0) →
      WritesLanes (.cvt d a r g4) s c t g d (isPairTag T) T (freedBy [a] (isPairTag A)) fun n v =>
        if A = T then v = srcLane (g.opA a) (isPairTag A) n
        else ∀ k, k < elemCount T → elemAt T v k =
          convertElem A T (frndMode g (r.setWidth 8)) (elemAt A (srcLane (g.opA a) (isPairTag A) n) k)) ∧
    (A ∈ [Tag.i16x2, .f16x2, .bf16x2, .i8x4, .u8x4, .t8x4, .t6x4] → j.toNat < elemCount A →
      WritesLanes (.unpack d a j) s c t g d false (if A = .i16x2 ∨ A = .i8x4 then .i32 else if A = .u8x4 then .u32 else .f32)
        (freedBy [a] false) fun n v =>
          v = convertElem A (if A = .i16x2 ∨ A = .i8x4 then .i32 else if A = .u8x4 then .u32 else .f32) .rne (elemAt A (x n) j.toNat)) ∧
    (real → (g.srcB b).tag = .f32 ∨ (g.srcB b).tag = .i32 ∨ (g.srcB b).tag = .u32 →
      D ∈ [Tag.i16x2, .f16x2, .bf16x2, .i8x4, .u8x4, .t8x4, .t6x4] →
      WritesLanes (.pack d a b) s c t g d false D (freedBy [a, b] false) fun n v =>
        let lo := convertElem A D (roundMode g.round) (x n)
        let hi := convertElem (g.srcB b).tag D (roundMode g.round) (y n)
        v = if elemCount D = 2 then hi * 65536 + lo else z n % 65536 * 65536 + hi * 256 + lo) ∧
    (real → scale → D ∈ [Tag.i8x4, .u8x4, .t8x4, .t6x4] →
      WritesLanes (.cvts d a b) s c t g d false D (freedBy [a, b] false) fun n v =>
        v = z n % 2 ^ 24 * 256 + convertTo D (roundMode g.round) (quantised (elemVal A (x n)) (y n % 256) (y n / 256 % 256))) ∧
    (real → scale →
      WritesLanes (.deq d a b) s c t g d false .f32 (freedBy [a, b] false) fun n v =>
        v = dequantised (roundMode g.round) (elemVal A (x n)) (y n % 256) (y n / 256 % 256))

/-! ### Moves, tags, special registers and pools (08 R185 to R190) -/

namespace Sys2Proof.Claims

/-- 08 Table 8-6: word `k` of special register `n` in a lane. -/
def specialWord (s : State) (t : Team) (g : Gang) (n k lane : Nat) : Nat :=
  let w (x : Nat) : Nat := x / 2 ^ (32 * k) % 2 ^ 32
  if n = 0x00 then lane
  else if n = 0x01 then lane / 4
  else if n = 0x02 then g.idx
  else if n = 0x03 then (if k = 0 then t.coords.1 else if k = 1 then t.coords.2.1 else t.coords.2.2)
  else if n = 0x04 then (if k = 0 then t.cluster else t.tic)
  else if n = 0x05 then w t.launch
  else if n = 0x06 then (((s.func t.func).bayList.findIdx (· == t.core / 8)) * 8 + t.core % 8) % 1024
  else if n = 0x07 then w (s.now - (s.core t.core).start)
  else if n = 0x08 then w g.step.toNat
  else if n = 0x09 then w (if t.range then t.cur.toNat else 0)
  else if n = 0x0A then w (if t.range then t.stop.toNat else 0)
  else if n = 0x0B then (t.inherit.getD k 0).toNat
  else if n = 0x0C then (if k = 0 then t.finfo.toNat else t.fdetail.toNat / 2 ^ (32 * (k - 1)) % 2 ^ 32)
  else if n = 0x0D then g.round.toNat
  else if n = 0x0E then t.check.toNat
  else if n = 0x0F then (s.func t.func).vfstatus.toNat
  else if n = 0x10 then (BitVec.ofNat 32 (g.qv + g.qs * 2 ^ 8 + g.hv * 2 ^ 16 + g.hs * 2 ^ 24)).toNat
  else (s.core t.core).poolV % 2 ^ 16 + (s.core t.core).poolS % 2 ^ 16 * 2 ^ 16

/-- Uniform register that an operand marked L frees. -/
def freedS (a : Opnd) : List Nat := if a.last then [a.reg.toNat] else []

end Sys2Proof.Claims

/-- 08 R185 to R187: MOV copies a with its tag, MOVI writes a sign-extended constant tagged I32, MOVHI replaces the upper half, TAGSET and
TAGRD act on the tag, SPRD reads a word of a special register. -/
def Sys2Proof.Claims.VectorMoves : Prop :=
  ∀ (s : State) (c : Cur) (t : Team) (g : Gang) (d : BitVec 6) (dc bc : BitVec 5) (a : Opnd) (m : BitVec 16) (g4 : BitVec 4) (k n : BitVec 8),
    Acts s c t g → Ample s c → Shaped g →
    ((g.srcA a).tag ≠ .poison →
      WritesLanes (.mov d a) s c t g d false (g.srcA a).tag (freedBy [a] false) fun l x => x = (g.srcA a).val l) ∧
    (g.tag (wide bc).toNat ≠ .poison →
      WritesLanes (.movC dc bc) s c t g (wide dc) false (g.tag (wide bc).toNat) [] fun l x => x = (g.srcD (wide bc).toNat).val l) ∧
    WritesLanes (.movi d m) s c t g d false .i32 [] (fun _ x => x = (m.signExtend 32).toNat) ∧
    (g.tag d.toNat ≠ .poison →
      WritesLanes (.movhi d m) s c t g d false (g.tag d.toNat) [] fun l x => x = m.toNat * 65536 + (g.srcD d.toNat).val l % 65536) ∧
    (wellFormed (.tagset d a g4) = true → (g.srcA a).tag ≠ .poison →
      (isPairTag (tagOf g4.toNat) = true → (g.srcA1 a).tag = (g.srcA a).tag) →
      WritesLanes (.tagset d a g4) s c t g d (isPairTag (tagOf g4.toNat)) (tagOf g4.toNat) (freedBy [a] (isPairTag (tagOf g4.toNat)))
        fun l x => x = srcLane (g.opA a) (isPairTag (tagOf g4.toNat)) l) ∧
    WritesLanes (.tagrd d a) s c t g d false .u32 (freedBy [a] false) (fun _ x => x = (g.tag a.reg.toNat).code) ∧
    (wellFormed (.sprd d k n) = true →
      WritesLanes (.sprd d k n) s c t g d false .u32 [] fun l x => x = specialWord s t g n.toNat k.toNat l % 2 ^ 32)

/-- 08 R187: moves between the register files. S2V writes a uniform value to every active lane, V2S reads one lane, SETLANE writes one lane
whatever the active mask. -/
def Sys2Proof.Claims.MovesBetweenFiles : Prop :=
  ∀ (s : State) (c : Cur) (t : Team) (g : Gang) (d : BitVec 6) (a : Opnd) (g4 : BitVec 4) (l : BitVec 5) (p : Bool),
    Acts s c t g → Ample s c → Shaped g →
    (wellFormed (.s2v d a g4) = true →
      WritesLanes (.s2v d a g4) s c t g d (isPairTag (tagOf g4.toNat)) (tagOf g4.toNat) []
        (fun _ x => x = if isPairTag (tagOf g4.toNat) then (g.uniOp a).toNat else (g.uniOp a).toNat % 2 ^ 32) (freedS a)) ∧
    (wellFormed (.v2s d a l p) = true → (g.srcA a).tag ≠ .poison → (p = true → (g.srcA1 a).tag = (g.srcA a).tag) →
      WritesUniform (.v2s d a l p) s c g d.toNat (freedBy [a] p) [] (BitVec.ofNat 64 (srcLane (g.opA a) p l.toNat))) ∧
    (wellFormed (.setlane d a l p) = true → g.tag d.toNat ≠ .poison → (p = true → g.tag (d.toNat + 1) = g.tag d.toNat) →
      ∃ u g', exec (.setlane d a l p) s = .next u ∧ Commits s c g' u ∧ Passed c g g' ∧
        (∀ n, n < 32 → g'.lane d.toNat p n = if n = l.toNat ∧ n < t.lanes then
            (if p then (g.uniOp a).toNat else (g.uniOp a).toNat % 2 ^ 32) else g.lane d.toNat p n) ∧
        g'.tag d.toNat = g.tag d.toNat ∧ (∀ r ∈ freedS a, g'.uni r = 0) ∧
        KeepsGang g g' (if p then [d.toNat, d.toNat + 1] else [d.toNat]) (freedS a) [])

/-- 08 R187: uniform moves and the lane patterns; R190: SPWR sets the rounding mode, or clears the VF status bit by a written 1; R189: FREE
unmaps a register. -/
def Sys2Proof.Claims.UniformMoves : Prop :=
  ∀ (s : State) (c : Cur) (t : Team) (g : Gang) (d : BitVec 6) (a : Opnd) (m : BitVec 16),
    Acts s c t g → Ample s c → Shaped g →
    WritesUniform (.smov d a) s c g d.toNat [] (freedS a) (g.uniOp a) ∧
    WritesUniform (.smovi d m) s c g d.toNat [] [] (m.signExtend 64) ∧
    WritesUniform (.smovRdlpa d) s c g d.toNat [] [] (g.lpa.setWidth 64) ∧
    WritesUniform (.smovRdlpb d) s c g d.toNat [] [] (g.lpb.setWidth 64) ∧
    (patternOk ((g.uniOp a).setWidth 16) = true →
      GangBecomes (.smovLpa a) s c g { g with lpa := (g.uniOp a).setWidth 16 } [] (freedS a) ∧
      GangBecomes (.smovLpb a) s c g { g with lpb := (g.uniOp a).setWidth 16 } [] (freedS a)) ∧
    GangBecomes (.spwr a 0x0D) s c g { g with round := (g.uniOp a).setWidth 2 } [] (freedS a) ∧
    (∃ u g', exec (.spwr a 0x0F) s = .next u ∧ u.gang? c.launch c.team c.gang = some g' ∧ Passed c g g' ∧ KeepsGang g g' [] (freedS a) [] ∧
      (∀ k, u.func k = if k = t.func ∧ (g.uniOp a).getLsbD 0 = true then { s.func k with vfstatus := false } else s.func k) ∧
      SameMemory s u) ∧
    GangBecomes (.free a false) s c g g [a.reg.toNat] [] ∧
    GangBecomes (.free a true) s c g g [] [a.reg.toNat]

/-- 08 R181, R188: REGCLAIM raises the quota of a class, to 64 at most, when the pool has the registers and no claim waits; REGREL lowers it,
never below what the gang holds. Both begin a region. -/
def Sys2Proof.Claims.QuotaChanges : Prop :=
  ∀ (s : State) (c : Cur) (t : Team) (g : Gang) (n : BitVec 7) (uni : Bool),
    Acts s c t g → Shaped g → g.hv ≤ g.qv → g.hs ≤ g.qs → g.qv ≤ 64 → g.qs ≤ 64 →
    ((∀ x ∈ (s.core t.core).claims, x.uni ≠ uni) →
      min n.toNat (64 - (if uni then g.qs else g.qv)) ≤ (if uni then (s.core t.core).poolS else (s.core t.core).poolV) →
      0 < min n.toNat (64 - (if uni then g.qs else g.qv)) →
      GangBegins (.regclaim n uni) s c g g (BitVec.allOnes 64) (BitVec.allOnes 64) [] ∧
      ∀ u g', exec (.regclaim n uni) s = .next u → u.gang? c.launch c.team c.gang = some g' →
        g'.qv = (if uni then g.qv else min 64 (g.qv + n.toNat)) ∧ g'.qs = (if uni then min 64 (g.qs + n.toNat) else g.qs)) ∧
    (GangBegins (.regrel n uni) s c g g (BitVec.allOnes 64) (BitVec.allOnes 64) [] ∧
      ∀ u g', exec (.regrel n uni) s = .next u → u.gang? c.launch c.team c.gang = some g' →
        g'.qv = (if uni then g.qv else max g.hv (g.qv - n.toNat)) ∧ g'.qs = (if uni then max g.hs (g.qs - n.toNat) else g.qs))

/-! ### Lane exchanges (10 R227 to R231) -/

namespace Sys2Proof.Claims

/-- Destination, source, count operand and the source lane of lane `n`. -/
def exchangeForm (g : Gang) : Instr → Option (BitVec 6 × Opnd × List Opnd × (Nat → Nat))
  | .qswapx d a => some (d, a, [], fun n => if n % 2 = 0 then n + 1 else n - 1)
  | .qswapy d a => some (d, a, [], fun n => if n / 2 % 2 = 0 then n + 2 else n - 2)
  | .qswapd d a => some (d, a, [], fun n => n / 4 * 4 + (3 - n % 4))
  | .qbcast d a j => some (d, a, [], fun n => n / 4 * 4 + j.toNat)
  | .shfl d a b => some (d, a, [b], fun n => (g.srcB b).val n)
  | _ => none

end Sys2Proof.Claims

/-- 10 R227 to R229: a lane takes the source's value in another lane, active or not; SHFL reads zero from a lane beyond 31. -/
def Obligations.LaneExchanges : Prop :=
  ∀ (i : Instr) (s : State) (c : Cur) (t : Team) (g : Gang) (d : BitVec 6) (a : Opnd) (bs : List Opnd) (f : Nat → Nat),
    exchangeForm g i = some (d, a, bs, f) → Acts s c t g → Ample s c → Shaped g → Readable (g.opA a) →
    (∀ b ∈ bs, (g.srcB b).tag = .i32 ∨ (g.srcB b).tag = .u32 ∨ (g.srcB b).tag = .none) →
    (isPairTag (g.srcA a).tag = true → d.toNat % 2 = 0) →
    WritesLanes i s c t g d (isPairTag (g.srcA a).tag) (g.srcA a).tag (freedBy [a] (isPairTag (g.srcA a).tag) ++ freedBy bs false)
      fun n x => x = if f n < 32 then srcLane (g.opA a) (isPairTag (g.srcA a).tag) (f n) else 0

/-- 10 R230, R231: VOTE tests a predicate over the active lanes; MATCH gives each lane the active lanes whose value equals its own. -/
def Obligations.VotesAndMatches : Prop :=
  ∀ (s : State) (c : Cur) (t : Team) (g : Gang) (d : BitVec 6) (a : Opnd) (p : BitVec 3) (neg w : Bool) (m : BitVec 8),
    Acts s c t g → Ample s c → Shaped g →
    (wellFormed (.vote d p neg m) = true →
      WritesLanes (.vote d p neg m) s c t g d false .u32 [] fun _ x =>
        let y := (if neg then ~~~ (g.pred p.toNat) else g.pred p.toNat) &&& c.mask
        x = if m = 0 then (if y = c.mask then 1 else 0) else if m = 1 then (if y = 0 then 0 else 1) else if m = 2 then y.toNat
          else if y = c.mask ∨ y = 0 then 1 else 0) ∧
    (wellFormed (.matchLanes d a w) = true → (g.srcA a).tag ≠ .poison → (w = true → (g.srcA1 a).tag = (g.srcA a).tag) →
      WritesLanes (.matchLanes d a w) s c t g d false .u32 (freedBy [a] w) fun n x =>
        ∀ k, k < 32 → x.testBit k = (c.mask.getLsbD k && srcLane (g.opA a) w k == srcLane (g.opA a) w n))

/-! ### The instruction stream and control transfers (02 R18 to R20, R32 to R34; 13 R289 to R299) -/

namespace Sys2Proof.Claims

/-- A team without its gangs. -/
def bare (t : Team) : Team := { t with gangs := [] }

/-- The gang of the bundle becomes `g'`, the rest of its team becomes what `ft` makes of it, and every other gang and team stays. -/
structure Reaches (s u : State) (c : Cur) (g' : Gang) (ft : Team → Team) : Prop where
  gang : u.gang? c.launch c.team c.gang = some g'
  team : (u.team? c.launch c.team).map bare = (s.team? c.launch c.team).map fun x => bare (ft x)
  otherGangs : ∀ l t k, ¬ (l = c.launch ∧ t = c.team ∧ k = c.gang) → u.gang? l t k = s.gang? l t k
  otherTeams : ∀ l t, ¬ (l = c.launch ∧ t = c.team) → u.team? l t = s.team? l t

/-- Everything of the device but its teams, register pools and the count that numbers frontier entries stays. -/
def KeepsMost (s u : State) : Prop := KeepsDevice s { u with fresh := s.fresh }

/-- The lanes of entry `e` stand in ready entries: the active ones at their destinations, the others behind the instruction, each entry with
the priority and age of `e` and only lanes of it, where only a clause header may stand; the other entries stay. -/
def LanesGo (c : Cur) (e : Entry) (g g' : Gang) (dest : Nat → Nat) : Prop :=
  (∀ x ∈ g.frontier, x.eid ≠ c.eid → x ∈ g'.frontier) ∧
  (∀ x ∈ g'.frontier, x ∈ g.frontier ∨ (x.mask &&& ~~~ e.mask = 0 ∧ x.mask ≠ 0)) ∧
  ∀ n, n < 32 → e.mask.getLsbD n = true → ∃ x ∈ g'.frontier, x.mask.getLsbD n = true ∧
    x.pc = (if c.mask.getLsbD n then dest n else (c.pc + c.len) % 2 ^ 55) ∧ x.prio = e.prio ∧ x.age = e.age ∧ x.st = .ready ∧
    x.setA = 16 ∧ x.setB = 16 ∧ x.resume = .none

/-- A branch's target: the instruction's address and twice the signed offset, in 55 bits. -/
def target (c : Cur) (o : BitVec 22) : Nat := (((c.pc : Int) + 2 * o.toInt) % 2 ^ 55).toNat

end Sys2Proof.Claims

open Sys2Proof.Claims

/-- 02 R33, 13 R296: NOP_C, NOP and WAITF on flags that read zero do nothing but go on; WAITF on others stalls its entry at the bundle. -/
def Sys2Proof.Claims.QuietInstructions : Prop :=
  ∀ (s : State) (c : Cur) (t : Team) (g : Gang) (m : BitVec 12), Issues s c t g →
    GangBecomes .nopC s c g g [] [] ∧ GangBecomes .nop s c g g [] [] ∧
    (c.mask ≠ 0 → (∀ k, k < 12 → m.getLsbD k = true → g.flag k = 0) → GangBecomes (.waitf m) s c g g [] []) ∧
    (c.mask ≠ 0 → (∃ k, k < 12 ∧ m.getLsbD k = true ∧ g.flag k ≠ 0) →
      ∃ u g', exec (.waitf m) s = .next u ∧ Commits s c g' u ∧ KeepsGang g g' [] [] [] ∧ g'.frontier = g.frontier.map fun e =>
        if e.eid = c.eid then { e with pc := c.ppc, st := .stalled (.flags m), promoted := none } else e)

/-- 02 R35: with no active lane every instruction but the header, PRED, NOP_C and NOP is ignored; here, the three shapes that the
operations of the model give it. -/
def Sys2Proof.Claims.NoActiveLaneIgnored : Prop :=
  ∀ (s : State) (c : Cur) (t : Team) (g : Gang), Issues s c t g → c.mask = 0 →
    (∀ f : Cur → Team → Gang → State, s.withActive f = .next (s.advance c)) ∧
    (∀ (d : BitVec 6) (a b : Opnd), GangBecomes (.iadd d a b) s c g g [] [] ∧ GangBecomes (.ffma d a b) s c g g [] [] ∧
      GangBecomes (.mov d a) s c g g [] [] ∧ GangBecomes (.brx a) s c g g [] [] ∧ GangBecomes (.trap a 0) s c g g [] []) ∧
    (∀ (d sr : BitVec 6) (w : BitVec 2) (a : Opnd), GangBecomes (.ld d sr w a) s c g g [] [] ∧ GangBecomes (.st d sr w a) s c g g [] [])

/-- 02 R18, R19, 13 R289, R290: at a clause header the ready and stalled entries that stand there join the issuing one, which takes the
header's priority and flag fields; it goes on when every flag that the header waits for reads zero, else it stalls there. -/
def Sys2Proof.Claims.ClauseHeaders : Prop :=
  ∀ (s : State) (c : Cur) (t : Team) (g : Gang) (e : Entry) (w : BitVec 12) (a b : BitVec 4) (p : BitVec 8),
    Issues s c t g → g.entry? c.eid = some e → g.frontier = [e] →
    ∃ u g', exec (.clauseHeader w a b p) s = .next u ∧ Commits s c g' u ∧ KeepsGang g g' [] [] [] ∧
      g'.frontier = [{ e with
        prio := p.toNat
        setA := a.toNat
        setB := b.toNat
        promoted := none
        progress := 0
        since := 0
        resume := if g.flagsZero w then .none else .progress
        st := if g.flagsZero w then .ready else .stalled (.flags w)
        pc := if g.flagsZero w then (c.pc + c.len) % 2 ^ 55 else c.pc }]

/-- 02 R18, 13 R289: entries that meet at a header merge: the lanes of the other leave the frontier as an entry of their own. -/
def Sys2Proof.Claims.HeadersMergeEntries : Prop :=
  ∀ (s : State) (c : Cur) (t : Team) (g : Gang) (e x : Entry) (w : BitVec 12) (a b : BitVec 4) (p : BitVec 8),
    Issues s c t g → e.eid = c.eid → x.eid ≠ c.eid → g.frontier = [e, x] ∨ g.frontier = [x, e] → x.pc = c.pc →
    x.st = .ready ∨ (∃ r, x.st = .stalled r) →
    ∃ u g' y, exec (.clauseHeader w a b p) s = .next u ∧ u.gang? c.launch c.team c.gang = some g' ∧ g'.frontier = [y] ∧
      y.mask = e.mask ||| x.mask ∧ y.age = min e.age x.age ∧ y.prio = p.toNat ∧ y.eid = c.eid

/-- 02 R32, R34: after PRED the bundle goes on at the next halfword, with the active lanes where the predicate holds, or does not. -/
def Sys2Proof.Claims.PredicatesABundle : Prop :=
  ∀ (s s1 : State) (c : Cur) (t : Team) (g : Gang) (p : BitVec 3) (n : Bool) (h : BitVec 16),
    Issues s c t g → s.fetch t.core t.func (((s.launch? c.launch).map (·.stamp)).getD 0) ((c.pc + c.len) % 2 ^ 55) = (.half h, s1) →
    h.toNat % 16 ≠ 15 → isPred h = false →
    exec (.pred p n) s = .next { s1 with cur := some { c with
      pc := (c.pc + c.len) % 2 ^ 55
      mask := c.mask &&& (if n then ~~~ (g.pred p.toNat) else g.pred p.toNat) } }

/-- 13 R294: BRA sends the active lanes to the target; CALL does so and leaves the return address in the pair v62:v63; BRX and RET send each
lane to the address in its pair. Lanes that are not active fall through. -/
def Sys2Proof.Claims.ControlTransfers : Prop :=
  ∀ (s : State) (c : Cur) (t : Team) (g : Gang) (e : Entry) (o : BitVec 22) (a : Opnd),
    Acts s c t g → Ample s c → Shaped g → g.entry? c.eid = some e → c.mask &&& ~~~ e.mask = 0 →
    (∃ u g', exec (.bra o) s = .next u ∧ Reaches s u c g' id ∧ KeepsMost s u ∧ KeepsGang g g' [] [] [] ∧
      LanesGo c e g g' fun _ => target c o) ∧
    (∃ u g', exec (.call o) s = .next u ∧ Reaches s u c g' id ∧ KeepsMost s u ∧ KeepsGang g g' [62, 63] [] [] ∧
      LanesGo c e g g' (fun _ => target c o) ∧ g'.tag 62 = .i64 ∧ g'.tag 63 = .i64 ∧
      ∀ n, n < 32 → g'.lane 62 true n =
        if c.mask.getLsbD n then (BitVec.ofNat 55 (c.pc + c.len)).signExtend 64 |>.toNat else g.lane 62 true n) ∧
    ((g.srcA a).reg % 2 = 0 → (g.srcA a).tag = .i64 ∨ (g.srcA a).tag = .none → (g.srcA1 a).tag = (g.srcA a).tag →
      (∀ n, n < 32 → c.mask.getLsbD n = true → addrOk (BitVec.ofNat 64 (srcLane (g.opA a) true n)) = true ∧
        srcLane (g.opA a) true n % 2 = 0) →
      ∀ i, i = .brx a ∨ i = .ret a →
        ∃ u g', exec i s = .next u ∧ Reaches s u c g' id ∧ KeepsMost s u ∧ KeepsGang g g' (freedBy [a] true) [] [] ∧
          (∀ r ∈ freedBy [a] true, g'.vreg r = none) ∧ LanesGo c e g g' fun n => srcLane (g.opA a) true n % 2 ^ 55)

/-- 13 R296: RECONV waits while an entry with a lower pc is left, and otherwise goes on with the entries that stand there; RECONV_TRY takes
those that wait there and goes on; YIELD goes on and lets the eligible entries of its gang go first. Here for an entry that is alone, and
for two. -/
def Sys2Proof.Claims.Reconvergence : Prop :=
  ∀ (s : State) (c : Cur) (t : Team) (g : Gang) (e x : Entry),
    Acts s c t g → e.eid = c.eid → x.eid ≠ c.eid →
    (g.frontier = [e] → GangBecomes .reconv s c g g [] [] ∧ GangBecomes .reconvTry s c g g [] []) ∧
    (g.frontier = [e, x] → x.pc < c.ppc →
      ∃ u g', exec .reconv s = .next u ∧ Commits s c g' u ∧ KeepsGang g g' [] [] [] ∧
        g'.frontier = [{ e with pc := c.ppc, st := .reconv, promoted := none }, x]) ∧
    (g.frontier = [e, x] → x.pc = c.ppc → x.st = .reconv →
      ∀ i, i = .reconv ∨ i = .reconvTry →
        ∃ u g', exec i s = .next u ∧ Commits s c g' u ∧ KeepsGang g g' [] [] [] ∧
          g'.frontier = [{ e with
            mask := e.mask ||| x.mask
            age := min e.age x.age
            pc := (c.pc + c.len) % 2 ^ 55
            st := .ready
            resume := .none
            progress := 0
            since := 0 }]) ∧
    (g.frontier = [e, x] →
      ∃ u g', exec .yield s = .next u ∧ Commits s c g' u ∧ KeepsGang g g' [] [] [] ∧
        g'.frontier = [{ e with
          yielded := if s.eligible c.launch c.team c.gang g x then [x.eid] else []
          pc := (c.pc + c.len) % 2 ^ 55
          st := .ready
          resume := .none
          progress := 0
          since := 0 }, x])

/-- 13 R296 to R299: STEP counts SR_STEP where no checkpoint is armed; REGION and REGION_ALL begin a region with the live-ins that they name;
RNGNEXT draws the next iteration of the team's interval, all ones when it is used up, and records the draw. -/
def Sys2Proof.Claims.StepsRegionsAndDraws : Prop :=
  ∀ (s : State) (c : Cur) (t : Team) (g : Gang) (d : BitVec 6) (a : Opnd),
    Acts s c t g → Ample s c → Shaped g →
    ((s.func t.func).checkpoint = none → GangBecomes .step s c g { g with step := g.step + 1 } [] []) ∧
    GangBegins .regionAll s c g g (BitVec.allOnes 64) (BitVec.allOnes 64) [] ∧
    GangBegins (.region d a) s c g g (g.uniOp a) (g.uni d.toNat) (freedS a) ∧
    ((s.func t.func).recmode = none → g.replay = [] → g.region.draws.length < 8 →
      let more := t.range && decide (t.cur.toNat < t.stop.toNat)
      ∃ u g', exec (.rngnext d) s = .next u ∧ KeepsDevice s u ∧
        Reaches s u c g' (fun x => if more then { x with cur := x.cur + 1 } else x) ∧ Passed c g g' ∧
        g'.uni d.toNat = (if more then t.cur else BitVec.allOnes 64) ∧
        g'.region.draws = g.region.draws ++ [if more then t.cur else BitVec.allOnes 64] ∧ KeepsGang g g' [] [d.toNat] [])

/-- 13 R299: while a rollback's draws are left, RNGNEXT takes the next of them and leaves the interval alone. -/
def Sys2Proof.Claims.DrawsRepeat : Prop :=
  ∀ (s : State) (c : Cur) (t : Team) (g : Gang) (d : BitVec 6) (v : W64) (rest : List W64),
    Acts s c t g → Ample s c → Shaped g → g.replay = v :: rest →
    ∃ u g', exec (.rngnext d) s = .next u ∧ Commits s c g' u ∧ Passed c g g' ∧ g'.uni d.toNat = v ∧ g'.replay = rest ∧
      KeepsGang { g with replay := rest } g' [] [d.toNat] []

/-! ### Barriers, convergence registers, the baton, exit and traps (13 R300 to R307, 14 R318 to R320) -/

namespace Sys2Proof.Claims

/-- A team of full register files (08 Table 8-1, 13 R300). -/
def FullTeam (t : Team) : Prop := t.bars.length = 16 ∧ t.cv.length = 8

/-- Frees of L on the uniform registers `fs`; nothing else of the gang but its frontier and its region changes, which begins anew. -/
def RegionAfter (c : Cur) (g g' : Gang) (fs : List Nat) : Prop :=
  Passed c g g' ∧ (∀ r ∈ fs, g'.uni r = 0) ∧ KeepsGang { g with replay := [] } g' [] fs [] ∧
    NewRegion g' (g.region.num + 1) (BitVec.allOnes 64) (BitVec.allOnes 64)

/-- An instruction completes, moves on in a new region and changes its team by `ft`. -/
def TeamBegins (i : Instr) (s : State) (c : Cur) (g : Gang) (fs : List Nat) (ft : Team → Team) : Prop :=
  ∃ u g', exec i s = .next u ∧ KeepsDevice s u ∧ Reaches s u c g' ft ∧ RegionAfter c g g' fs

/-- The barrier `b` after an arrival of gang `k` (13 R300): with M arrivals and no bytes remaining the phase completes. -/
def arrived (b : Bar) (k : Nat) : Bar :=
  let a := b.arrived ||| 1#32 <<< k
  if b.m ≤ maskCount a ∧ b.b = 0 then
    { b with arrived := 0, b := b.e, counted := false, phase := b.phase + 1, m := b.m - b.lower, lower := 0 }
  else { b with arrived := a }

end Sys2Proof.Claims

/-- 13 R300, R302: BARINIT sets a barrier up, BAREXP adds bytes, both in a new region. -/
def Sys2Proof.Claims.BarrierSetup : Prop :=
  ∀ (s : State) (c : Cur) (t : Team) (g : Gang) (d : BitVec 6) (a : Opnd) (b : Bar),
    Acts s c t g → FullTeam t → t.bars[d.toNat]? = some b →
    (wellFormed (.barinit d a) = true → b.set = false → 0 < (g.uniOp a).toNat % 2 ^ 6 → (g.uniOp a).toNat % 2 ^ 6 ≤ t.gangs.length →
      let m := (g.uniOp a).toNat % 2 ^ 6
      let e := (g.uniOp a).toNat / 2 ^ 24 % 2 ^ 40
      TeamBegins (.barinit d a) s c g (freedS a) fun x => { x with bars := x.bars.set d.toNat ⟨true, m, e, 0, e, false, 0, 0⟩ }) ∧
    (wellFormed (.barexp d a) = true → b.set = true →
      TeamBegins (.barexp d a) s c g (freedS a) fun x =>
        { x with bars := x.bars.set d.toNat { b with b := b.b + (g.uniOp a).toNat % 2 ^ 40 } })

/-- 13 R300, R302: BARARV counts the gang in the current phase and goes on; BARWAIT goes on when the phase of its last arrival is complete and
else waits for it; BARSYNC does both. The barrier is set up, its gang has not arrived in this phase and has no earlier store queued. -/
def Sys2Proof.Claims.BarrierPhases : Prop :=
  ∀ (s : State) (c : Cur) (t : Team) (g : Gang) (e : Entry) (d : BitVec 6) (b : Bar),
    Acts s c t g → FullTeam t → Shaped g → t.bars[d.toNat]? = some b → b.set = true → 0 < b.m → g.entry? c.eid = some e →
    e.resume = .none → d.toNat < 16 →
    ((g.stq.any fun x => decide (x.seq < c.seq)) = false → b.arrived.getLsbD c.gang = false →
      TeamBegins (.bararv d) s c { g with barPhase := g.barPhase.set d.toNat (some b.phase) } []
        (fun x => { x with bars := x.bars.set d.toNat (arrived b c.gang) }) ∧
      ((arrived b c.gang).phase = b.phase + 1 →
        TeamBegins (.barsync d) s c { g with barPhase := g.barPhase.set d.toNat (some b.phase) } []
          (fun x => { x with bars := x.bars.set d.toNat (arrived b c.gang) })) ∧
      ((arrived b c.gang).phase = b.phase →
        ∃ u g' e', exec (.barsync d) s = .next u ∧ KeepsDevice s u ∧
          Reaches s u c g' (fun x => { x with bars := x.bars.set d.toNat (arrived b c.gang) }) ∧
          g'.entry? c.eid = some e' ∧ e'.st = .barrier d.toNat b.phase ∧ e'.pc = c.ppc ∧ e'.mask = e.mask)) ∧
    (∀ ph, (g.barPhase[d.toNat]?).join = some ph →
      (ph < b.phase → TeamBegins (.barwait d) s c g [] id) ∧
      (b.phase ≤ ph → ∃ u g' e', exec (.barwait d) s = .next u ∧ KeepsDevice s u ∧ Reaches s u c g' id ∧
        g'.entry? c.eid = some e' ∧ e'.st = .barrier d.toNat ph ∧ e'.pc = c.ppc ∧ e'.mask = e.mask)) ∧
    ((g.barPhase[d.toNat]?).join = none → TeamBegins (.barwait d) s c g [] id)

/-- 13 R302: every barrier instruction but BARINIT faults ILL_ENC on its active lanes when the barrier is not set up. -/
def Sys2Proof.Claims.BarrierNotSetUp : Prop :=
  ∀ (i : Instr) (s : State) (c : Cur) (t : Team) (g : Gang) (d : BitVec 6) (a : Opnd),
    Acts s c t g → (t.bar d.toNat).set = false → (∀ e, g.entry? c.eid = some e → e.resume = .none) →
    i = .bararv d ∨ i = .barwait d ∨ i = .barsync d ∨ i = .barexp d a →
    exec i s = .next (s.raiseAll c ⟨.illEnc, 0⟩)

/-- 13 R304: CVSET declares how many signatures a convergence register awaits; 11 R240: CVSIGN gives the gang's own, which here is not the
last. 13 R305: BATONACQ takes a baton that is free and asked for by no one, BATONREL gives back the one that is held. -/
def Obligations.CountsAndBaton : Prop :=
  ∀ (s : State) (c : Cur) (t : Team) (g : Gang) (d : BitVec 6) (n : BitVec 8) (v : Conv) (byTeam : Bool),
    Acts s c t g → FullTeam t → t.cv[d.toNat]? = some v →
    (wellFormed (.cvset d n) = true → v.signers = [] →
      ∃ u g', exec (.cvset d n) s = .next u ∧ KeepsDevice s u ∧ Passed c g g' ∧ KeepsGang g g' [] [] [] ∧
        Reaches s u c g' fun x => { x with cv := x.cv.set d.toNat { v with declared := n.toNat } }) ∧
    (wellFormed (.cvsign d) = true → v.signers.length + 1 < v.declared →
      TeamBegins (.cvsign d) s c g [] fun x =>
        { x with cv := x.cv.set d.toNat { v with signers := v.signers ++ [⟨c.gang, 15, false, 0, c.pc⟩] } }) ∧
    (wellFormed (.cvsign d) = true → v.declared = 0 → TeamBegins (.cvsign d) s c g [] id) ∧
    ((s.core t.core).baton = .free → (s.core t.core).batonQ = [] →
      ∃ u g', exec (.batonacq byTeam) s = .next u ∧ Reaches s u c g' id ∧ Passed c g g' ∧ KeepsGang g g' [] [] [] ∧
        { u with teams := s.teams, cores := s.cores } = s ∧
        ∀ k, u.core k = if k = t.core then
          { s.core k with baton := if byTeam then .team c.launch c.team else .gang c.launch c.team c.gang } else s.core k) ∧
    ((s.core t.core).baton = (if byTeam then .team c.launch c.team else .gang c.launch c.team c.gang) →
      ∃ u g', exec (.batonrel byTeam) s = .next u ∧ Reaches s u c g' id ∧ Passed c g g' ∧ KeepsGang g g' [] [] [] ∧
        { u with teams := s.teams, cores := s.cores } = s ∧
        ∀ k, u.core k = if k = t.core then { s.core k with baton := .free } else s.core k)

/-- 13 R306, R307, R303: EXIT ends the active lanes and its region; while other lanes of the gang are left, they go on; with the last of them
the gang ends, every barrier of its team that is set up counts one gang less or will from its next phase, and its baton comes free, as the
team's does with its last gang; and the address of a successor list stays with the team. An ending EXIT with another list than the team
has faults, and its gang does not end (log 18). -/
def Obligations.ExitEndsLanes : Prop :=
  ∀ (s : State) (c : Cur) (t : Team) (g : Gang) (a : Opnd) (n : BitVec 8),
    Acts s c t g → g.ended = false → g.ops = [] →
    (g.live &&& ~~~ c.mask ≠ 0 →
      ∃ u g', exec (.exit a n) s = .next u ∧ Reaches s u c g' id ∧ KeepsDevice s u ∧ g'.exited = g.exited ||| c.mask ∧
        g'.live = g.live &&& ~~~ c.mask ∧ KeepsGang { g with exited := g.exited ||| c.mask, replay := [] } g' [] [] [] ∧
        g'.region.num = g.region.num + 1) ∧
    (g.live &&& ~~~ c.mask = 0 → s.gangBusy c.launch c.team c.gang = false → (n = 0 ∨ ((g.uniOp a).toNat % 64 = 0 ∧ t.sn = 0 ∧ t.faulted = false)) →
      ∃ u g' t', exec (.exit a n) s = .next u ∧ u.team? c.launch c.team = some t' ∧ t'.gangs[c.gang]? = some g' ∧
        g'.frontier = [] ∧ g'.ended = true ∧ g'.exited = g.exited ||| c.mask ∧
        t'.sn = (if n = 0 then t.sn else n.toNat) ∧ t'.slist = (if n = 0 then t.slist else (g.uniOp a).toNat) ∧
        t'.bars = t.bars.map (Bar.gangEnds c.gang) ∧
        t'.st = (if (t'.gangs.all (·.ended)) = true ∧ t.st = .running then .ending else t.st) ∧
        (u.core t.core).baton = if (s.core t.core).baton = .gang c.launch c.team c.gang ∨
          ((s.core t.core).baton = .team c.launch c.team ∧ t'.gangs.all (·.ended) = true ∧ t.st = .running) then .free
          else (s.core t.core).baton) ∧
    (g.live &&& ~~~ c.mask = 0 → s.gangBusy c.launch c.team c.gang = false → n ≠ 0 → (g.uniOp a).toNat % 64 = 0 → t.sn ≠ 0 →
      (t.slist ≠ (g.uniOp a).toNat ∨ t.sn ≠ n.toNat) →
      ∃ u g' r, exec (.exit a n) s = .next u ∧ Reaches s u c g' (fun x => { x with faulted := true }) ∧ g'.ended = false ∧
        g'.live = g.live ∧ g'.exited = g.exited ∧ (u.func t.func).pend = (s.func t.func).pend ++ [r] ∧ r.code = .illEnc ∧ r.lanes = c.mask)

/-- 14 R318, R319: TRAP and BKPT write the team's fault information, stop the team, post their record, begin a region and stall behind
themselves until a resume command. -/
def Sys2Proof.Claims.TrapsStopTheTeam : Prop :=
  ∀ (s : State) (c : Cur) (t : Team) (g : Gang) (e : Entry) (a : Opnd) (imm : BitVec 8),
    Acts s c t g → g.entry? c.eid = some e →
    ∀ (i : Instr) (code : FaultCode) (byte : Nat) (v : W64) (fs : List Nat),
      (i = .trap a imm ∧ code = .trap ∧ byte = 0x11 ∧ v = g.uniOp a ∧ fs = freedS a) ∨
        (i = .bkpt imm ∧ code = .bkpt ∧ byte = 0x10 ∧ v = imm.setWidth 64 ∧ fs = []) →
      ∃ u g' r e', exec i s = .next u ∧
        Reaches s u c g' (fun x => { x with finfo := BitVec.ofNat 32 byte, fdetail := v, stopped := true }) ∧
        KeepsDevice s { u with funcs := s.funcs } ∧
        (∀ k, u.func k = if k = t.func then { s.func k with pend := (s.func k).pend ++ [r] } else s.func k) ∧
        r.ring = 1 ∧ r.code = code ∧ r.func = t.func ∧ r.launch = c.launch ∧ r.team = c.team ∧ r.gang = c.gang ∧ r.unit = 255 ∧
        r.lanes = c.mask ∧ r.word = c.word ∧ r.pc = c.pc ∧ r.detail = v ∧ r.extra = imm.setWidth 64 ∧
        g'.entry? c.eid = some e' ∧ e'.st = .stalled .resume ∧ e'.pc = (c.pc + c.len) % 2 ^ 55 ∧ e'.mask = e.mask ∧
        (∀ x ∈ fs, g'.uni x = 0) ∧ KeepsGang { g with replay := [] } g' [] fs [] ∧ g'.region.num = g.region.num + 1

/-- 14 R320: SVC posts a request to the handler queue, numbered by its running count, and stalls at itself; once the handler has answered,
it writes the answer to d and goes on in a new region. -/
def Sys2Proof.Claims.ServiceCalls : Prop :=
  ∀ (s : State) (c : Cur) (t : Team) (g : Gang) (e : Entry) (d : BitVec 6) (a : Opnd) (imm : BitVec 8),
    Acts s c t g → Ample s c → Shaped g → g.entry? c.eid = some e →
    (e.resume = .none → (s.func t.func).ringRoom 2 = true →
      ∃ u g' r seq e', exec (.svc d a imm) s = .next u ∧ Reaches s u c g' (fun x => { x with didSvc := true }) ∧
        KeepsDevice s { u with funcs := s.funcs } ∧ (u.func t.func).pend = (s.func t.func).pend ++ [r] ∧
        r.ring = 2 ∧ r.code = .svc ∧ r.func = t.func ∧ r.launch = c.launch ∧ r.team = c.team ∧ r.gang = c.gang ∧
        r.lanes = c.mask ∧ r.word = c.word ∧ r.pc = c.pc ∧ r.detail = g.uniOp a ∧ r.extra = imm.setWidth 64 ∧ r.seqOf = some seq ∧
        g'.entry? c.eid = some e' ∧ e'.st = .stalled (.svc seq) ∧ e'.pc = c.ppc ∧ e'.mask = e.mask ∧ e'.resume = .op seq ∧
        (∀ x ∈ freedS a, g'.uni x = 0) ∧ KeepsGang { g with replay := [] } g' [] (freedS a) [] ∧
        g'.region.num = g.region.num + 1) ∧
    (∀ seq v, e.resume = .op seq → (s.func t.func).svcGot.find? (fun x => x.1 == seq) = some (seq, v) →
      ∃ u g', exec (.svc d a imm) s = .next u ∧ Reaches s u c g' id ∧ KeepsDevice s { u with funcs := s.funcs } ∧ Passed c g g' ∧
        g'.uni d.toNat = v ∧ KeepsGang { g with replay := [] } g' [] [d.toNat] [] ∧ g'.region.num = g.region.num + 1 ∧
        (u.func t.func).svcGot.find? (fun x => x.1 == seq) = none)

/-! ### Global loads, stores and atomics (chapter 04), fences (12 R276, R277, 03 R74) -/

namespace Sys2Proof.Claims

/-- A first issue that may begin: nothing is being resumed, no LDACQ is in flight, identifiers in use are below the next fresh one, and
the active lanes are the entry's. -/
structure Begins (s : State) (c : Cur) (g : Gang) (e : Entry) : Prop where
  entry : g.entry? c.eid = some e
  first : e.resume = .none
  free : g.acquiring c.seq = false
  ids : ∀ o ∈ g.ops, o.id < s.fresh
  lanes : c.mask &&& ~~~ e.mask = 0

/-- The entry has moved past its instruction, whatever else has been numbered, and all else of the gang but its queue, its operations and its
flags stays. -/
structure Issued (s u : State) (c : Cur) (g g' : Gang) (freedV freedU : List Nat) : Prop where
  reaches : Reaches s u c g' id
  most : KeepsMost s u
  passed : Passed c g g'
  frame : KeepsGang { g with ops := g'.ops, flags := g'.flags, stq := g'.stq } g' freedV freedU []

/-- The address of lane `i`: the base and the lane's offset, sign-extended under I32 (04 R90). -/
def addressOf (g : Gang) (sr : BitVec 6) (a : Opnd) (i : Nat) : Nat :=
  (((g.uni sr.toNat).toNat : Int) + (if (g.srcA a).tag = .i32 then (BitVec.ofNat 32 ((g.srcA a).val i)).toInt else ((g.srcA a).val i : Int)))
    % (2 ^ 64 : Nat) |>.toNat

/-- The bytes at `a` lie in the core's cache, for whoever `me` is, and the access passes its checks. -/
structure Hit (s : State) (core func : Nat) (me : Nat × Nat) (u : Use) (va n : Nat) (t : Trans) (a : Nat) : Prop where
  passes : s.verdict core func u va n = .ok t
  target : t.tgt = .mem a
  cacheable : t.ty ≠ .seq
  held : (s.core core).holds a n = true
  own : s.yieldSector core a (some me) = s

/-- The tags of a vector offset. -/
def OffsetTag (t : Tag) : Prop := t = .i32 ∨ t = .u32 ∨ t = .none

/-- Elements of an operation that began as `c` issues: lane, address and store data as given, `f` of the rest. -/
def elems (c : Cur) (lanes : List Nat) (va : Nat → Nat) (src : Nat → BitVec 128) (f : Elem → Elem) : List Elem :=
  lanes.map fun i => f ⟨i, c.seq, va i, .todo, none, src i, 0, 0, false⟩

end Sys2Proof.Claims

/-- 04 R90 to R94, R101: a load whose lanes pass their checks and find their bytes in the core's cache becomes an operation in flight with
those bytes, counts its flag of setA up and lets its entry go on; the scalar load does so once. Memory reads as before. No other load of the
core waits to start, and no older one of these lanes is still to be performed. -/
def Sys2Proof.Claims.LoadsFromTheCache : Prop :=
  ∀ (s : State) (c : Cur) (t : Team) (g : Gang) (e : Entry) (d sr : BitVec 6) (w : BitVec 2) (a : Opnd) (tr : Nat → Trans) (ad : Nat → Nat),
    Acts s c t g → Begins s c g e → g.stq = [] → e.setA < 12 → g.flag e.setA < 63 → g.flags.length = 12 → s.loadsWaiting t.core = [] →
    g.olderOpen c.seq c.mask = false →
    (∀ (i : Instr) (k : OpKind), (i = .ld d sr w a ∧ k = .ld w) ∨ (i = .ldacq d sr w a ∧ k = .ldacq w) → OffsetTag (g.srcA a).tag →
      (∀ n, n < 32 → c.mask.getLsbD n = true →
        Hit s t.core t.func (c.launch, c.team) k.use (addressOf g sr a n) k.size (tr n) (ad n)) →
      ∃ u g', exec i s = .next u ∧ Issued s u c g g' (freedBy [a] false) [] ∧ g'.stq = [] ∧
        g'.flags = g.flags.set e.setA (g.flag e.setA + 1) ∧
        g'.ops = g.ops ++ [⟨s.fresh, c.seq, k, c.pc, c.ppc, c.word, e.setA, d.toNat, g.region.num, e.prio, e.setA, e.setB, 0, .none,
          elems c (lanesOf c.mask) (addressOf g sr a) (fun _ => 0) fun x =>
            { x with
              st := .done
              trans := some (tr x.lane)
              data := packBytes ((s.core t.core).cacheRead (ad x.lane) k.size)
              poison := (s.core t.core).cachePoison (ad x.lane) }⟩]) ∧
    (Hit s t.core t.func (c.launch, c.team) .load ((g.uni sr.toNat) + g.uniOp a).toNat (widthBytes w.toNat) (tr 0) (ad 0) →
      ∃ u g', exec (.sld d sr w a) s = .next u ∧ Issued s u c g g' [] (freedS a) ∧ g'.stq = [] ∧
        g'.flags = g.flags.set e.setA (g.flag e.setA + 1) ∧
        g'.ops = g.ops ++ [⟨s.fresh, c.seq, .sld w, c.pc, c.ppc, c.word, e.setA, d.toNat, g.region.num, e.prio, e.setA, e.setB, c.mask, .none,
          elems c [firstLane c.mask] (fun _ => ((g.uni sr.toNat) + g.uniOp a).toNat) (fun _ => 0) fun x =>
            { x with
              st := .done
              trans := some (tr 0)
              data := packBytes ((s.core t.core).cacheRead (ad 0) (widthBytes w.toNat))
              poison := (s.core t.core).cachePoison (ad 0) }⟩])

/-- 04 R91, 02 R22: an operation whose elements are all done completes: a load writes the bytes to its lanes of d, tagged by the page, and its
flag counts down. Here LD and SLD of a gang still in the region that issued them, with registers to spare. -/
def Sys2Proof.Claims.LoadsComplete : Prop :=
  ∀ (s : State) (l tn k id : Nat) (g : Gang) (o : MemOp) (w : BitVec 2) (etag : Nat),
    s.gang? l tn k = some g → Shaped g → g.op? id = some o → o.region = g.region.num → o.elems ≠ [] → g.ended = false → g.frontier ≠ [] →
    (s.core (s.coreOf l tn)).claims = [] → 256 ≤ (s.core (s.coreOf l tn)).poolV → 256 ≤ (s.core (s.coreOf l tn)).poolS →
    o.d + 3 < 64 → (o.elems.map (·.lane)).Nodup → (∀ x ∈ o.elems, x.lane < 32 ∧ x.st = .done ∧ x.poison = false ∧ x.trans.map (·.etag) = some etag) →
    (o.kind = .ld w →
      ∃ u g', exec (.memoryReturnComplete l tn k id) s = .next u ∧ u.gang? l tn k = some g' ∧ g'.op? id = none ∧
        g'.flag o.flag = g.flag o.flag - 1 ∧ SameMemory s u ∧
        (∀ j, j < widthRegs w.toNat → g'.tag (o.d + j) = loadTag w.toNat etag ∧ ∀ n, n < 32 →
          (g'.srcD (o.d + j)).val n = match o.elems.find? (fun x => x.lane == n) with
            | some x => if w = 3 then x.data.toNat % 2 ^ 16 else x.data.toNat / 2 ^ (32 * j) % 2 ^ 32
            | none => (g.srcD (o.d + j)).val n) ∧
        KeepsGang { g with ops := g'.ops, flags := g'.flags } g' ((rangeFrom 0 (widthRegs w.toNat)).map (o.d + ·)) [] [] ∧
        g'.frontier = g.frontier) ∧
    (o.kind = .sld w → ∀ x, o.elems = [x] →
      ∃ u g', exec (.memoryReturnComplete l tn k id) s = .next u ∧ u.gang? l tn k = some g' ∧ g'.op? id = none ∧
        g'.flag o.flag = g.flag o.flag - 1 ∧ SameMemory s u ∧ g'.uni o.d = x.data.setWidth 64 ∧
        (w = 2 → g'.uni (o.d + 1) = (x.data >>> 64).setWidth 64) ∧
        KeepsGang { g with ops := g'.ops, flags := g'.flags } g' [] (if w = 2 then [o.d, o.d + 1] else [o.d]) [] ∧
        g'.frontier = g.frontier)

/-- 04 R81, R93, R98, 05 R122 to R124: a store whose lanes pass their checks joins the end of its gang's queue with its data, and its entry goes
on; ATOMR, RSTREL and RSTARV begin a region. Memory reads as before. -/
def Sys2Proof.Claims.StoresJoinTheQueue : Prop :=
  ∀ (s : State) (c : Cur) (t : Team) (g : Gang) (e : Entry) (d sr : BitVec 6) (w : BitVec 2) (o3 sc : BitVec 3) (a : Opnd) (tr : Nat → Trans),
    Acts s c t g → Begins s c g e → g.stq.length < Config.stqSize → (∀ n, (tr n).ty ≠ .seq) →
    (∀ (i : Instr) (k : StKind) (new : Bool),
      (i = .st d sr w a ∧ k = .st (widthBytes w.toNat) ∧ new = false) ∨ (i = .strel d sr w a ∧ k = .strel w ∧ new = false) ∨
        (i = .rstrel d sr w a ∧ k = .rstrel (widthBytes w.toNat) ∧ new = true) ∨
        (i = .rstarv d sr w a ∧ k = .rstarv (widthBytes w.toNat) ∧ new = true) →
      OffsetTag (g.srcA a).tag → (∀ j, j < 4 → g.tag (d.toNat + j) ≠ .poison) → (new = false → ∀ n, (tr n).tgt.isPeer = false) →
      (∀ n, n < 32 → c.mask.getLsbD n = true → s.verdict t.core t.func k.use (addressOf g sr a n) k.size = .ok (tr n)) →
      ∃ u g', exec i s = .next u ∧ Issued s u c (if new then { g with replay := [] } else g) g' (freedBy [a] false) [] ∧ g'.ops = g.ops ∧
        g'.flags = g.flags ∧ g'.region.num = g.region.num + new.toNat ∧
        g'.stq = g.stq ++ [⟨s.fresh + 1, c.seq, k, c.pc, c.word, .none, none, false, false,
          elems c (lanesOf c.mask) (addressOf g sr a) (fun n => g.storeData d.toNat (match k with | .strel _ => 0 | _ => w.toNat) n) fun x =>
            { x with st := .pending, trans := some (tr x.lane) }⟩]) ∧
    (s.verdict t.core t.func .store ((g.uni sr.toNat) + g.uniOp a).toNat (widthBytes w.toNat) = .ok (tr 0) → (tr 0).tgt.isPeer = false →
      ∃ u g', exec (.sst d sr w a) s = .next u ∧ Issued s u c g g' [] (freedS a) ∧ g'.ops = g.ops ∧ g'.flags = g.flags ∧
        g'.stq = g.stq ++ [⟨s.fresh + 1, c.seq, .st (widthBytes w.toNat), c.pc, c.word, .none, none, false, false,
          elems c [firstLane c.mask] (fun _ => ((g.uni sr.toNat) + g.uniOp a).toNat)
            (fun _ => if w = 2 then g.uni (d.toNat + 1) ++ g.uni d.toNat else (g.uni d.toNat).setWidth 128) fun x =>
            { x with st := .pending, trans := some (tr 0) }⟩]) ∧
    (∀ wide : Bool, w = (if wide then 1 else 0) → a.reg.toNat % 2 = 0 → (g.srcA a).tag = .i64 ∨ (g.srcA a).tag = .none →
      (g.srcA1 a).tag = (g.srcA a).tag → (g.tag d.toNat ∈ if wide then [Tag.i64, .none] else [Tag.i32, .u32, .none]) →
      (wide = true → g.tag (d.toNat + 1) = g.tag d.toNat) →
      (∀ n, n < 32 → c.mask.getLsbD n = true →
        s.verdict t.core t.func (.atomic sc.toNat) (srcLane (g.opA a) true n) (if wide then 8 else 4) = .ok (tr n)) →
      ∃ u g', exec (.atomr d a o3 sc w) s = .next u ∧ Issued s u c { g with replay := [] } g' (freedBy [a] true) [] ∧ g'.ops = g.ops ∧
        g'.flags = g.flags ∧ g'.region.num = g.region.num + 1 ∧
        g'.stq = g.stq ++ [⟨s.fresh + 1, c.seq, .atomr o3 sc wide, c.pc, c.word, g.tag d.toNat, none, false, false,
          elems c (lanesOf c.mask) (srcLane (g.opA a) true) (fun n => BitVec.ofNat 128 (g.lane d.toNat wide n)) fun x =>
            { x with st := .pending, trans := some (tr x.lane) }⟩])

namespace Sys2Proof.Claims

/-- The new value of a word (04 Table 4-10): an integer operation `op` on the word `old` with data `x`, in `bits` bits. -/
def atomResult (op : Nat) (signed : Bool) (bits old x : Nat) : Nat :=
  let a := if signed then (BitVec.ofNat bits old).toInt else (old : Int)
  let b := if signed then (BitVec.ofNat bits x).toInt else (x : Int)
  match op with
  | 0 => (old + x) % 2 ^ bits
  | 1 => if b < a then x else old
  | 2 => if a < b then x else old
  | 3 => old &&& x
  | 4 => old ||| x
  | 5 => old ^^^ x
  | 6 => x
  | _ => if x ≤ old then 0 else old + 1

/-- The bytes from `a` upward hold `v`, and every other byte of memory reads as before. -/
def Stored (s u : State) (a n v : Nat) : Prop :=
  ∀ x, u.homeGet x = if a ≤ x ∧ x < a + n then BitVec.ofNat 8 (v / 2 ^ (8 * (x - a))) else s.homeGet x

end Sys2Proof.Claims

/-- 04 R95, R96, R98, Table 4-8, Table 4-10: ATOM and CAS of one lane at a scope beyond the core are performed at the home: the word takes the
new value, the operation in flight holds the old one, the team has committed and a region begins. -/
def Obligations.AtomicsAtTheHome : Prop :=
  ∀ (s : State) (c : Cur) (t : Team) (g : Gang) (e : Entry) (d : BitVec 6) (a : Opnd) (o3 sc : BitVec 3) (wide : Bool) (n ad : Nat) (tr : Trans),
    Acts s c t g → Begins s c g e → g.stq = [] → g.ops = [] → e.setA < 12 → g.flag e.setA < 63 → g.flags.length = 12 →
    n < 32 → c.mask = 1#32 <<< n → 2 ≤ sc.toNat → sc.toNat ≤ 4 → (s.func t.func).recmode = none →
    a.reg.toNat % 2 = 0 → (g.srcA a).tag = .i64 ∨ (g.srcA a).tag = .none → (g.srcA1 a).tag = (g.srcA a).tag →
    Roomy s → s.verdict t.core t.func (.atomic sc.toNat) (srcLane (g.opA a) true n) (if wide then 8 else 4) = .ok tr → tr.tgt = .mem ad →
    tr.ty = .rel → ad % 8 = 0 → findLine (s.core t.core).cache (ad / 128) = none → s.homePoison (ad / 32) = false →
    (∀ f ∈ s.flips, f.1 ≠ ad / 32) →
    let size := if wide then 8 else 4
    let old := leNat (s.homeRead ad size)
    (g.tag d.toNat ∈ (if wide then [Tag.i64, .none] else [Tag.i32, .u32, .none]) → (wide = true → g.tag (d.toNat + 1) = g.tag d.toNat) →
      ∃ u g' o x, exec (.atom d a o3 sc (if wide then 1 else 0)) s = .next u ∧ u.gang? c.launch c.team c.gang = some g' ∧ Passed c g g' ∧
        g'.ops = [o] ∧ o.kind = .atom o3 sc wide ∧ o.flag = e.setA ∧ o.d = d.toNat ∧ o.elems = [x] ∧ x.lane = n ∧ x.st = .done ∧
        x.data.toNat = old ∧ g'.flag e.setA = g.flag e.setA + 1 ∧ g'.region.num = g.region.num + 1 ∧
        (u.team? c.launch c.team).map (·.committed) = some true ∧
        Stored s u ad size (atomResult o3.toNat (g.tag d.toNat == .i32 || g.tag d.toNat == .i64) (8 * size) old (g.lane d.toNat wide n)) ∧
        KeepsGang { g with ops := g'.ops, flags := g'.flags, replay := [] } g' (freedBy [a] true) [] []) ∧
    ((∀ j, j < 4 → g.tag (d.toNat + j) = g.tag d.toNat) → g.tag d.toNat ≠ .poison →
      ∃ u g' o x, exec (.cas d a sc (if wide then 1 else 0)) s = .next u ∧ u.gang? c.launch c.team c.gang = some g' ∧ Passed c g g' ∧
        g'.ops = [o] ∧ o.kind = .cas sc wide ∧ o.flag = e.setA ∧ o.d = d.toNat ∧ o.elems = [x] ∧ x.lane = n ∧ x.st = .done ∧
        x.data.toNat = old ∧ g'.flag e.setA = g.flag e.setA + 1 ∧ g'.region.num = g.region.num + 1 ∧
        Stored s u ad size (if old = g.lane d.toNat wide n then g.lane (d.toNat + (if wide then 2 else 1)) wide n else old) ∧
        KeepsGang { g with ops := g'.ops, flags := g'.flags, replay := [] } g' (freedBy [a] true) [] [])

/-- 04 R99, R100: PREF changes no byte of memory and no register but a last use; CFLUSH and CINV of one lane write the line's dirty bytes back
to their home, where they then read as in the core, and leave the line clean or gone. -/
def Sys2Proof.Claims.CacheMaintenance : Prop :=
  ∀ (s : State) (c : Cur) (t : Team) (g : Gang) (e : Entry) (h : Bool) (sr : BitVec 6) (a : Opnd) (n ad : Nat) (tr : Trans) (ln : Line),
    Acts s c t g → Begins s c g e → OffsetTag (g.srcA a).tag →
    (∃ u g', exec (.pref h sr a) s = .next u ∧ u.gang? c.launch c.team c.gang = some g' ∧ Passed c g g' ∧ SameMemory s u ∧
      KeepsGang g g' (freedBy [a] false) [] []) ∧
    (g.ops = [] → n < 32 → c.mask = 1#32 <<< n → s.verdict t.core t.func .maint (addressOf g sr a n) 1 = .ok tr → tr.tgt = .mem ad →
      tr.ty ≠ .seq → findLine (s.core t.core).cache (ad / 128) = some ln → ln.addr = ad / 128 → Roomy s →
      (∀ f ∈ s.flips, f.1 / 4 ≠ ad / 128) →
      ∀ (i : Instr) (inv : Bool), (i = .cflush sr a ∧ inv = false) ∨ (i = .cinv sr a ∧ inv = true) →
        ∃ u g', exec i s = .next u ∧ u.gang? c.launch c.team c.gang = some g' ∧ Passed c g g' ∧ g'.ops = [] ∧
          KeepsGang g g' (freedBy [a] false) [] [] ∧
          (findLine (u.core t.core).cache (ad / 128)).map (·.dirty) = (if inv then none else some 0) ∧
          ∀ x, u.homeGet x = if x / 128 = ad / 128 ∧ ln.dirty.getLsbD (x % 128) = true then ln.byte (x % 128) else s.homeGet x)

/-- 12 R276, R277: a fence of a gang with nothing earlier in flight goes on: one of a scope beyond the core that releases commits its team, one
that acquires drops the clean copies of other homes' lines from its core, and memory reads as before. A release with lines in the
dirty-line FIFO waits for its marker. -/
def Sys2Proof.Claims.Fences : Prop :=
  ∀ (s : State) (c : Cur) (t : Team) (g : Gang) (e : Entry) (sc : BitVec 3) (k : BitVec 2),
    Acts s c t g → g.entry? c.eid = some e → e.progress = 0 → g.ops = [] → g.stq = [] → wellFormed (.fence sc k) = true → sc.toNat ≤ 4 →
    s.fabricOpen c.launch c.team c.gang = false → (s.core t.core).markers.length < Config.markerMax →
    ((s.core t.core).fifo = [] →
      ∃ u g', exec (.fence sc k) s = .next u ∧ u.gang? c.launch c.team c.gang = some g' ∧ Passed c g g' ∧ KeepsGang g g' [] [] [] ∧
        SameMemory s u ∧ (u.team? c.launch c.team).map (·.committed) = some (t.committed || (k ≠ 1 && 2 ≤ sc.toNat)) ∧
        (u.core t.core).cache = if k ≠ 2 ∧ 2 ≤ sc.toNat then ((s.acquire t.core).core t.core).cache else (s.core t.core).cache) ∧
    ((s.core t.core).fifo ≠ [] → k ≠ 1 → 2 ≤ sc.toNat →
      ∃ u g' e' m, exec (.fence sc k) s = .next u ∧ u.gang? c.launch c.team c.gang = some g' ∧ KeepsGang g g' [] [] [] ∧ SameMemory s u ∧
        g'.entry? c.eid = some e' ∧ e'.st = .stalled (.marker m) ∧ e'.pc = c.ppc ∧
        ∃ x ∈ (u.core t.core).markers, x.id = m ∧ x.lines = (s.core t.core).fifo.map (·.line))

/-- 03 R74: TFENCE and TFENCE_ALL drop the translations of the page, or of the function, from the TLBs in reach, and stall until what used them
is performed; when that has come to pass they go on. Here with nothing to drain and no dirty line. -/
def Sys2Proof.Claims.TranslationFences : Prop :=
  ∀ (s : State) (c : Cur) (t : Team) (g : Gang) (e : Entry) (sc : BitVec 3) (a : Opnd) (i : Instr) (page : Option Nat) (fs : List Nat),
    Acts s c t g → g.entry? c.eid = some e → g.stq = [] → (s.core t.core).markers.length < Config.markerMax → (s.core t.core).fifo = [] →
    (i = .tfence a sc ∧ page = some (((g.uniOp a).toNat % 2 ^ 55) / 65536) ∧ fs = freedS a) ∨ (i = .tfenceAll sc ∧ page = none ∧ fs = []) →
    (e.resume = .none → e.progress = 0 → s.fabricOpen c.launch c.team c.gang = false →
      ∃ u g' e' f, exec i s = .next u ∧ u.gang? c.launch c.team c.gang = some g' ∧ KeepsGang g g' [] fs [] ∧ SameMemory s u ∧
        g'.entry? c.eid = some e' ∧ e'.st = .stalled (.tfence f.id) ∧ e'.resume = .op f.id ∧ e'.pc = c.ppc ∧ f ∈ u.tfences ∧
        (∀ q, (u.core q).tlb = if q ∈ reachCores t.core sc.toNat then
          (s.core q).tlb.filter (fun x => !x.victim t.func page) else (s.core q).tlb)) ∧
    (∀ f, e.resume = .op f.id → s.tfences.find? (fun x => x.id == f.id) = some f → s.fenceOpen f = false → f.cores = [] →
      ∃ u g', exec i s = .next u ∧ Reaches s u c g' id ∧ KeepsDevice s { u with tfences := s.tfences } ∧ Passed c g g' ∧ KeepsGang g g' [] [] [] ∧
        ∀ x ∈ u.tfences, x.id ≠ f.id)

/-! ### Typed buffers (chapter 07) -/

namespace Sys2Proof.Claims

/-- The entry stands at a first issue on tile register `k`, whose descriptor `d` names a tile set inside the team's own allotment. -/
structure OnTiles (s : State) (c : Cur) (t : Team) (g : Gang) (k : Nat) (d : Desc) : Prop where
  acts : Acts s c t g
  first : g.resumeOf c.eid = none
  free : g.acquiring c.seq = false
  declared : k < t.tiles
  desc : descOf (g.treg k) = d
  own : d.sib = false
  inside : d.last < t.tilesIn d.buf

/-- Physical offset in its buffer of extent offset `x`, and the tile that holds it. -/
def placeOf (t : Team) (d : Desc) (x : Nat) : Nat := d.phys t (d.place x)
def tileOf (t : Team) (d : Desc) (x : Nat) : Nat := d.tile t ((d.base * tileSize d.buf + x) / tileSize d.buf)

/-- The extent offsets of the active lanes are aligned, inside the extent and, for a reader, on tiles that are not EMPTY. -/
structure LanesInside (s : State) (c : Cur) (t : Team) (g : Gang) (d : Desc) (a : Opnd) (n : Nat) (reads : Bool) : Prop where
  tag : OffsetTag (g.srcA a).tag
  ok : ∀ i, i < 32 → c.mask.getLsbD i = true → (g.srcA a).val i % n = 0 ∧ (g.srcA a).val i + n ≤ d.extent ∧
    (reads = true → s.tileEmpty t.core d.buf (tileOf t d ((g.srcA a).val i)) = false)

/-- The bytes of a buffer of a core, and a presence record in it. -/
def bufByte (s : State) (core : Nat) (b : Buf) (x : Nat) : Byte := cellGet ((s.core core).buf b).bytes x
def record (s : State) (core : Nat) (b : Buf) (k : Nat) : Presence := ((s.core core).buf b).presence k

/-- Lanes of the registers from `d` on hold the bytes that lay at their offsets, `w` a width code (04 Table 4-7). -/
def TileLoaded (s : State) (c : Cur) (t : Team) (g g' : Gang) (dst w : Nat) (k : Desc) (a : Opnd) (etag : Nat) : Prop :=
  ∀ j, j < widthRegs w → g'.tag (dst + j) = loadTag w etag ∧ ∀ n, n < 32 → n < t.lanes → (g'.srcD (dst + j)).val n =
    if c.mask.getLsbD n then
      leNat ((rangeFrom (placeOf t k ((g.srcA a).val n) + 4 * j) (if w = 3 then 2 else 4)).map (bufByte s t.core k.buf))
    else (g.srcD (dst + j)).val n

end Sys2Proof.Claims

/-- 07 R169: TLD and SCLD read the lanes' bytes from the tiles into registers from d on; TLDC does so, counts one consumption on each tile
that it read, and begins a region. -/
def Sys2Proof.Claims.TileLoads : Prop :=
  ∀ (s : State) (c : Cur) (t : Team) (g : Gang) (d : BitVec 6) (k f : BitVec 4) (a : Opnd) (x : Desc),
    OnTiles s c t g k.toNat x → Ample s c → Shaped g → d.toNat + 3 < 64 → ((s.core t.core).buf x.buf).poison = [] →
    ((x.buf = .wb ∨ x.buf = .ab) → LanesInside s c t g x a (widthBytes f.toNat) true →
      (∃ u g', exec (.tld d k f a) s = .next u ∧ Commits s c g' u ∧ Passed c g g' ∧ TileLoaded s c t g g' d.toNat f.toNat x a x.tag ∧
        KeepsGang g g' ((rangeFrom 0 (widthRegs f.toNat)).map (d.toNat + ·) ++ freedBy [a] false) [] []) ∧
      (∃ u g', exec (.tldc d k f a) s = .next u ∧ u.gang? c.launch c.team c.gang = some g' ∧ Passed c g g' ∧ SameMemory s u ∧
        TileLoaded s c t g g' d.toNat f.toNat x a x.tag ∧ g'.region.num = g.region.num + 1 ∧
        (∀ n, ((∃ i, i < 32 ∧ c.mask.getLsbD i = true ∧ tileOf t x ((g.srcA a).val i) = n) →
            record u t.core x.buf n = (record s t.core x.buf n).consume) ∧
          ((∀ i, i < 32 → c.mask.getLsbD i = true → tileOf t x ((g.srcA a).val i) ≠ n) → record u t.core x.buf n = record s t.core x.buf n)) ∧
        KeepsGang { g with replay := [] } g' ((rangeFrom 0 (widthRegs f.toNat)).map (d.toNat + ·) ++ freedBy [a] false) [] [])) ∧
    (x.buf = .sb → LanesInside s c t g x a 2 true →
      ∃ u g', exec (.scld d k a) s = .next u ∧ Commits s c g' u ∧ Passed c g g' ∧ TileLoaded s c t g g' d.toNat 3 x a 0 ∧
        KeepsGang g g' (d.toNat :: freedBy [a] false) [] [])

/-- 07 R169: TST writes the lanes' bytes into the tiles, without an arrival; here for lanes that write apart from each other. -/
def Sys2Proof.Claims.TileStores : Prop :=
  ∀ (s : State) (c : Cur) (t : Team) (g : Gang) (d : BitVec 6) (k f : BitVec 4) (a : Opnd) (x : Desc),
    s.buffersOk → OnTiles s c t g k.toNat x → (x.buf = .wb ∨ x.buf = .ab) → LanesInside s c t g x a (widthBytes f.toNat) false →
    (∀ j, j < widthRegs f.toNat → g.tag (d.toNat + j) ≠ .poison) →
    (∀ i j, i < 32 → j < 32 → i ≠ j → c.mask.getLsbD i = true → c.mask.getLsbD j = true → (g.srcA a).val i ≠ (g.srcA a).val j) →
    ∃ u g', exec (.tst d k f a) s = .next u ∧ u.gang? c.launch c.team c.gang = some g' ∧ Passed c g g' ∧ SameMemory s u ∧
      (∀ i b, i < 32 → c.mask.getLsbD i = true → b < widthBytes f.toNat →
        bufByte u t.core x.buf (placeOf t x ((g.srcA a).val i) + b) =
          BitVec.ofNat 8 ((g.storeData d.toNat f.toNat i).toNat / 2 ^ (8 * b))) ∧
      (∀ y, (∀ i b, i < 32 → c.mask.getLsbD i = true → b < widthBytes f.toNat → y ≠ placeOf t x ((g.srcA a).val i) + b) →
        bufByte u t.core x.buf y = bufByte s t.core x.buf y) ∧
      (∀ n, record u t.core x.buf n = record s t.core x.buf n) ∧ KeepsGang g g' (freedBy [a] false) [] []

/-- 07 R170: TARM arms every tile of the set with its counts, TCLR disarms them, both in a new region; TWAIT goes on when none of them is EMPTY
and else waits on the first that is; TTEST writes the record of the first tile and the number that are not EMPTY. -/
def Sys2Proof.Claims.PresenceControl : Prop :=
  ∀ (s : State) (c : Cur) (t : Team) (g : Gang) (k : BitVec 4) (d : BitVec 6) (a : Opnd) (x : Desc),
    OnTiles s c t g k.toNat x → Ample s c → Shaped g → 0 < x.extent →
    (∃ u g', exec (.tarm k a) s = .next u ∧ u.gang? c.launch c.team c.gang = some g' ∧ SameMemory s u ∧ RegionAfter c g g' (freedS a) ∧
      ∀ n, record u t.core x.buf n = if n ∈ x.set.map (x.tile t) then
        ⟨(g.uniOp a).toNat % 2 ^ 20 == 0, true, false, (g.uniOp a).toNat % 2 ^ 20, (g.uniOp a).toNat / 2 ^ 20 % 2 ^ 8⟩
        else record s t.core x.buf n) ∧
    (∃ u g', exec (.tclr k) s = .next u ∧ u.gang? c.launch c.team c.gang = some g' ∧ SameMemory s u ∧ RegionAfter c g g' [] ∧
      ∀ n, record u t.core x.buf n = if n ∈ x.set.map (x.tile t) then ⟨false, false, false, 0, 0⟩ else record s t.core x.buf n) ∧
    ((∀ n ∈ x.set, s.tileEmpty t.core x.buf (x.tile t n) = false) → GangBecomes (.twait k) s c g g [] []) ∧
    (∀ n ∈ x.set, s.tileEmpty t.core x.buf (x.tile t n) = true → (∀ m ∈ x.set, m < n → s.tileEmpty t.core x.buf (x.tile t m) = false) →
      s.waiters t.core < Config.waitTable →
      ∃ u g', exec (.twait k) s = .next u ∧ Commits s c g' u ∧ KeepsGang g g' [] [] [] ∧ g'.frontier = g.frontier.map fun e =>
        if e.eid = c.eid then { e with pc := c.ppc, st := .tile t.core x.buf (x.tile t n), promoted := none } else e) ∧
    WritesUniform (.ttest d k) s c g d.toNat [] [] (BitVec.ofNat 64 ((record s t.core x.buf (x.tile t x.base)).word +
      (x.set.filter fun n => !(s.tileEmpty t.core x.buf (x.tile t n))).length * 2 ^ 32))

/-- 07 R158, R160, R170: TDEF writes a well-formed descriptor into a tile register; TFILL writes a pattern over the elements of every row; TZERO
writes zero over the whole extent, padding included. -/
def Sys2Proof.Claims.TileFills : Prop :=
  ∀ (s : State) (c : Cur) (t : Team) (g : Gang) (k : BitVec 4) (d : BitVec 6) (a : Opnd) (x : Desc),
    (Acts s c t g → g.resumeOf c.eid = none → g.acquiring c.seq = false → Shaped g → wellFormed (.tdef d a) = true → d.toNat < t.tiles →
      d.toNat < 16 →
      badDesc (g.uni (a.reg.toNat + 1) ++ g.uniOp a) = false →
      ∃ u g', exec (.tdef d a) s = .next u ∧ Commits s c g' u ∧ Passed c g g' ∧ (∀ r ∈ freedS a, g'.uni r = 0) ∧
        KeepsGang { g with tregs := g.tregs.set d.toNat (g.uni (a.reg.toNat + 1) ++ g.uniOp a) } g' [] (freedS a) []) ∧
    (s.buffersOk → OnTiles s c t g k.toNat x → (x.buf = .wb ∨ x.buf = .ab) →
      (x.cols * elemSize x.tag ≤ x.pitch → 0 < x.rows →
        ∃ u g', exec (.tfill k a) s = .next u ∧ u.gang? c.launch c.team c.gang = some g' ∧ SameMemory s u ∧ RegionAfter c g g' (freedS a) ∧
          (∀ r b, r < x.rows → b < x.cols * elemSize x.tag → bufByte u t.core x.buf (placeOf t x (r * x.pitch + b)) =
            BitVec.ofNat 8 ((g.uniOp a).toNat / 2 ^ (8 * (b % 4)))) ∧
          ∀ y, (∀ r b, r < x.rows → b < x.cols * elemSize x.tag → y ≠ placeOf t x (r * x.pitch + b)) →
            bufByte u t.core x.buf y = bufByte s t.core x.buf y) ∧
      (∃ u g', exec (.tzero k) s = .next u ∧ u.gang? c.launch c.team c.gang = some g' ∧ SameMemory s u ∧ Passed c g g' ∧
        KeepsGang g g' [] [] [] ∧ (∀ y, y < x.extent → bufByte u t.core x.buf (placeOf t x y) = 0) ∧
        (∀ y, (∀ z, z < x.extent → y ≠ placeOf t x z) → bufByte u t.core x.buf y = bufByte s t.core x.buf y) ∧
        ∀ n, record u t.core x.buf n = record s t.core x.buf n))

/-! ### Copies (chapter 06) -/

namespace Sys2Proof.Claims

/-- The eight words of a descriptor in consecutive uniform registers. -/
def descWords (g : Gang) (r : BitVec 6) : List W64 := (rangeFrom 0 8).map fun k => g.uni (r.toNat + k)

/-- The form of Table 6-7 that an instruction asks for. -/
def copyForm (i : Instr) (d : CDesc) (r : BitVec 6) (b : BitVec 5) (o : Bool) : Prop :=
  (i = .cpy r b o ∧ d.red = 0 ∧ d.mcast = false) ∨ (i = .cpyr r b o ∧ d.red ≠ 0) ∨ (i = .cpym r b o ∧ d.mcast = true)

/-- The chunks of `n` elements: chunk k holds those from k·n/64 up to (k+1)·n/64. -/
def Chunked (l : List Chunk) (n phase : Nat) : Prop :=
  l.length = 64 ∧ ∀ k y, l[k]? = some y → y.next = k * n / 64 ∧ y.last = (k + 1) * n / 64 ∧ y.phase = phase ∧ y.poison = false ∧
    y.st = if k * n / 64 = (k + 1) * n / 64 then .done else .idle

/-- A chunk that a cancellation ends: not started, or parked. -/
def cancellable (y : Chunk) : Bool :=
  match y.st with
  | .idle => true
  | .parked _ _ => true
  | _ => false

/-- A copy's cookie; an MSTORE has none. -/
def cookieOf (x : Copy) : Nat := if x.store.isSome then 0 else (x.words.getD 7 0).toNat / 2 ^ 32

end Sys2Proof.Claims

/-- 06 R136, R138, R142: CPY, CPYR and CPYM with a descriptor that passes its checks take a copy slot and range locks, count the flag of setB up
and begin a region; no byte moves yet. No older instruction of the core waits for a slot or an entry. -/
def Sys2Proof.Claims.CopiesBegin : Prop :=
  ∀ (i : Instr) (s : State) (c : Cur) (t : Team) (g : Gang) (e : Entry) (r : BitVec 6) (b : BitVec 5) (o : Bool),
    Acts s c t g → g.acquiring c.seq = false → g.entry? c.eid = some e → e.setB < 12 → g.flag e.setB < 63 → g.flags.length = 12 →
    let d := cdescOf (descWords g r)
    copyForm i d r b o → s.checkDesc (some t) (descWords g r) = none → d.seq s t.core t.func = false →
    (b.toNat < 16 → (t.bar b.toNat).set = true) → (s.core t.core).copies.length < 16 →
    (s.core t.core).locks.length + (d.locks 0 0).length ≤ 64 → (∀ why, s.ahead t.core c.seq why = 0) →
    ∃ u g' x, exec i s = .next u ∧ Reaches s u c g' id ∧ RegionAfter c { g with flags := g'.flags } g' [] ∧
      g'.flags = g.flags.set e.setB (g.flag e.setB + 1) ∧
      KeepsDevice s { u with fresh := s.fresh, cores := u.cores.map fun k => { k with copies := (s.core k.id).copies, locks := (s.core k.id).locks } } ∧
      (u.core t.core).copies = (s.core t.core).copies ++ [x] ∧ (u.core t.core).locks = (s.core t.core).locks ++ d.locks x.id t.func ∧
      x.owner = .gang c.launch c.team c.gang ∧ x.words = descWords g r ∧ x.pc = c.pc ∧ x.word = c.word ∧ x.mask = c.mask ∧
      x.flag = e.setB ∧ x.bar = b.toNat ∧ x.waitSeq = (if o then c.seq else 0) ∧ Chunked x.chunks d.elems (if d.ragged = 0 then 1 else 0)

/-- 06 R130, R133, R138: an element whose source lies in AB is read from there when its tile is not EMPTY; an element that has been read and whose
destination is device memory is performed at the home, and its chunk goes on to the next. -/
def Sys2Proof.Claims.CopyElements : Prop :=
  ∀ (s : State) (core id k l tn gi : Nat) (t : Team) (x : Copy) (y : Chunk),
    s.copy? core id = some x → x.store = none → x.owner = .gang l tn gi → s.team? l tn = some t → t.core = core → x.waitSeq = 0 → x.sectors = [] →
    x.chunks[k]? = some y → y.st = .running ∨ y.st = .idle →
    let d := cdescOf x.words
    d.ragged = 0 → d.e0 ≠ 0 → d.e1 ≠ 0 → d.size ≤ 16 →
    (y.phase = 1 → d.skind = 2 → 0 ≤ d.srcAt y.next 0 → d.srcAt y.next 0 + d.size ≤ t.abTiles * 4096 →
      let p := t.abBase * 4096 + (d.srcAt y.next y.row).toNat
      p % d.size = 0 → s.tileEmpty core .ab (p / 4096) = false →
      ∃ u x' y', exec (.copyElementLand core id k) s = .next u ∧ u.copy? core id = some x' ∧ x'.chunks[k]? = some y' ∧ SameMemory s u ∧
        u.teams = s.teams ∧ y'.phase = 2 ∧ y'.next = y.next ∧ y'.data = packBytes (((s.core core).buf .ab).get p d.size)) ∧
    (∀ (tr : Trans) (a : Nat), y.phase = 2 → d.dkind = 0 → d.red = 0 →
      s.copyCheck core t.func (d.dstAt y.next % 2 ^ 64).toNat d.size true false true = some (.ok tr) → tr.tgt = .mem a → a % d.size = 0 →
      Roomy s →
      ∃ u x' y', exec (.copyElementLand core id k) s = .next u ∧ u.copy? core id = some x' ∧ x'.chunks[k]? = some y' ∧
        Stored s u a d.size (y.data.toNat % 2 ^ (8 * d.size)) ∧ y'.next = y.next + 1 ∧ y'.phase = 1 ∧
        y'.st = (if y.next + 1 = y.last then .done else .running))

/-- 06 R140, R144: a copy or a CPYT whose parts are all done leaves its core with its locks, and its gang's flag, and CPYT's tag, count down. -/
def Sys2Proof.Claims.CopiesComplete : Prop :=
  ∀ (s : State) (core id l tn gi : Nat) (g : Gang),
    s.gang? l tn gi = some g → g.frontier ≠ [] → g.ended = false →
    (∀ x, s.copy? core id = some x → x.owner = .gang l tn gi → (∀ y ∈ x.chunks, y.st = .done ∨ y.st = .fault) →
      ∃ u g', exec (.copyComplete core id) s = .next u ∧ u.gang? l tn gi = some g' ∧ g' = g.flagDown x.flag ∧
        (u.core core).copies = (s.core core).copies.filter (fun y => y.id != id) ∧
        (u.core core).locks = (s.core core).locks.filter (fun y => y.cpyt || y.copy != id) ∧
        { u with teams := s.teams, cores := s.cores } = s) ∧
    (∀ x, s.cpyt? core id = some x → x.launch = l → x.team = tn → x.gang = gi → (∀ y ∈ x.lanes, y.st = .done ∨ y.st = .ended) →
      ∃ u g', exec (.cpytComplete core id) s = .next u ∧ u.gang? l tn gi = some g' ∧
        g' = { g.flagDown x.flag with ctags := modAt g.ctags x.tag (· - 1) } ∧
        (u.core core).cpyts = (s.core core).cpyts.filter (fun y => y.id != id) ∧
        (u.core core).locks = (s.core core).locks.filter (fun y => !y.cpyt || y.copy != id) ∧
        { u with teams := s.teams, cores := s.cores } = s)

/-- 06 R143, R144: CPYT with lanes that all pass their checks takes a record of those lanes and one lock on the sectors that it reads, counts
setB and its tag up, and begins a region. -/
def Sys2Proof.Claims.TileRowCopies : Prop :=
  ∀ (s : State) (c : Cur) (t : Team) (g : Gang) (e : Entry) (o : BitVec 6) (a : Opnd) (n : BitVec 5) (tg : BitVec 3),
    Acts s c t g → g.acquiring c.seq = false → g.entry? c.eid = some e → e.setB < 12 → g.flag e.setB < 63 → Shaped g →
    (g.srcA a).tag = .i64 ∨ (g.srcA a).tag = .none → (g.srcA1 a).tag = (g.srcA a).tag → OffsetTag (g.tag o.toNat) → OffsetTag (g.tag n.toNat) →
    g.ctags.getD tg.toNat 0 < 255 → (s.core t.core).cpyts = [] → (s.core t.core).locks.length < 64 →
    (∀ why, s.ahead t.core c.seq why = 0) → (∀ x ∈ g.frontier, x.st ≠ .stalled .cpytRecord) →
    (∀ i, i < 32 → c.mask.getLsbD i = true → (g.srcD o.toNat).val i % 32 = 0 ∧ (g.srcD o.toNat).val i + 32 ≤ t.abTiles * 4096 ∧
      ((g.srcD n.toNat).val i = 0 ∨ (srcLane (g.opA a) true i % 32 = 0 ∧
        s.touchesSeq t.core t.func .read (srcLane (g.opA a) true i, srcLane (g.opA a) true i) = false))) →
    ∃ u g' x, exec (.cpyt o a n tg) s = .next u ∧ Reaches s u c g' id ∧ SameMemory s u ∧ Passed c g g' ∧
      (∀ r ∈ freedBy [a] true, g'.vreg r = none) ∧
      KeepsGang { g with
        flags := g.flags.set e.setB (g.flag e.setB + 1)
        ctags := g.ctags.set tg.toNat (g.ctags.getD tg.toNat 0 + 1)
        replay := [] } g' (freedBy [a] true) [] [] ∧
      g'.region.num = g.region.num + 1 ∧ (u.core t.core).cpyts = [x] ∧ x.tag = tg.toNat ∧ x.flag = e.setB ∧ x.gang = c.gang ∧
      x.lanes = (lanesOf c.mask).map fun i => ⟨i, (g.srcD o.toNat).val i, min ((g.srcD n.toNat).val i) 32, srcLane (g.opA a) true i, .pending,
        0, 0, false⟩

/-- 06 R144: a lane of a CPYT that has all its bytes writes its 32 bytes to AB, and they count as one arrival on their tile. -/
def Sys2Proof.Claims.TileRowLands : Prop :=
  ∀ (s : State) (core id : Nat) (t : Team) (x : Cpyt) (y : CpytLane),
    s.buffersOk → s.copy? core id = none → s.cpyt? core id = some x → s.team? x.launch x.team = some t → x.waitSeq = 0 → y ∈ x.lanes → y.st = .pending →
    (x.lanes.map (·.lane)).Nodup → y.valid ≤ y.got → y.off % 32 = 0 → y.poison = false →
    let p := t.abBase * 4096 + y.off
    ∃ u, exec (.copyElementLand core id y.lane) s = .next u ∧ SameMemory s u ∧
      (∀ j, j < 32 → bufByte u core .ab (p + j) = BitVec.ofNat 8 (y.data.toNat / 2 ^ (8 * j))) ∧
      (∀ z, ¬ (p ≤ z ∧ z < p + 32) → bufByte u core .ab z = bufByte s core .ab z) ∧
      (∀ n, Claims.record u core .ab n = if n = p / 4096 then (Claims.record s core .ab n).arrive 32 else Claims.record s core .ab n)

/-- 06 R146: CPYWAIT goes on in a new region when the tags it names read zero; CPYSTAT writes the gang's copies and the free slots and locks, the
chunks of its oldest copy that are done, or its tags; CPYCAN ends the chunks of the copies with a cookie, CPYCAN_ALL of all, that have not
started or are parked, and writes their number. -/
def Sys2Proof.Claims.CopyControl : Prop :=
  ∀ (s : State) (c : Cur) (t : Team) (g : Gang) (d : BitVec 6) (a : Opnd) (m : BitVec 8),
    Acts s c t g → Ample s c → Shaped g →
    let mine := (s.core t.core).copies.filter fun x => x.owner == .gang c.launch c.team c.gang
    let writes (i : Instr) (fs : List Nat) (v : Nat) : Prop := ∃ u g', exec i s = .next u ∧ Reaches s u c g' id ∧ Passed c g g' ∧
      SameMemory s u ∧ g'.uni d.toNat = BitVec.ofNat 64 v ∧ KeepsGang { g with replay := [] } g' [] (d.toNat :: fs) [] ∧
      g'.region.num = g.region.num + 1
    ((∀ k, k < 8 → m.getLsbD k = true → g.ctags.getD k 0 = 0) →
      GangBegins (.cpywait m) s c g g (BitVec.allOnes 64) (BitVec.allOnes 64) []) ∧
    writes (.cpystatCount d) [] (mine.length + (16 - (s.core t.core).copies.length) * 2 ^ 8 + (64 - (s.core t.core).locks.length) * 2 ^ 16 +
      ((mine.head?).map cookieOf).getD 0 * 2 ^ 32) ∧
    (∀ x rest, mine = x :: rest → ∃ v, writes (.cpystatBitmap d) [] v ∧ v < 2 ^ 64 ∧ ∀ (k : Nat) (y : Chunk), k < 64 → x.chunks[k]? = some y →
      (v.testBit k = true ↔ y.st = .done ∨ y.st = .fault)) ∧
    (mine = [] → writes (.cpystatBitmap d) [] 0) ∧
    writes (.cpystatTags d) [] ((rangeFrom 0 8).map (fun k => g.ctags.getD k 0 % 256 * 2 ^ (8 * k))).sum ∧
    (∀ (i : Instr) (fs : List Nat) (sel : Copy → Bool),
      (i = .cpycan d a ∧ fs = freedS a ∧ sel = fun x => cookieOf x == (g.uniOp a).toNat % 2 ^ 32) ∨
        (i = .cpycanAll d ∧ fs = [] ∧ sel = fun _ => true) →
      (∀ x ∈ (s.core t.core).copies, ∀ y ∈ (s.core t.core).copies, x.id = y.id → x = y) →
      writes i fs ((mine.filter sel).map fun x => (x.chunks.filter cancellable).length).sum ∧
      ∀ u, exec i s = .next u → ∀ x ∈ (u.core t.core).copies, ∃ x0 ∈ (s.core t.core).copies, x.id = x0.id ∧
        (x0 ∉ mine.filter sel → x = x0) ∧
        (x0 ∈ mine.filter sel → ∀ (k : Nat) (y : Chunk), x0.chunks[k]? = some y → x.chunks[k]? = some (if cancellable y then { y with st := .done } else y)))

/-- 06 R148, R151: CPYQ claims the next index of a queue in local memory and writes its packet into the slot, the ready byte last; here with
room in the ring, no bell, and nothing of the gang or its core in flight. -/
def Sys2Proof.Claims.QueuePacketsWritten : Prop :=
  ∀ (s : State) (c : Cur) (t : Team) (g : Gang) (e : Entry) (d : BitVec 6) (a : Opnd) (sc : BitVec 3) (h sl : Nat) (tw th ts : Trans),
    Acts s c t g → g.acquiring c.seq = false → g.entry? c.eid = some e → e.resume = .none → e.progress = 0 → g.stq = [] →
    2 ≤ sc.toNat → sc.toNat ≤ 3 → (s.core t.core).cache = [] → (s.core t.core).fifo = [] → (s.core t.core).markers.length < Config.markerMax →
    s.flips = [] → s.poison = [] → s.home = [] → s.stack = [] → s.reds = [] → (s.core t.core).locks = [] →
    s.fabricOpen c.launch c.team c.gang = false →
    let hdr := (g.uniOp a).toNat
    let ring := leNat (s.homeRead h 8)
    let slots := leNat (s.homeRead (h + 8) 4)
    let w := leNat (s.homeRead (h + 16) 8)
    let rd := leNat (s.homeRead (h + 24) 8)
    let slot := (ring + 64 * (w % slots)) % 2 ^ 64
    hdr % 64 = 0 → addrOk (BitVec.ofNat 64 (hdr + 16)) = true → addrOk (BitVec.ofNat 64 hdr) = true → addrOk (BitVec.ofNat 64 slot) = true →
    hdr + 64 ≤ 2 ^ 64 →
    slot % 64 = 0 → h % 64 = 0 → sl % 64 = 0 → (sl + 64 ≤ h ∨ h + 64 ≤ sl) → rd ≤ w → w - rd < slots →
    s.lookup t.core t.func ((hdr + 16) % 2 ^ 55) .rw .atomic = some (.ok tw) → tw.tgt = .mem (h + 16) → tw.ty = .rel →
    s.lookup t.core t.func (hdr % 2 ^ 55) .read (.thread 8) = some (.ok th) → th.tgt = .mem h → th.ty = .rel →
    s.lookup t.core t.func (slot % 2 ^ 55) .write (.thread 8) = some (.ok ts) → ts.tgt = .mem sl → ts.ty = .rel →
    ∃ u g', exec (.cpyq d a sc false) s = .next u ∧ u.gang? c.launch c.team c.gang = some g' ∧ RegionAfter c g g' (freedS a) ∧
      (u.team? c.launch c.team).map (·.committed) = some true ∧
      ∀ x, u.homeGet x =
        if h + 16 ≤ x ∧ x < h + 24 then BitVec.ofNat 8 ((w + 1) / 2 ^ (8 * (x - (h + 16))))
        else if sl ≤ x ∧ x < sl + 64 then
          (if x = sl + 1 then 1 else BitVec.ofNat 8 ((g.uni (d.toNat + (x - sl) / 8)).toNat / 2 ^ (8 * ((x - sl) % 8))))
        else s.homeGet x

/-! ### The matrix engine (chapter 11) -/

namespace Sys2Proof.Claims

/-- The accumulator, convergence register and tile registers that a matrix instruction names, and the index register of a gathering one. -/
def matrixForm : Instr → Option (BitVec 3 × BitVec 3 × BitVec 4 × BitVec 4 × Option (BitVec 6))
  | .mma k c a b _ => some (k, c, a, b, none)
  | .mmag k c a b x _ => some (k, c, a, b, some x)
  | .mmas k c a b _ => some (k, c, a, b, none)
  | .mmags k c a b x _ => some (k, c, a, b, some x)
  | _ => none

/-- What a matrix signature captures (11 R239). -/
def captured (g : Gang) (w : W32) (x : Option (BitVec 6)) : Capture :=
  match x with
  | none => ⟨g.idx, w, g.tregs, [], []⟩
  | some ix => ⟨g.idx, w, g.tregs, (rangeFrom 0 128).map fun m =>
      ((g.lanes (ix.toNat + m / 64)).getD (m % 64 / 2) 0).toNat / 2 ^ (16 * (m % 2)) % 2 ^ 16, [g.tag ix.toNat, g.tag (ix.toNat + 1)]⟩

/-- Offset in CB of element (m, n) of accumulator `k` of a team (11 R233). -/
def accAt (t : Team) (k m n : Nat) : Nat := (t.accBase + k) * 65536 + 4 * (128 * m + n)

/-- The bits of an accumulator's element. -/
def accElem (s : State) (t : Team) (k m n : Nat) : Nat := leNat ((rangeFrom (accAt t k m n) 4).map (bufByte s t.core .cb))

end Sys2Proof.Claims

/-- 11 R238 to R242, 02 R40: a matrix instruction signs its convergence register with what its gang's registers hold, counts the flag of setB up
and stands in a region of its own; with the last signature the list empties and its operation, when it passes the checks of Table 11-4, joins
the engine's queue. -/
def Sys2Proof.Claims.MatrixSignatures : Prop :=
  ∀ (i : Instr) (s : State) (c : Cur) (t : Team) (g : Gang) (e : Entry) (k cc : BitVec 3) (a b : BitVec 4) (ix : Option (BitVec 6)) (v : Conv),
    matrixForm i = some (k, cc, a, b, ix) → wellFormed i = true → Acts s c t g → FullTeam t → g.entry? c.eid = some e → e.setB < 12 →
    g.flag e.setB < 63 → g.flags.length = 12 → k.toNat < t.acc → a.toNat < t.tiles → b.toNat < t.tiles → t.cv[cc.toNat]? = some v →
    let w := BitVec.ofNat 32 (encodeWord i)
    (∀ y ∈ v.signers, y.matrix = true → y.word = w) →
    (v.signers.length + 1 < v.declared →
      ∃ u g', exec i s = .next u ∧ KeepsDevice s u ∧
        Reaches s u c g' (fun x => x.setConv cc.toNat
          { v with signers := v.signers ++ [⟨c.gang, e.setB, true, w, c.pc⟩], cap := some (captured g w ix) }) ∧
        Passed c g g' ∧ KeepsGang { g with flags := g.flags.set e.setB (g.flag e.setB + 1), replay := [] } g' [] [] [] ∧
        NewRegion g' (g.region.num + 2) (BitVec.allOnes 64) (BitVec.allOnes 64)) ∧
    (∀ ops, v.declared ≤ v.signers.length + 1 → (s.core t.core).engine = ops → ops.length < 16 →
      let m := captured g w ix
      let o : MatOp := ⟨s.fresh, c.launch, c.team, w, g.idx, g.treg a.toNat, g.treg b.toNat, g.treg (t.mscale.toNat % 16),
        g.treg (t.mscale.toNat / 16 % 16), m.idx, t.mscale, v.signers ++ [⟨c.gang, e.setB, true, w, c.pc⟩], 0, false, false, none⟩
      s.matCheck t o m.ixTags = none → (∀ (n : Nat) (y : Gang), t.gangs[n]? = some y → y.idx = n) →
      ∃ u g', exec i s = .next u ∧
        Reaches s u c g' (fun x => { x with cv := x.cv.set cc.toNat { v with signers := [], cap := none } }) ∧
        (u.core t.core).engine = ops ++ [o] ∧ SameMemory s u ∧ Passed c g g' ∧
        KeepsGang { g with flags := g.flags.set e.setB (g.flag e.setB + 1), replay := [] } g' [] [] [] ∧
        NewRegion g' (g.region.num + 2) (BitVec.allOnes 64) (BitVec.allOnes 64))

/-- 11 R249 to R252: MZERO makes every element of an accumulator zero and sets its kind; MRD reads elements to lanes with the tag of the kind; MWR
writes lanes to elements, here apart from each other; MPROG writes and reads the team's words. No operation of the engine or MSTORE is using
the accumulator. -/
def Sys2Proof.Claims.AccumulatorAccess : Prop :=
  ∀ (s : State) (c : Cur) (t : Team) (g : Gang) (d : BitVec 6) (k : BitVec 3) (f : BitVec 4) (a : Opnd) (m : BitVec 2) (w : BitVec 3),
    s.buffersOk → Acts s c t g → Ample s c → Shaped g → k.toNat < t.acc → d.toNat + 3 < 64 → f.toNat ≤ 2 →
    s.accBusy t k.toNat true = false →
    let n := widthRegs f.toNat
    let el (i : Nat) : Nat := (g.srcA a).val i
    (wellFormed (.mzero k m) = true →
      ∃ u g', exec (.mzero k m) s = .next u ∧ Reaches s u c g' (fun x => x.setKind k.toNat (m == 1)) ∧ SameMemory s u ∧ Passed c g g' ∧
        KeepsGang g g' [] [] [] ∧ (∀ i j, i < 128 → j < 128 → accElem u t k.toNat i j = 0) ∧
        (∀ z, ¬ ((t.accBase + k.toNat) * 65536 ≤ z ∧ z < (t.accBase + k.toNat + 1) * 65536) → bufByte u t.core .cb z = bufByte s t.core .cb z) ∧
        ∀ r, Claims.record u t.core .cb r = Claims.record s t.core .cb r) ∧
    (OffsetTag (g.srcA a).tag → (∀ i, i < 32 → c.mask.getLsbD i = true → el i + n ≤ 128 * 128 ∧ (f = 2 → el i % 4 = 0)) →
      (f ≠ 1 ∨ ∀ i, i < 32 → el i ≤ 16382) →
      (((s.core t.core).buf .cb).poison = [] → s.tileEmpty t.core .cb (t.accBase + k.toNat) = false →
        ∃ u g', exec (.mrd d (k.setWidth 4) f a) s = .next u ∧ Commits s c g' u ∧ Passed c g g' ∧
          (∀ j, j < n → g'.tag (d.toNat + j) = (if t.accInt k.toNat then .i32 else .f32) ∧ ∀ i, i < 32 → i < t.lanes →
            (g'.srcD (d.toNat + j)).val i = if c.mask.getLsbD i then accElem s t k.toNat ((el i + j) / 128) ((el i + j) % 128)
              else (g.srcD (d.toNat + j)).val i) ∧
          KeepsGang g g' ((rangeFrom 0 n).map (d.toNat + ·) ++ freedBy [a] false) [] []) ∧
      ((∀ j, j < n → g.tag (d.toNat + j) = (if t.accInt k.toNat then Tag.i32 else Tag.f32) ∨ g.tag (d.toNat + j) = .none) →
        (∀ i j, i < 32 → j < 32 → i ≠ j → c.mask.getLsbD i = true → c.mask.getLsbD j = true → el i + n ≤ el j ∨ el j + n ≤ el i) →
        ∃ u g', exec (.mwr d (k.setWidth 4) f a) s = .next u ∧ Reaches s u c g' id ∧ SameMemory s u ∧ Passed c g g' ∧
          KeepsGang g g' (freedBy [a] false) [] [] ∧
          (∀ i j, i < 32 → c.mask.getLsbD i = true → j < n →
            accElem u t k.toNat ((el i + j) / 128) ((el i + j) % 128) = (g.srcD (d.toNat + j)).val i) ∧
          ∀ z, (∀ i b, i < 32 → c.mask.getLsbD i = true → b < 4 * n → z ≠ accAt t k.toNat 0 (el i) + b) →
            bufByte u t.core .cb z = bufByte s t.core .cb z)) ∧
    (wellFormed (.mprogWrite a w) = true → (w = 0 → mscaleOk (g.uniOp a) = true) → (w = 2 → mfmtOk (g.uniOp a) = true) →
      ∃ u g', exec (.mprogWrite a w) s = .next u ∧ KeepsDevice s u ∧ Passed c g g' ∧ (∀ r ∈ freedS a, g'.uni r = 0) ∧
        KeepsGang g g' [] (freedS a) [] ∧
        Reaches s u c g' fun x => if w = 0 then { x with mscale := g.uniOp a } else if w = 1 then { x with mbase := g.uniOp a }
          else { x with mfmt := g.uniOp a }) ∧
    (wellFormed (.mprogRead d w) = true →
      WritesUniform (.mprogRead d w) s c g d.toNat [] [] (if w = 0 then t.mscale else if w = 1 then t.mbase else t.mfmt))

/-- 11 R253: MSTORE begins as a copy of rows times columns elements to device memory, with the words of MPROG, a range lock on what it may write,
and the flag of setB counted up; no byte moves yet. -/
def Sys2Proof.Claims.AccumulatorStores : Prop :=
  ∀ (s : State) (c : Cur) (t : Team) (g : Gang) (e : Entry) (k : BitVec 3),
    Acts s c t g → g.entry? c.eid = some e → e.setB < 12 → g.flag e.setB < 63 → g.flags.length = 12 → k.toNat < t.acc →
    mfmtOk t.mfmt = true → t.mfmt ≠ 0 → t.mbase.toNat % elemSize (t.mfmt.toNat / 2 ^ 32 % 16) = 0 →
    s.touchesSeq t.core t.func .write (MStore.span ⟨k.toNat, t.mbase, t.mfmt, []⟩) = false →
    (s.core t.core).copies.length < 16 → (s.core t.core).locks.length < 64 → (∀ why, s.ahead t.core c.seq why = 0) →
    let n := (t.mfmt.toNat / 2 ^ 40 % 2 ^ 8) * (t.mfmt.toNat / 2 ^ 48 % 2 ^ 8)
    ∃ u g' x m, exec (.mstore k) s = .next u ∧ Reaches s u c g' id ∧ SameMemory s u ∧ Passed c g g' ∧
      KeepsGang { g with flags := g.flags.set e.setB (g.flag e.setB + 1) } g' [] [] [] ∧
      (u.core t.core).copies = (s.core t.core).copies ++ [x] ∧ (u.core t.core).locks.length = (s.core t.core).locks.length + (if n = 0 then 0 else 1) ∧
      x.owner = .gang c.launch c.team c.gang ∧ x.store = some m ∧ m.acc = k.toNat ∧ m.mbase = t.mbase ∧ m.mfmt = t.mfmt ∧ x.mask = c.mask ∧
      x.flag = e.setB ∧ Chunked x.chunks n 1

/-- 11 R241, R244: an operation whose turn has come is taken up and begins when none of its tiles is EMPTY; an initialising mode then makes its
rows +0 and sets the accumulator's kind, and a gathering one latches its rows of A (R237). -/
def Sys2Proof.Claims.OperationsStart : Prop :=
  ∀ (s : State) (core id : Nat) (t : Team) (o : MatOp),
    s.buffersOk → s.matOp? core id = some o → s.team? o.launch o.team = some t → t.core = core → o.begun = false → o.progress = 0 →
    s.mayStart core o = true → (∀ x ∈ (s.core core).engine, x.id < id → s.mayStart core x = false) → (s.func t.func).frozen = false →
    (∀ x ∈ s.matTiles t o, s.tileEmpty x.1 x.2.1 x.2.2 = false) → (s.core core).engine.length ≤ 16 →
    ∃ u o', exec (.matrixOpStart core id) s = .next u ∧ u.matOp? core id = some o' ∧ o' = { o with started := true, begun := true, latch := if mmaGather o.word then some (s.latched t o) else none } ∧
      SameMemory s u ∧
      (mmaMode o.word = 1 ∨ mmaMode o.word = 3 → 0 < o.m → 0 < o.n → o.m ≤ 128 → o.n ≤ 128 →
        (∀ i j, i < o.m → j < o.n → accElem u t (mmaAcc o.word) i j = 0) ∧
        (u.team? o.launch o.team).map (fun x => x.accInt (mmaAcc o.word)) = some o.int) ∧
      (mmaMode o.word = 0 ∨ mmaMode o.word = 2 → (u.core core).cb = (s.core core).cb)

/-- 11 R244, 09 R199: a K step of an integer operation adds to each element of its rows the products of up to 32 elements of the rows of A and B,
modulo 2^32. -/
def Sys2Proof.Claims.IntegerSteps : Prop :=
  ∀ (s : State) (core id : Nat) (t : Team) (o : MatOp),
    s.buffersOk → s.matOp? core id = some o → s.team? o.launch o.team = some t → t.core = core → o.begun = true → o.progress < o.k →
    (s.func t.func).frozen = false → (s.core core).engineUpsets = [] → o.latch = none → o.group = 2 → mmaScaled o.word = false → mmaGather o.word = false → o.m ≤ 128 → o.n ≤ 128 →
    (descOf o.descA).sib = false → (descOf o.descB).sib = false → ((s.core core).buf .cb).poison = [] →
    ((s.core core).buf (descOf o.descA).buf).poison = [] → ((s.core core).buf (descOf o.descB).buf).poison = [] →
    (descOf o.descA).buf ≠ .cb → (descOf o.descB).buf ≠ .cb →
    groupOf (descOf o.descB).tag = 2 →
    let int (d : Desc) (r k : Nat) : Int :=
      let x := bufByte s core d.buf (placeOf t d (r * d.pitch + k))
      if d.tag = 4 then x.toInt else (x.toNat : Int)
    ∃ u o', exec (.matrixKStep core id) s = .next u ∧ u.matOp? core id = some o' ∧ o' = { o with progress := min o.k (o.progress + 32) } ∧
      SameMemory s u ∧ ∀ i j, i < o.m → j < o.n → (accElem u t (mmaAcc o.word) i j : Int) =
        ((accElem s t (mmaAcc o.word) i j : Int) + ((rangeFrom o.progress (min o.k (o.progress + 32) - o.progress)).map fun k =>
          int (descOf o.descA) i k * int (descOf o.descB) j k).sum) % (2 ^ 32 : Nat)

/-- 11 R244 to R246: a finished operation leaves the engine; a consuming mode counts one consumption on every tile of A and B; its elements
arrive at the accumulator's record; the flag of every signer counts down. Here for one signer. -/
def Sys2Proof.Claims.OperationsComplete : Prop :=
  ∀ (s : State) (core id : Nat) (t : Team) (o : MatOp) (y : Signer) (g : Gang),
    s.matOp? core id = some o → s.team? o.launch o.team = some t → t.core = core → o.begun = true → o.k ≤ o.progress →
    o.signers = [y] → y.matrix = true → t.gangs[y.gang]? = some g → g.frontier ≠ [] → g.ended = false →
    (descOf o.descA).sib = false → (descOf o.descB).sib = false → (descOf o.descA).buf ≠ .cb → (descOf o.descB).buf ≠ .cb →
    ∃ u, exec (.matrixOpComplete core id) s = .next u ∧ u.matOp? core id = none ∧ SameMemory s u ∧
      u.gang? o.launch o.team y.gang = some (g.flagDown y.flag) ∧
      (∀ r, Claims.record u core .cb r = if r = t.accBase + mmaAcc o.word ∧ 0 < o.m ∧ 0 < o.n then (Claims.record s core .cb r).arrive (4 * o.m * o.n)
        else Claims.record s core .cb r) ∧
      (mmaMode o.word < 2 → ∀ b r, b ≠ Buf.cb → Claims.record u core b r = Claims.record s core b r) ∧
      (2 ≤ mmaMode o.word → (descOf o.descA).buf ≠ (descOf o.descB).buf → ∀ r, Claims.record u core (descOf o.descA).buf r =
        if r ∈ (descOf o.descA).set.map ((descOf o.descA).tile t) then (Claims.record s core (descOf o.descA).buf r).consume
        else Claims.record s core (descOf o.descA).buf r)

/-! ### Reflection checking and the engine's check (10 R212, R213, 11 R247) -/

namespace Sys2Proof.Claims

/-- The upset meets an active lane of the bundle: in its pass, the lane that it finds in its slot. -/
def Meets (c : Cur) (u : PipeUpset) : Prop :=
  u.quarter = c.gang % 4 ∧ u.bits ≠ 0 ∧ ∃ n, n < 32 ∧ c.mask.getLsbD n = true ∧
    let r := maskCount (c.mask &&& lowMask n)
    u.beat = r / 8 ∧ u.slot = (r % 8 + u.pass % 2) % 8

/-- The device with nothing about to meet its pipes on the core. -/
def Calm (s : State) (core : Nat) : State := s.modCore core fun k => { k with upsets := [] }

/-- A corrected compute error of the function has been counted (14 R339). -/
def Corrected (s : State) (func : Nat) : State :=
  s.modFunc func fun f => { f with errcnt := modAt f.errcnt 5 fun x => (min (x.1 + 1) (2 ^ 32 - 1), x.2) }

end Sys2Proof.Claims

/-- 10 R212 to R214, R219: the two passes of a beat run each lane in two slots and are compared before write-back. A difference that the
beat's retry does not repeat is counted, and the instruction has its effect; one that the retry repeats faults CHECK_FAIL on every active
lane, writes no lane and takes the core out of use. With checking off each beat runs once. Here for the integer instructions. -/
def Sys2Proof.Claims.PassesAreCompared : Prop :=
  ∀ (i : Instr) (s : State) (c : Cur) (t : Team) (g : Gang) (d : BitVec 6) (os : List Opnd) (ss : List (Src × Src)) (T : Tag)
    (u w : PipeUpset),
    intForm g i = some (d, os, ss) → Acts s c t g → Ample (Calm s t.core) c → Shaped g → TypedBy false (intTags i) ss (some d.toNat) T →
    Meets c u →
    (t.check = true → u.pass < 2 → (s.core t.core).upsets = [u] → exec i s = exec i (Corrected (Calm s t.core) t.func)) ∧
    (t.check = true → u.pass < 2 → 2 ≤ w.pass → w.pass < 4 → Meets c w → u.beat = w.beat → (s.core t.core).upsets = [u, w] →
      ∃ v, exec i s = .next v ∧ v.teams = s.teams ∧ SameMemory s v ∧ (v.core t.core).outOfUse = true ∧
        (∃ r ∈ (v.func t.func).pend, r.code = .checkFail ∧ r.lanes = c.mask ∧ r.launch = c.launch ∧ r.team = c.team ∧ r.gang = c.gang ∧
          r.pc = c.pc ∧ r.word = c.word) ∧
        (if s.mayRollBack c.launch t.cluster then Act.event (.clusterRollback c.launch t.cluster (t.core / 8))
          else .event (.partitionReset t.func 1)) ∈ v.agenda) ∧
    (t.check = false → u.pass ≠ 0 → (s.core t.core).upsets = [u] → exec i s = exec i (Calm s t.core))

/-- 11 R247: a K step whose check fails is retried. When the retry passes, the step has its effect and counts one corrected compute error;
when it fails as well, the operation leaves the engine with CHECK_FAIL. Here for one signer. -/
def Sys2Proof.Claims.StepsAreChecked : Prop :=
  ∀ (s : State) (core id : Nat) (t : Team) (o : MatOp) (rows : List (List Nat)) (again : Bool),
    s.matOp? core id = some o → s.team? o.launch o.team = some t → t.core = core → o.begun = true → o.progress < o.k →
    (s.func t.func).frozen = false → s.kStep t o = some rows → (s.core core).engineUpsets = [again] →
    let s0 := s.modCore core fun k => { k with engineUpsets := [] }
    (again = false → exec (.matrixKStep core id) s = exec (.matrixKStep core id) (Corrected s0 t.func)) ∧
    (again = true → ∀ y g, o.signers = [y] → y.matrix = true → t.gangs[y.gang]? = some g →
      ∃ v, exec (.matrixKStep core id) s = .next v ∧ v.matOp? core id = none ∧ SameMemory s v ∧ (v.core core).outOfUse = true ∧
        v.gang? o.launch o.team y.gang = some (g.flagDown y.flag) ∧
        (∃ r ∈ (v.func t.func).pend, r.code = .checkFail ∧ r.launch = o.launch ∧ r.team = o.team ∧ r.gang = y.gang ∧ r.lanes = g.live ∧
          r.pc = y.pc ∧ r.word = o.word) ∧
        (if s.mayRollBack o.launch t.cluster then Act.event (.clusterRollback o.launch t.cluster (core / 8))
          else .event (.partitionReset t.func 1)) ∈ v.agenda)

/-! ### Entries, walks, page requests and pools (03 R68 to R72, 07 R164, 08 R181, 13 R290, 14 R315, R316) -/

namespace Sys2Proof.Claims

/-- A gang in which the element of lane `lane` of operation `id` changes. -/
def elemBecomes (g : Gang) (id lane : Nat) (f : Elem → Elem) : Gang :=
  { g with ops := g.ops.map fun o =>
      if o.id = id then { o with elems := o.elems.map fun e => if e.lane = lane then f e else e } else o }

def chunksBecome (f : Chunk → Chunk) (x : Copy) : Copy := { x with chunks := x.chunks.map f }
def lanesBecome (f : CpytLane → CpytLane) (x : Cpyt) : Cpyt := { x with lanes := x.lanes.map f }

/-- A record that waits at the reporting port of the function (14 Table 14-2). -/
def Posted (u : State) (func : Nat) (P : Record → Prop) : Prop := ∃ r ∈ (u.func func).pend, P r

/-- The lanes `m` of a gang have ended: they stand in no entry of its frontier and its team launches no successor. -/
def Ended (s u : State) (l tn k : Nat) (g : Gang) (m : Mask) : Prop :=
  (∃ g', u.gang? l tn k = some g' ∧ g'.exited = g.exited ||| m ∧ ∀ x ∈ g'.frontier, x.mask &&& m = 0) ∧
  ((u.team? l tn).map (·.faulted)) = ((s.team? l tn).map fun _ => true)

/-- The lane of the operation waits for this walk, which it shares with nobody. -/
structure Walking (s : State) (die : Nat) (w : Walk) (sh : Sharer) (l tn k id lane : Nat) (g : Gang) (o : MemOp) (x : Elem) : Prop where
  walk : (s.die die).walks.find? (fun y => y.id == w.id && y.started) = some w
  alone : w.sharers = [sh]
  who : sh.who = .op l tn k id lane
  team : (s.team? l tn).map (·.func) = some w.func
  gang : s.gang? l tn k = some g
  op : g.op? id = some o
  elem : o.elems.find? (·.lane == lane) = some x
  waits : x.st = .walking

end Sys2Proof.Claims

/-- 13 R290, 07 R164: an entry of age 256 is promoted; a polling entry whose 64 cycles have passed is ready when its tile has left EMPTY, and
else goes into the wait table when that has room. -/
def Sys2Proof.Claims.EntriesPromotedAndRetested : Prop :=
  ∀ (s : State) (l tn k eid core n since : Nat) (b : Buf) (g : Gang) (e : Entry),
    s.gang? l tn k = some g → g.entry? eid = some e →
    (256 ≤ e.age → e.promoted = none → ∃ u g' e', exec (.entryPromotion l tn k eid) s = .next u ∧ u.gang? l tn k = some g' ∧
      g'.entry? eid = some e' ∧ e' = { e with promoted := some g.lastIssue } ∧ { g' with frontier := g.frontier } = g ∧
      { u with teams := s.teams } = s) ∧
    (e.st = .polling core b n since → since + 64 ≤ s.now →
      let st := if (record s core b n).armed && !(record s core b n).full then
          (if s.waiters (s.coreOf l tn) < 512 then ESt.tile core b n else ESt.polling core b n s.now)
        else ESt.ready
      exec (.pollingRetest l tn k eid) s = .next (s.modEntry l tn k eid fun x => { x with st := st }))

/-- 03 R72: a free walker takes, of the waiting walks, the oldest of the function that comes first after the one last served; the oldest of
each other function counts one more passing. A walk passed 63 times goes first. -/
def Sys2Proof.Claims.WalksStart : Prop :=
  ∀ (s : State) (die : Nat), let d := s.die die
    let waiting := d.walks.filter fun w => !w.started
    waiting ≠ [] → (d.walks.filter (·.started)).length < 32 → (d.walks.map (·.id)).Nodup → (∀ w ∈ d.walks, w.func < 64) →
    ∃ w, waiting.find? (fun x => x.id == w.id) = some w ∧
      ((∀ x ∈ waiting, x.passed < 63) → waiting.find? (fun x => x.func == w.func) = some w ∧
        ∀ x ∈ waiting, (w.func + 127 - d.lastFunc % 64) % 64 ≤ (x.func + 127 - d.lastFunc % 64) % 64) ∧
      (∀ x, waiting.find? (fun y => decide (63 ≤ y.passed)) = some x → w = x) ∧
      exec (.walkStart die) s = .next (s.setDie { d with
        lastFunc := w.func
        walks := d.walks.map fun x =>
          if x = w then { x with started := true }
          else if x.started = false ∧ x.func ≠ w.func ∧ waiting.find? (fun y => y.func == x.func) = some x then
            { x with passed := x.passed + 1 }
          else x })

/-- 03 R68, R71, R72, 04 R101, 14 R314 to R317: a walk ends and its sharer receives its result. A translation that passes its checks is kept in
the TLBs and lets the lane's access go on; a miss parks the lane on a page request, which is recorded, in an entry that goes on with the
operation; any other fault ends the lane with a terminal record. Memory reads as before. -/
def Sys2Proof.Claims.WalksEnd : Prop :=
  ∀ (s : State) (die : Nat) (w : Walk) (sh : Sharer) (l tn k id lane : Nat) (g : Gang) (o : MemOp) (x : Elem),
    Walking s die w sh l tn k id lane g o x → Roomy s → o.once = 0 →
    (∀ tr a, judgeEnd (s.walk w.func (w.page * 65536) [sh.need]).1 sh.gva sh.need (o.kind.use.access o.kind.size) = .ok tr → tr.tgt = .mem a →
      typeAllows o.kind.use tr.ty tr.tgt = true → kindFor o.kind.use tr.tgt = true → (s.core (s.coreOf l tn)).locks = [] →
      ∃ u, exec (.walkComplete die w.id) s = .next u ∧ SameMemory s u ∧ (∀ y ∈ (u.die die).walks, y.id ≠ w.id) ∧
        u.gang? l tn k = some (elemBecomes g id lane fun e => { e with st := .pending, trans := some tr }) ∧
        (w.noInstall = false → sh.gva / 65536 = w.page → ∃ y ∈ (u.core (s.coreOf l tn)).tlb, y.serves w.func sh.gva = true ∧
          judge y.leaf1 y.lvl1 (.leaf y.leaf2 y.lvl2) sh.gva sh.need (o.kind.use.access o.kind.size) = .ok tr)) ∧
    (∀ f owner, judgeEnd (s.walk w.func (w.page * 65536) [sh.need]).1 sh.gva sh.need (o.kind.use.access o.kind.size) = .error f →
      (f.code = .s1Miss ∧ owner = w.func) ∨ (f.code = .s2Miss ∧ owner = 0) → s.pageReqs = [] →
      ∃ u, exec (.walkComplete die w.id) s = .next u ∧ SameMemory s u ∧ (∀ y ∈ (u.die die).walks, y.id ≠ w.id) ∧
        (∃ g', u.gang? l tn k = some g' ∧
          { g' with frontier := g.frontier } = elemBecomes g id lane (fun e => { e with st := .parked owner (s.nextReq % 2 ^ 32) }) ∧
          (∀ y ∈ g'.frontier, y.mask.getLsbD lane = true → y.st = .parked owner (s.nextReq % 2 ^ 32) ∧ y.resume = .op id) ∧
          ∀ y ∈ g.frontier, y.mask ≠ 0 → y.mask.getLsbD lane = false → y.st ≠ .parked owner (s.nextReq % 2 ^ 32) → y ∈ g'.frontier) ∧
        u.pageReqs = [⟨owner, s.nextReq % 2 ^ 32, f.code, w.func, f.detail, sh.need, false, [⟨.op l tn k id lane, sh.need, sh.gva⟩]⟩] ∧
        Posted u owner fun r => r.ring = 0 ∧ r.code = f.code ∧ r.func = w.func ∧ r.detail = BitVec.ofNat 64 f.detail ∧
          r.reqId = s.nextReq % 2 ^ 32 ∧ r.need = sh.need) ∧
    (∀ f, judgeEnd (s.walk w.func (w.page * 65536) [sh.need]).1 sh.gva sh.need (o.kind.use.access o.kind.size) = .error f →
      f.code = .perm →
      ∃ u, exec (.walkComplete die w.id) s = .next u ∧ SameMemory s u ∧ (∀ y ∈ (u.die die).walks, y.id ≠ w.id) ∧
        Ended s u l tn k g (1#32 <<< lane) ∧
        Posted u w.func fun r => r.ring = 1 ∧ r.code = .perm ∧ r.detail = BitVec.ofNat 64 f.detail ∧ r.launch = l ∧ r.team = tn ∧
          r.gang = k ∧ r.lanes = 1#32 <<< lane ∧ r.pc = o.pc ∧ r.word = o.word)

/-- 14 R316: a reply closes its request. Retry lets every entry, chunk and row that waits on it walk again; refuse ends the lanes of a waiting
entry with PERM, detail 8, naming their instruction. -/
def Obligations.PageRequestsAnswered : Prop :=
  ∀ (s : State) (p : PageReq), s.pageReq? p.owner p.id = some p →
    (∃ u, exec (.pageReplyRetry p.owner p.id) s = .next u ∧ u.pageReq? p.owner p.id = none ∧ SameMemory s u ∧
      (∀ l tn k, u.gang? l tn k = (s.gang? l tn k).map fun g => g.mapEntries fun e =>
        if e.st = .parked p.owner p.id then { e with st := .ready } else e) ∧
      (∀ c, (u.core c).copies = (s.core c).copies.map (chunksBecome fun y =>
        if y.st = .parked p.owner p.id then { y with st := .running } else y)) ∧
      (∀ c, (u.core c).cpyts = (s.core c).cpyts.map (lanesBecome fun y =>
        if y.st = .parked p.owner p.id then { y with st := .pending } else y))) ∧
    ∀ l tn k g e, s.parkedEntries p.owner p.id = [(l, tn, k, e)] → s.gang? l tn k = some g → s.parkedElems p.owner p.id = [] →
      s.parkedChunks p.owner p.id = [] → s.parkedCpyts p.owner p.id = [] →
      (∀ sh ∈ p.sharers, ∃ l tn k id n, sh.who = .op l tn k id n) →
      ∃ u, exec (.pageReplyRefuse p.owner p.id) s = .next u ∧ u.pageReq? p.owner p.id = none ∧ SameMemory s u ∧ Ended s u l tn k g e.mask ∧
        Posted u (s.funcOf l tn) fun r => r.ring = 1 ∧ r.code = .perm ∧ r.detail = 8 ∧ r.launch = l ∧ r.team = tn ∧ r.gang = k ∧
          r.lanes = e.mask ∧ (r.pc, r.word) = s.instrAt (s.coreOf l tn) (s.funcOf l tn) e.pc

/-- 08 R181: a pool grants its oldest claim whole once it has the registers: a REGCLAIM goes on with a larger quota, in a new region; what a
waiting write needs is set aside for its gang. -/
def Sys2Proof.Claims.PoolsGrant : Prop :=
  ∀ (s : State) (core : Nat) (x : Claim) (g : Gang) (e : Entry),
    (s.core core).claims.find? (fun y => y.uni == x.uni) = some x → s.coreOf x.launch x.team = core →
    s.gang? x.launch x.team x.gang = some g → g.entry? x.ref = some e → g.hv ≤ g.qv → g.hs ≤ g.qs → g.qv ≤ 64 → g.qs ≤ 64 →
    x.count ≤ (if x.uni then (s.core core).poolS else (s.core core).poolV) →
    (x.kind = .write →
      ∃ u, exec (.poolGrant core x.uni) s = .next u ∧ SameMemory s u ∧
        u.gang? x.launch x.team x.gang = some { g with lent := g.lent ++ [⟨.write, x.ref, x.uni, x.count⟩] } ∧
        (u.core core).claims = (s.core core).claims.filter (· != x) ∧
        (u.core core).poolV = (s.core core).poolV - (if x.uni then 0 else x.count) ∧
        (u.core core).poolS = (s.core core).poolS - (if x.uni then x.count else 0)) ∧
    (x.kind = .regclaim → g.lent = [] → g.region.heldV = 0 → g.region.heldS = 0 →
      (if x.uni then g.qs else g.qv) + x.count ≤ 64 →
      ∃ u g' e', exec (.poolGrant core x.uni) s = .next u ∧ SameMemory s u ∧ u.gang? x.launch x.team x.gang = some g' ∧
        g'.qv = g.qv + (if x.uni then 0 else x.count) ∧ g'.qs = g.qs + (if x.uni then x.count else 0) ∧
        (u.core core).claims = (s.core core).claims.filter (· != x) ∧
        NewRegion g' (g.region.num + 1) (BitVec.allOnes 64) (BitVec.allOnes 64) ∧
        KeepsGang { g with replay := [] } g' [] [] [] ∧ g'.entry? x.ref = some e' ∧ e'.st = .ready ∧
        e'.pc = ((s.instrAt (s.coreOf x.launch x.team) (s.funcOf x.launch x.team) e.pc).1 + 4) % 2 ^ 55)

/-! ### Store queues, caches and stacks (03 R58 to R60, 04 R78 to R86, R93, R98, 14 R338) -/

namespace Sys2Proof.Claims

/-- A bundle of a gang, for statements about what happens to the gang between its bundles. -/
def place (l tn k : Nat) : Cur := ⟨l, tn, k, 0, 0, 0, 0, 0, 0, 0⟩

/-- A byte as the core's cache holds it, and as the core reads it: from its cache, else from the home. -/
def coreByte (s : State) (core a : Nat) : Option Byte :=
  (findLine (s.core core).cache (a / 128)).bind fun l => if l.valid.getLsbD (a % 128) then some (l.byte (a % 128)) else none
def seen (s : State) (core a : Nat) : Byte := (coreByte s core a).getD (s.homeGet a)

/-- The core reads `v` in the `n` bytes from `a`, in its own cache, and what it held elsewhere stays. -/
def CoreStored (s u : State) (core a n v : Nat) : Prop :=
  ∀ x, coreByte u core x = if a ≤ x ∧ x < a + n then some (BitVec.ofNat 8 (v / 2 ^ (8 * (x - a)))) else coreByte s core x

/-- The head of a gang's queue, with one lane's access; nothing else of the gang is in flight, and nothing was issued before it. -/
structure Head (s : State) (l tn k : Nat) (t : Team) (g : Gang) (x : StqEntry) (rest : List StqEntry) (e : Elem) : Prop where
  team : s.team? l tn = some t
  gang : t.gangs[k]? = some g
  queue : g.stq = x :: rest
  others : ∀ y ∈ rest, y.id ≠ x.id
  ops : g.ops = []
  requests : (s.core t.core).reqs.length ≤ Config.requesters
  one : x.elems = [e]
  waits : e.st = .pending
  lane : e.lane < 32

/-- A lookup of the line: what the core's cache holds of it, dirty bytes and all. -/
structure Cached (s : State) (core line : Nat) (ln : Line) : Prop where
  found : findLine (s.core core).cache line = some ln
  addr : ln.addr = line

/-- A core's cache has room for a line. -/
def CoreRoomy (s : State) (core : Nat) : Prop := (s.core core).cache.length < Config.coreWays * Config.coreWayLines

/-- The dirty bytes of the line that lie in `m` have gone to their home, and it left the FIFO and the markers; the teams that own them have
committed. -/
structure WrittenBack (s u : State) (core line : Nat) (ln : Line) (m : BitVec 128) : Prop where
  memory : ∀ x, u.homeGet x = if x / 128 = line ∧ (ln.dirty &&& m).getLsbD (x % 128) = true then ln.byte (x % 128) else s.homeGet x
  fifo : (u.core core).fifo = (s.core core).fifo.filter (·.line != line)
  markers : ∀ m ∈ (u.core core).markers, line ∉ m.lines
  commits : ∀ (k : Nat) o, k < 4 → ln.owner[k]? = some (some o) → ln.dirty &&& m &&& sectorMask k ≠ 0 →
    ∀ t, u.team? o.1 o.2 = some t → t.committed = true
  gangs : ∀ l t k, u.gang? l t k = s.gang? l t k

end Sys2Proof.Claims

/-- 04 R79, R81, R83, R84, R98, 05 R124: the head of a store queue leaves it. A store to a REL page enters its core's cache, dirty and in the
FIFO; a store to a SEQ or ONCE page waits for its home, where it is performed; an ATOMR is performed at the home; an arrival store writes the
buffer of its own device and counts there, and its team commits. Memory reads as before but for what is performed at a home. -/
def Sys2Proof.Claims.QueuedStoresDrain : Prop :=
  ∀ (s : State) (l tn k n a : Nat) (t : Team) (g : Gang) (x : StqEntry) (rest : List StqEntry) (e : Elem) (tr : Trans),
    Head s l tn k t g x rest e → e.trans = some tr → n = 1 ∨ n = 2 ∨ n = 4 ∨ n = 8 ∨ n = 16 → a % n = 0 →
    (x.kind = .st n → tr.tgt = .mem a → tr.ty = .rel → x.sent = false → s.yieldSector t.core a (some (l, tn)) = s →
      CoreRoomy s t.core →
      (s.core t.core).fifo.length < Config.fifoSize →
      ∃ u, exec (.storeQueueDrain l tn k) s = .next u ∧ Reaches s u (place l tn k) { g with stq := rest } id ∧ SameMemory s u ∧
        CoreStored s u t.core a n e.src.toNat ∧ (∃ f ∈ (u.core t.core).fifo, f.line = a / 128)) ∧
    (x.kind = .st n → tr.tgt = .mem a → tr.ty = .seq ∨ tr.ty = .once → x.sent = false →
      ∃ u, exec (.storeQueueDrain l tn k) s = .next u ∧ SameMemory s u ∧
        Reaches s u (place l tn k) { g with stq := { x with sent := true } :: rest } id) ∧
    (x.kind = .st n → tr.tgt = .mem a → tr.ty = .seq ∨ tr.ty = .once → x.sent = true → findLine (s.core t.core).cache (a / 128) = none →
      Roomy s →
      ∃ u, exec (.storeAck l tn k) s = .next u ∧ Stored s u a n e.src.toNat ∧
        Reaches s u (place l tn k) { g with stq := rest } fun y => { y with committed := y.committed || tr.ty == .seq }) ∧
    (∀ o3 sc wide, x.kind = .atomr o3 sc wide → n = (if wide then 8 else 4) → 2 ≤ sc.toNat → sc.toNat ≤ 4 → x.sent = false →
      x.tag = .i32 ∨ x.tag = .u32 ∨ x.tag = .i64 ∨ x.tag = .none → e.src.toNat < 2 ^ (8 * n) →
      tr.tgt = .mem a → tr.ty = .rel → findLine (s.core t.core).cache (a / 128) = none → s.homePoison (a / 32) = false →
      (∀ f ∈ s.flips, f.1 ≠ a / 32) → Roomy s →
      ∃ u, exec (.storeQueueDrain l tn k) s = .next u ∧
        Stored s u a n (atomResult o3.toNat (x.tag == .i32 || x.tag == .i64) (8 * n) (leNat (s.homeRead a n)) e.src.toNat) ∧
        Reaches s u (place l tn k) { g with stq := rest } fun y => { y with committed := true }) ∧
    (∀ c off sl, s.buffersOk → x.kind = .rstarv n → tr.tgt = .buf c .ab off sl → off % n = 0 → x.sent = false →
      ∃ u, exec (.storeQueueDrain l tn k) s = .next u ∧ SameMemory s u ∧ u.gang? l tn k = some { g with stq := rest } ∧
        (u.team? l tn).map (·.committed) = some true ∧
        (∀ y, bufByte u c .ab y = if off ≤ y ∧ y < off + n then BitVec.ofNat 8 (e.src.toNat / 2 ^ (8 * (y - off))) else bufByte s c .ab y) ∧
        ∀ y, record u c .ab y = if y = off / 4096 then (record s c .ab y).arrive n else record s c .ab y)

/-- 04 R79, R82, R91: a sector arrives at a core from its home and fills what its cache does not hold; the lane that waits takes its bytes. A
sector of a SEQ page stays out of the cache, and the bytes of the host window are the host's. Memory reads as before. -/
def Sys2Proof.Claims.SectorsArrive : Prop :=
  ∀ (s : State) (core l tn k id lane a n q : Nat) (x : MissSlot) (g : Gang) (o : MemOp) (e : Elem) (tr : Trans),
    (s.core core).slots.find? (·.id == x.id) = some x → s.onSlot core x.id = [⟨q, lane, (l, tn, k, id)⟩] →
    s.gang? l tn k = some g → g.stq = [] → g.op? id = some o → o.elems.find? (·.lane == lane) = some e → e.trans = some tr →
    o.kind.size = n → a % 32 + n ≤ 32 →
    (tr.tgt = .mem a → x.tgt = .mem (a / 32 * 32) → Roomy s →
      (x.alloc = true ∧ tr.ty ≠ .seq ∧ CoreRoomy s core ∧ s.yieldSector core a (some (l, tn)) = s) ∨
        (x.alloc = false ∧ tr.ty = .seq ∧ findLine (s.core core).cache (a / 128) = none) →
      ∃ u, exec (.sectorFill core x.id) s = .next u ∧ SameMemory s u ∧ (u.core core).slots = (s.core core).slots.filter (·.id != x.id) ∧
        (∀ y, coreByte u core y = if x.alloc = true ∧ y / 32 = a / 32 then some (seen s core y) else coreByte s core y) ∧
        ∃ bad, u.gang? l tn k = some (elemBecomes g id lane fun e =>
          { e with
            st := .done
            data := packBytes ((rangeFrom a n).map (seen s core))
            poison := bad })) ∧
    (tr.tgt = .host a → x.tgt = .host (a / 32 * 32) →
      ∃ u, exec (.sectorFill core x.id) s = .next u ∧ SameMemory s u ∧ u.gang? l tn k = some (elemBecomes g id lane fun e =>
          { e with
            st := .done
            data := packBytes ((rangeFrom a n).map fun y => Config.hostByte y s.free)
            poison := false }))

/-- 04 R83, R84: a dirty line goes back to its home when a release marker waits for it, when it has been in the FIFO for 65,536 cycles, or when
it is evicted; only an evicted line leaves the cache. Bytes of PRIV stores go home by an eviction alone (12 R264). -/
def Sys2Proof.Claims.DirtyLinesGoHome : Prop :=
  ∀ (s : State) (core line : Nat) (ln : Line), Cached s core line ln → Roomy s →
    let drained (u : State) : Prop := WrittenBack s u core line ln (~~~ ln.priv) ∧
      (findLine (u.core core).cache line).map (fun y => (y.data, y.valid, y.dirty, y.priv)) =
        some (ln.data, ln.valid, ln.dirty &&& ln.priv, ln.priv)
    ((∃ m ∈ (s.core core).markers, line ∈ m.lines) →
      ∃ u, exec (.dirtyLineWriteback core line) s = .next u ∧ drained u) ∧
    ((∃ f ∈ (s.core core).fifo, f.line = line ∧ f.since + 65536 ≤ s.now) →
      ∃ u, exec (.dirtyLineAgeExpiry core line) s = .next u ∧ drained u) ∧
    (∃ u, exec (.cacheEviction core line) s = .next u ∧ WrittenBack s u core line ln (BitVec.allOnes 128) ∧ findLine (u.core core).cache line = none)

/-- 04 R78, R86, 15 R340: the line at the head of a home's FIFO goes to the stack cache and stays clean, and its granule is marked dirty; lines of
a tenant in ways that it has lost are written back and dropped, and when none is left the reduction is reported. -/
def Sys2Proof.Claims.HomeLinesLeave : Prop :=
  ∀ (s : State) (line func : Nat) (ln : Line), Roomy s →
    (findLine s.home line = some ln → (s.die (homeDie (line * 128))).fifo.head? = some line →
      ∃ u, exec (.homeWriteback line) s = .next u ∧ SameMemory s u ∧ (u.die (homeDie (line * 128))).fifo = (s.die (homeDie (line * 128))).fifo.filter (· ≠ line) ∧
        (findLine u.home line).map (·.dirty) = some 0 ∧ u.teams = s.teams ∧
        ∀ k, k < 4 → ln.dirty &&& sectorMask k ≠ 0 → line / 32 ∈ u.bitmap ∧ ∀ j, j < 32 → u.stackGet (128 * line + 32 * k + j) = s.homeGet (128 * line + 32 * k + j)) ∧
    (findLine s.home line = some ln → ln.func = func → (s.func func).oldHways.getLsbD ln.way = true →
      (s.func func).cfg.hways.getLsbD ln.way = false → (s.die (homeDie (line * 128))).fifo.head? = some line →
      ∃ u, exec (.wayReductionLine func false line) s = .next u ∧ findLine u.home line = none ∧ (∀ x, x / 128 ≠ line → u.homeGet x = s.homeGet x) ∧
        u.teams = s.teams ∧
        ∀ k, k < 4 → ln.dirty &&& sectorMask k ≠ 0 → ∀ j, j < 32 → u.homeGet (128 * line + 32 * k + j) = s.homeGet (128 * line + 32 * k + j)) ∧
    (findLine s.stack line = some ln → ln.func = func → (s.func func).oldSways.getLsbD ln.way = true →
      (s.func func).cfg.sways.getLsbD ln.way = false → s.memOk →
      ∃ u, exec (.wayReductionLine func true line) s = .next u ∧ findLine u.stack line = none ∧ (∀ x, x / 128 ≠ line → u.homeGet x = s.homeGet x) ∧
        u.teams = s.teams ∧ u.memOk ∧
        ∀ k, k < 4 → ln.dirty &&& sectorMask k ≠ 0 → ∀ j, j < 32 → cellGet u.mem (128 * line + 32 * k + j) = s.stackGet (128 * line + 32 * k + j)) ∧
    ((s.func func).oldHways ≠ 0 ∨ (s.func func).oldSways ≠ 0 → (∀ l ∈ s.home, l.func = func → (s.func func).goneHome l.way = false) →
      (∀ l ∈ s.stack, l.func = func → (s.func func).goneStack l.way = false) →
      exec (.wayReductionComplete func) s = .next (s.modFunc func fun f => { f with oldHways := 0, oldSways := 0, status := f.status ||| 4 }))

/-- 03 R58, R60, 14 R338, R339: a scrub of a sector corrects one flip and counts it for every tenant, and marks the sector poisoned at more;
an error that the stack itself corrects is counted on the stack. A
parity error in a home or stack tag loses the line and resets the partitions whose ways include it; in a core's tag it is an uncorrectable
error that every team of the core has consumed. -/
def Sys2Proof.Claims.MemoryErrors : Prop :=
  ∀ (s : State) (sec line core : Nat) (ln : Line) (t : Team) (f : Func) (p : Nat × Nat),
    (32 * sec < 0xC000000000 → sec ∉ s.dieFlips → s.flips.filter (·.1 == sec) = [p] →
      ∃ u, exec (.patrolScrub sec) s = .next u ∧ SameMemory s u ∧ u.poison = s.poison ∧ u.flips = s.flips.filter (·.1 != sec) ∧
        (∀ n c, n = stackOf (32 * sec) → s.stackCnt[n]? = some c → u.stackCnt[n]? = some { c with corrected := c.corrected + 1 }) ∧
        u.funcs = s.funcs.map fun f => if f.cfg.bays ≠ 0 then { f with errcnt := modAt f.errcnt 1 fun c => (c.1, min (c.2 + 1) (2 ^ 32 - 1)) } else f) ∧
    (32 * sec < 0xC000000000 → 2 ≤ (s.flips.filter (·.1 == sec)).length →
      ∃ u, exec (.patrolScrub sec) s = .next u ∧ SameMemory s u ∧ sec ∈ u.poison ∧ sec / 128 ∈ u.bitmap ∧ u.flips = s.flips.filter (·.1 != sec)) ∧
    (32 * sec < 0xC000000000 → sec ∈ s.dieFlips → s.flips.filter (·.1 == sec) = [] →
      ∃ u, exec (.patrolScrub sec) s = .next u ∧ SameMemory s u ∧ u.poison = s.poison ∧ sec ∉ u.dieFlips ∧
        ∀ n c, n = stackOf (32 * sec) → s.stackCnt[n]? = some c → u.stackCnt[n]? = some { c with onDie := c.onDie + 1 }) ∧
    (findLine s.home line = some ln → ln.addr = line → s.funcs = [f] → f.cfg.bays ≠ 0 → f.cfg.hways.getLsbD ln.way = true →
      ∃ u, exec (.tagParityError .home 0 line) s = .next u ∧ findLine u.home line = none ∧
        (∀ x, x / 128 ≠ line → u.homeGet x = s.homeGet x) ∧ u.agenda = .event (.partitionReset f.id 2) :: s.agenda) ∧
    (findLine s.stack line = some ln → ln.addr = line → s.funcs = [f] → f.cfg.bays ≠ 0 → f.cfg.sways.getLsbD ln.way = true →
      ∃ u, exec (.tagParityError .stack 0 line) s = .next u ∧ findLine u.stack line = none ∧
        (∀ x, x / 128 ≠ line → u.homeGet x = s.homeGet x) ∧ u.agenda = .event (.partitionReset f.id 2) :: s.agenda) ∧
    (Cached s core line ln → s.teams.filter (·.core == core) = [t] → s.team? t.launch t.num = some t → t.st ≠ .waiting → s.agenda = [] →
      ∃ u, exec (.tagParityError .core core line) s = .next u ∧ SameMemory s u ∧ u.teams = s.teams ∧
        Posted u t.func (fun r => r.code = .uncorrData ∧ r.flags = 4 ∧ r.launch = t.launch ∧ r.team = t.num) ∧
        u.agenda = (if s.mayRollBack t.launch t.cluster then .event (.clusterRollback t.launch t.cluster (t.core / 8))
          else .event (.partitionReset t.func 1)) :: s.agenda)

/-! ### The fabric (chapter 05; 15 R348 to R351) -/

namespace Sys2Proof.Claims

/-- The core's one request is the access of a lane of an `ATOM` in flight. -/
structure Requests (s : State) (core : Nat) (r : FabReq) (l tn k id lane : Nat) (g : Gang) (o : MemOp) (e : Elem) : Prop where
  only : (s.core core).reqs = [r]
  owner : r.owner = .op l tn k id lane
  gang : s.gang? l tn k = some g
  op : g.op? id = some o
  ops : g.ops = [o]
  atomic : ∃ x sc w, o.kind = .atom x sc w
  each : o.once = 0
  elem : o.elems.find? (·.lane == lane) = some e
  waits : e.st = .fabric r.id
  lane : lane < 32

/-- The core's one request is the read of a sector of a peer for which a lane of a load waits (05 R118, R121). -/
structure Fetches (s : State) (core : Nat) (r : FabReq) (x : MissSlot) (plain : Bool) (l tn k id lane a : Nat) (g : Gang) (o : MemOp)
    (e : Elem) : Prop where
  only : (s.core core).reqs = [r]
  owner : r.owner = .fill core x.id plain
  kind : r.pkt.kind = .read
  issuer : r.pkt.launch = l ∧ r.pkt.team = tn ∧ r.pkt.gang = k
  slot : (s.core core).slots.find? (·.id == x.id) = some x
  waits : ∃ q, s.onSlot core x.id = [⟨q, lane, (l, tn, k, id)⟩]
  gang : s.gang? l tn k = some g
  queue : g.stq = []
  op : g.op? id = some o
  ops : g.ops = [o]
  each : o.once = 0
  elem : o.elems.find? (·.lane == lane) = some e
  target : ∃ tr v, e.trans = some tr ∧ tr.tgt = .peer v a
  inside : a % 32 + o.kind.size ≤ 32 ∧ o.kind.size ≤ 16
  lane : lane < 32

/-- An answer to the request, which this device can open (05 R115). -/
structure AnswerTo (s : State) (y : Reply) (core id : Nat) : Prop where
  dst : y.dst = s.device
  core : y.core = core
  req : y.req = id
  opens : y.key.isSome = true ∧ s.keyOf y.kslot = y.key

/-- Packets that this device has sealed under a key slot (05 R115). -/
def sealedUnder (s : State) (slot : Nat) : Nat := ((s.nonces.find? (·.1 == slot)).map (·.2)).getD 0

/-- The nonce of the next one: the source device, its slot and the slot's count. -/
def nextNonce (s : State) (slot : Nat) : Nat := s.device * 2 ^ 88 + slot * 2 ^ 82 + sealedUnder s slot

/-- The packet of a request as it is sent now: sealed under the key of its function's slot, with that slot's next nonce. -/
def sealed (s : State) (func : Nat) (p : Packet) : Packet :=
  { p with
    key := s.keyOf (s.func func).cfg.kslot
    nonce := nextNonce s (s.func func).cfg.kslot
    age := 0
    chan := .minimal
    via := none
    src := s.device }

/-- The answer to a request of another device stands among those that the router sends on. -/
def answering (s : State) (p : Packet) (a : Answer) : State :=
  { s with
    nonces := putBy (·.1 == p.kslot) (p.kslot, sealedUnder s p.kslot + 1) s.nonces
    replies := s.replies ++ [(⟨⟨p.src, s.device, p.core, p.req⟩,
      ⟨p.nonce / 2 ^ 82 % 64, p.func, p.gen, s.keyOf p.kslot, nextNonce s p.kslot⟩⟩, a)] }

/-- A request of another device that this one takes and performs: it is for a function that stays here, its seal is good, its segment has room,
and stage 2 leads its address to `t`. -/
structure Taken (s : State) (p : Packet) (t : Tgt) : Prop where
  here : p.dst = s.device
  remote : p.src ≠ s.device
  stays : (s.func p.func).mirror = none ∧ (s.func p.func).moved = false ∧ (s.func p.func).migration = none ∧ (s.func p.func).hold = []
  key : p.key.isSome = true ∧ s.keyOf p.kslot = p.key
  room : s.segments.length < Config.streamTable
  leads : ∃ e lvl, (s.stage2 p.func p.gpa).1 = .leaf e lvl ∧ permits2 e (pktNeed p.kind) = true ∧ targetOf e lvl p.gpa = t
  memory : ∀ a, t = .mem a → a < 0xC000000000
  size : p.size = 2 ∨ p.size = 4 ∨ p.size = 8 ∨ p.size = 16 ∨ p.size = 32
  roomy : Roomy s

/-- The request has been answered, under the key of the function that it was for. -/
def Answered (s u : State) (p : Packet) (a : Answer) : Prop :=
  ∃ y : Reply, u.replies = s.replies ++ [(y, a)] ∧ y.dst = p.src ∧ y.src = s.device ∧ y.core = p.core ∧ y.req = p.req ∧
    y.kslot = p.nonce / 2 ^ 82 % 64 ∧ y.key = s.keyOf p.kslot

/-- The packet is not too old once this router has added to its age (05 R109); what it adds is a free value (log 23). -/
def OnTime (s : State) (p : Packet) : Prop := p.age + Config.transit s.free ≤ 2000

/-- The packet's arrival has the effect `P` when it is on time, and is turned back with NACK-age when it is not. -/
def Performs (i : Instr) (s : State) (p : Packet) (P : State → Prop) : Prop :=
  ∃ u, exec i s = .next u ∧ (OnTime s p → P u) ∧ (¬ OnTime s p → u = answering { s with free := s.free + 1 } p (.nack .age))

/-- One more packet of its segment is settled. -/
def Settled (s u : State) (p : Packet) : Prop :=
  (u.segments.find? (·.owns p)).map (·.settled) = some (((s.segments.find? (·.owns p)).map (·.settled)).getD 0 + 1)

end Sys2Proof.Claims

/-- 05 R108 to R111, R114, R118, R124: OK gives the waiting lane its bytes, those of a load from the sector that was read; FAULT ends the lane
with a record that says so; NACK number k waits 4^k µs and the fifth is FABRIC_TIMEOUT; NACK-moved reads the device entry again once and sends
the request where it leads. -/
def Sys2Proof.Claims.RepliesReachTheirLanes : Prop :=
  ∀ (s : State) (core l tn k id lane : Nat) (r : FabReq) (g : Gang) (o : MemOp) (e : Elem) (y : Reply), AnswerTo s y core r.id →
    (Requests s core r l tn k id lane g o e →
      (∀ (data : BitVec 256) (bad : Bool), (s.func r.func).recmode = none →
        ∃ u, exec (.fabricOk y.toReplyTo y.toSeal data bad) s = .next u ∧ (u.core core).reqs = [] ∧ { u with teams := s.teams, cores := s.cores } = s ∧
        u.gang? l tn k = some (elemBecomes g id lane fun x =>
          if x.st == .fabric r.id then { x with st := .done, data := BitVec.ofNat 128 (data.toNat % 2 ^ 64), poison := bad } else x)) ∧
      (∀ code detail, code = .perm ∨ code = .typeOp ∨ code = .bufBound ∨ code = .bufRights ∨ code = .misalign →
        ∃ u, exec (.fabricFault y.toReplyTo y.toSeal code detail) s = .next u ∧ SameMemory s u ∧ (u.core core).reqs = [] ∧
          Ended s u l tn k g (1#32 <<< lane) ∧
          Posted u (s.funcOf l tn) fun y => y.ring = 1 ∧ y.code = code ∧ y.detail = detail ∧ y.flags = 2 ∧ y.lanes = 1#32 <<< lane ∧
            y.pc = o.pc ∧ y.word = o.word) ∧
      (∀ kind : NackKind, r.retries < 4 →
        ∃ u, exec (.fabricNack y.toReplyTo y.toSeal kind) s = .next u ∧ { u with cores := s.cores } = s ∧
          (u.core core).reqs = [{ r with retryAt := some (s.now + 4 ^ (r.retries + 1) * 2250) }]) ∧
      (∀ kind : NackKind, 4 ≤ r.retries → ∀ n : Nat, n = (match kind with | .age => 1 | .route => 2 | .busy => 3 | .auth => 4) →
        ∃ u, exec (.fabricNack y.toReplyTo y.toSeal kind) s = .next u ∧ SameMemory s u ∧ (u.core core).reqs = [] ∧ Ended s u l tn k g (1#32 <<< lane) ∧
          Posted u (s.funcOf l tn) fun y => y.code = .fabricTimeout ∧
            y.detail = BitVec.ofNat 64 (n * 2 ^ 60 + r.pkt.dst * 2 ^ 52 + r.pkt.gpa % 2 ^ 52)) ∧
      (∀ d, r.moved = false → s.resolve r.func r.vdn = .ok d →
        let p := sealed s r.func { r.pkt with dst := d.dev, func := d.func, kslot := d.kslot, gen := d.gen }
        ∃ u, exec (.nackMoved y.toReplyTo y.toSeal) s = .next u ∧ { u with cores := s.cores, router := s.router, nonces := s.nonces } = s ∧
          (u.core core).reqs = [{ r with moved := true, pkt := p, sentAt := s.now, retryAt := none }] ∧ u.router = s.router ++ [p])) ∧
    ∀ (x : MissSlot) (plain : Bool) (a : Nat), Fetches s core r x plain l tn k id lane a g o e →
      (∀ (data : BitVec 256) (bad : Bool), ∃ u, exec (.fabricOk y.toReplyTo y.toSeal data bad) s = .next u ∧ (u.core core).reqs = [] ∧
        { u with teams := s.teams, cores := s.cores } = s ∧ (u.core core).slots = (s.core core).slots.filter (·.id != x.id) ∧
        u.gang? l tn k = some (elemBecomes g id lane fun z =>
          { z with
            st := .done
            data := BitVec.ofNat 128 (data.toNat / 2 ^ (8 * (a % 32)) % 2 ^ (8 * o.kind.size))
            poison := bad })) ∧
      (∀ code detail, code = .perm ∨ code = .typeOp ∨ code = .bufBound ∨ code = .bufRights ∨ code = .misalign →
        ∃ u, exec (.fabricFault y.toReplyTo y.toSeal code detail) s = .next u ∧ SameMemory s u ∧ (u.core core).reqs = [] ∧
          Ended s u l tn k g (1#32 <<< lane) ∧
          Posted u (s.funcOf l tn) fun y => y.ring = 1 ∧ y.code = code ∧ y.detail = detail ∧ y.flags = 2 ∧ y.lanes = 1#32 <<< lane)

/-- 05 R111: when its delay is over a request is sent again, sealed anew; after 2 ms without a reply a plain load counts a retry, and any other
request, an LDACQ among them, is FABRIC_TIMEOUT, reply kind 15. -/
def Sys2Proof.Claims.RequestsAreTimed : Prop :=
  ∀ (s : State) (core : Nat) (r : FabReq), (s.core core).reqs = [r] →
    (∀ l tn k id lane at_, r.owner = .op l tn k id lane → r.retryAt = some at_ → at_ ≤ s.now →
      let p := sealed s r.func r.pkt
      ∃ u, exec (.fabricRetryTimer core r.id) s = .next u ∧ { u with cores := s.cores, router := s.router, nonces := s.nonces } = s ∧
        (u.core core).reqs = [{ r with retries := r.retries + 1, pkt := p, sentAt := s.now, retryAt := none }] ∧ u.router = s.router ++ [p]) ∧
    (r.held = false → r.retryAt = none → r.sentAt + 2000 * 2250 ≤ s.now →
      (∀ slot, r.owner = .fill core slot true → r.retries < 4 →
        ∃ u, exec (.fabricAttemptTimeout core r.id) s = .next u ∧ { u with cores := s.cores } = s ∧
          (u.core core).reqs = [{ r with retryAt := some (s.now + 4 ^ (r.retries + 1) * 2250) }]) ∧
      (∀ l tn k lane pc word g, r.pkt.kind ≠ .read → r.owner = .store l tn k lane pc word → s.gang? l tn k = some g → g.ops = [] →
        ∃ u, exec (.fabricAttemptTimeout core r.id) s = .next u ∧ SameMemory s u ∧ (u.core core).reqs = [] ∧ Ended s u l tn k g g.live ∧
          Posted u (s.funcOf l tn) fun y => y.code = .fabricTimeout ∧ y.lanes = 1#32 <<< lane ∧ y.pc = pc ∧ y.word = word ∧
            y.detail = BitVec.ofNat 64 (15 * 2 ^ 60 + r.pkt.dst * 2 ^ 52 + r.pkt.gpa % 2 ^ 52)))

/-- 05 R103 to R107, R109: the router ages a packet, by a time that is a free value (log 23): one older than 250 µs is turned back, any
other leaves on an up port towards its destination that has a credit, itself a free value; else it waits. -/
def Sys2Proof.Claims.PacketsAreRouted : Prop :=
  ∀ (s : State) (p : Packet) (rest : List Packet), s.router = p :: rest → p.dst ≠ s.device → p.src ≠ s.device →
    let p1 := { p with age := p.age + Config.transit s.free }
    let back := answering { s with router := rest, free := s.free + 1 } p (.nack .age)
    let waits := { s with free := s.free + 1 }
    (2000 < p.age → exec (.routerPacket 0) s = .next back) ∧
    (∀ port, s.minPorts p.dst = [port] → s.portUp port = true → exec (.routerPacket 0) s = .next (if 2000 < p1.age then back
      else if Config.credits s.free port = 0 then waits else
      { s with router := rest, free := s.free + 1, sent := s.sent ++ [.packet port { p1 with chan := .minimal }] })) ∧
    ((∀ port ∈ s.minPorts p.dst, s.portUp port = false) → exec (.routerPacket 0) s = .next (if 2000 < p1.age then back else waits))

/-- 05 R103: a port goes down, and comes up where it leads to a device of the grid; a port beyond the grid stays as it is. -/
def Sys2Proof.Claims.LinksChange : Prop :=
  ∀ (s : State) (port : Nat), port < s.ports.length →
    exec (.linkDown port) s = .next { s with ports := s.ports.set port ⟨false⟩ } ∧
    (s.portUsed port = true → exec (.linkUp port) s = .next { s with ports := s.ports.set port ⟨true⟩ }) ∧
    (s.portUsed port = false → exec (.linkUp port) s = .next s)

/-- 05 R110, R115, R117, R119 to R121, R124: a request that arrives at its target is performed at the home of the address that stage 2 gives it,
and answered: a read with the bytes, a store, an atomic or a reducing write with the change, an arrival store in the target's buffer. An
RSTREL is held in its segment; a close packet ends the segment; a bad seal is refused. A request that is too old when it arrives is turned back. -/
def Sys2Proof.Claims.TargetsPerform : Prop :=
  ∀ (s : State) (p : Packet) (a : Nat),
    (Taken s p (.mem a) → a % p.size = 0 →
      (p.kind = .read ∨ p.kind = .copyRead → Performs (.fabricRead p) s p fun u => ∃ bad, SameMemory s u ∧ u.teams = s.teams ∧
        Answered s u p (.ok (BitVec.ofNat 256 (leNat (s.homeRead a p.size))) bad)) ∧
      (p.kind = .store ∨ p.kind = .rfence ∨ p.kind = .copyWrite → Performs (.fabricStore p) s p fun u =>
        Stored s u a p.size p.data.toNat ∧ u.teams = s.teams ∧ Answered s u p (.ok 0 false) ∧ (p.kind ≠ .copyWrite → Settled s u p)) ∧
      (p.kind = .atom ∨ p.kind = .atomr ∨ p.kind = .cas → p.size = 4 ∨ p.size = 8 → p.rtype ≤ 1 →
        s.homePoison (a / 32) = false → s.flips = [] →
        let old := leNat (s.homeRead a p.size)
        let x := p.data.toNat % 2 ^ (8 * p.size)
        Performs (.fabricAtomic p) s p fun u => u.teams = s.teams ∧ Answered s u p (.ok (BitVec.ofNat 256 old) false) ∧ Settled s u p ∧
          Stored s u a p.size (if p.kind = .cas then (if old = p.cmp.toNat then x else old)
            else atomResult (min p.op 7) (p.rtype == 1) (8 * p.size) old x)) ∧
      (p.kind = .reduce → p.rtype = 2 → p.size = 4 → p.op = 1 ∨ p.op = 2 ∨ p.op = 3 →
        let old := leNat (s.homeRead a 4)
        let x := p.data.toNat % 2 ^ 32
        Performs (.fabricReducingWrite p) s p fun u => u.teams = s.teams ∧ Answered s u p (.ok 0 false) ∧
          Stored s u a 4 (atomResult (if p.op = 1 then 0 else p.op - 1) true 32 old x))) ∧
    (∀ core off sl, Taken s p (.buf core .ab off sl) → s.buffersOk → p.kind = .rstarv → off % p.size = 0 → off + p.size ≤ sl →
      off + p.size ≤ 786432 →
      Performs (.fabricRstarv p) s p fun u => SameMemory s u ∧ Answered s u p (.ok 0 false) ∧
        (∀ y, bufByte u core .ab y = if off ≤ y ∧ y < off + p.size then BitVec.ofNat 8 (p.data.toNat / 2 ^ (8 * (y - off))) else bufByte s core .ab y) ∧
        ∀ y, record u core .ab y = if y = off / 4096 then (record s core .ab y).arrive p.size else record s core .ab y) ∧
    (∀ t, Taken s p t → p.kind = .rstrel → Performs (.fabricRstrel p) s p fun u =>
      { u with segments := s.segments, free := s.free } = s ∧
      (u.segments.find? (·.owns p)).map (·.held) =
        some (((s.segments.find? (·.owns p)).map (·.held)).getD [] ++ [{ p with age := p.age + Config.transit s.free }])) ∧
    (∀ t, Taken s p t → p.kind = .close → Performs (.fabricClosePacket p) s p fun u =>
      { u with segments := s.segments, replies := s.replies, nonces := s.nonces, free := s.free } = s ∧
      u.segments = s.segments.filter (fun x => !x.owns p) ∧ Answered s u p (.ok 0 false)) ∧
    (p.dst = s.device → p.src ≠ s.device → (s.func p.func).mirror = none → (s.func p.func).moved = false →
      (s.func p.func).migration = none → (s.func p.func).hold = [] → p.kind = .store → p.key = none ∨ s.keyOf p.kslot ≠ p.key →
      Performs (.fabricStore p) s p fun u => Answered s u p (.nack .auth) ∧ SameMemory s u ∧ u.teams = s.teams)

/-- 05 R119: when the packets of an RSTREL are all here and what they count is settled, they are performed and their segment ends; here with one
packet. -/
def Sys2Proof.Claims.ReleasesPerform : Prop :=
  ∀ (s : State) (x : Segment) (p : Packet) (a : Nat), x ∈ s.segments → x.held = [p] → p.group ≤ 1 → p.count ≤ x.settled → x.owns p = true →
    (∀ y ∈ s.segments, y.src = x.src → y.launch = x.launch → y.team = x.team → y.gang = x.gang → y = x) →
    Taken s p (.mem a) → a % p.size = 0 → p.kind = .rstrel →
    ∃ u, exec (.rstrelPerform x.src x.launch x.team x.gang) s = .next u ∧ Stored s u a p.size p.data.toNat ∧
      Answered s u p (.ok 0 false) ∧ x ∉ u.segments ∧ u.teams = s.teams

/-- 15 R350, R351: the request that was held first is performed once the function has moved in; a forward packet is performed as the function and
slot that the forward table gives it, and one that the table does not know is answered NACK-moved. -/
def Sys2Proof.Claims.MovedRequestsPerform : Prop :=
  ∀ (s : State) (p : Packet) (a : Nat), a % p.size = 0 → p.kind = .store → s.tileWait = [] →
    (∀ rest, (s.func p.func).hold = p :: rest → (s.func p.func).migration = none → (s.func p.func).receive = none →
      Taken (s.modFunc p.func fun f => { f with hold := [] }) p (.mem a) →
      ∃ u, exec (.heldRequestReplay p.func) s = .next u ∧ Stored s u a p.size p.data.toNat ∧ (u.func p.func).hold = rest ∧
        Answered s u p (.ok 0 false)) ∧
    (∀ d f q, s.forwards.find? (fun x => x.1 == p.dst && x.2.1 == p.func) = some (p.dst, p.func, d, f) →
      q = { p with func := f, dst := s.device, kslot := (s.func f).cfg.kslot } → Taken s q (.mem a) → (s.func f).receive = none →
      ∃ u, exec (.forwardPacket p) s = .next u ∧ Stored s u a p.size p.data.toNat ∧ Answered s u q (.ok 0 false)) ∧
    (s.forwards.find? (fun x => x.1 == p.dst && x.2.1 == p.func) = none → p.src ≠ s.device →
      exec (.forwardPacket p) s = .next (answering s p .moved))

/-! ### User-mode queues (06 R147 to R152, 13 R283 to R285, 16 R359) -/

namespace Sys2Proof.Claims

/-- An access of the scheduler that passes its checks and leads to device memory at `a`. -/
def Leads (s : State) (func va n : Nat) (u : Use) (a : Nat) : Prop :=
  ∃ tr, (s.qAccess func va n u).1 = .ok tr ∧ tr.tgt = .mem a

/-- Memory without errors, and caches with room. -/
structure NoErrors (s : State) : Prop where
  roomy : Roomy s
  flips : s.flips = []
  poison : ∀ sec, s.homePoison sec = false

/-- A function's one queue stands at a ready packet `b` of index `i`: its header lies at `h`, the slot at `a`; the scheduler may read it,
and nothing that was launched before is left. -/
structure AtPacket (s : State) (func page i h a : Nat) (q : Queue) (b : List Byte) : Prop where
  queue : (s.func func).queues = [q]
  page : q.page = page
  reads : q.readable = true ∧ q.stopped = false ∧ q.parked = false ∧ q.running = [] ∧ q.seen = true ∧ q.lastRd = i ∧ q.force = 0 ∧ q.wrote = 0
  runs : (s.func func).frozen = false ∧ (s.func func).recmode = none
  launches : s.launches = []
  quiet : ∀ c ∈ s.cores, c.reqs = []
  clean : NoErrors s
  header : Leads s func q.header 8 .ldacq h ∧ Leads s func (q.header + 24) 8 .strel (h + 24) ∧ badHeader (s.homeRead h 64) = none ∧ h % 64 = 0
  slot : ∀ u ∈ [Use.ldacq, Use.store],
    Leads s func ((leNat (s.homeRead h 8) + 64 * (i % leNat (s.homeRead (h + 8) 4))) % 2 ^ 64) 8 u a
  apart : a % 64 = 0 ∧ a ≠ h
  bytes : s.homeRead a 64 = b
  ready : b.getD 1 0 = 1
  index : i + 1 < 2 ^ 64

/-- The two writes that start a packet: its ready byte becomes 0, and rd the next index. -/
def started (s : State) (func i h a : Nat) : State :=
  (s.homeWrite (a + 1) func [0] false).homeWrite (h + 24) func (leBytes (i + 1) 8) false
def Started (s u : State) (i h a : Nat) : Prop :=
  ∀ x, u.homeGet x = if x = a + 1 then 0 else if h + 24 ≤ x ∧ x < h + 32 then BitVec.ofNat 8 ((i + 1) / 2 ^ (8 * (x - (h + 24)))) else s.homeGet x

/-- The function's queue has moved past the packet, with `r` running. -/
def QueueMoves (u : State) (func : Nat) (q : Queue) (i : Nat) (r : List QPacket) : Prop :=
  (u.func func).queues = [{ q with lastRd := i + 1, running := r }]

/-- A packet that has started stands alone in its queue, and no request of the scheduler is out. -/
structure Waits (s : State) (func page : Nat) (q : Queue) (p : QPacket) : Prop where
  queue : (s.func func).queues = [q]
  page : q.page = page
  alone : q.running = [p]
  runs : q.parked = false
  quiet : ∀ c ∈ s.cores, c.reqs = []
  limit : (s.func func).cfg.tlimit = false
  clean : NoErrors s

end Sys2Proof.Claims

/-- 06 R149, R150, 13 R283: the scheduler takes the packet at rd: NOP starts and completes; LAUNCH enters the dispatcher and starts only with its
first cluster; COPY starts with its chunks and locks; an unready slot ends the reading. -/
def Obligations.QueuesTakePackets : Prop :=
  ∀ (s : State) (func page i h a : Nat) (q : Queue) (b : List Byte), AtPacket s func page i h a q b →
    (b.getD 0 0 = 0 → (∀ k, 2 ≤ k → k < 64 → b.getD k 0 = 0) →
      ∃ u, exec (.queueNop func page) s = .next u ∧ Started s u i h a ∧ QueueMoves u func q i [] ∧ u.teams = s.teams) ∧
    (b.getD 0 0 = 1 → badLaunch b false = none → s.cannotFit func (launchOf b) = false →
      ((launchOf b).range = true → (launchOf b).lo ≠ (launchOf b).hi) →
      ∃ u l, exec (.queueLaunch func page) s = .next u ∧ SameMemory s u ∧ (u.func func).queues = [q] ∧ u.teams = s.teams ∧ u.launches = [l] ∧
        l.id = s.launchId ∧ l.func = func ∧ l.queue = some (page, i) ∧ l.root = some (page, i) ∧ l.pkt = launchOf b ∧ l.nextCluster = 0 ∧
        l.parent = 0 ∧ u.launchCount = s.launchCount + 1) ∧
    (∀ core ws, b.getD 0 0 = 2 → ws = (rangeFrom 0 8).map (fun k => BitVec.ofNat 64 (leField b (8 * k) 8)) →
      staticChecks ws = none → (cdescOf ws).skind = 0 → (cdescOf ws).dkind = 0 → s.clusterChecks none ws = none →
      (s.func func).hasBay (core / 8) = true → core / 8 < 80 → (s.core core).outOfUse = false → (s.core core).copies.length < 16 →
      (s.core core).locks.length ≤ 62 → (∀ why, s.ahead core s.fresh why = 0) →
      ∃ u x, exec (.queueCopy func page core) s = .next u ∧ Started s u i h a ∧ u.teams = s.teams ∧
        (u.core core).copies = (s.core core).copies ++ [x] ∧ x.owner = .queue func page i i ∧ x.words = ws ∧
        (u.core core).locks = (s.core core).locks ++ (cdescOf ws).locks x.id func ∧
        Chunked x.chunks (cdescOf ws).elems (if (cdescOf ws).ragged = 0 then 1 else 0) ∧
        ∃ r, QueueMoves u func q i [r] ∧ r.slot = i ∧ r.type = 2 ∧ r.waiting = false)

/-- 13 R284, R285: WAITTILE and WAITVAL hold back the packets behind them until the tiles that they name are all FULL, or the word that they name
meets their condition. -/
def Sys2Proof.Claims.QueuesWait : Prop :=
  ∀ (s : State) (func page : Nat) (q : Queue) (b : List Byte),
    (∀ i h a core k off sl n tr, AtPacket s func page i h a q b → b.getD 0 0 = 3 → (∀ j, 2 ≤ j → j < 8 → b.getD j 0 = 0) →
      (∀ j, 18 ≤ j → j < 64 → b.getD j 0 = 0) → n = leField b 16 2 → 0 < n → n ≤ 192 → addrOk (BitVec.ofNat 64 (leField b 8 8)) = true →
      (s.translate func (gvaOf (BitVec.ofNat 64 (leField b 8 8))) .read .copy).1 = .ok tr → tr.tgt = .buf core k off sl →
      off / tileSize k + n ≤ bufSize k / tileSize k →
      ∃ u r, exec (.queueWaittile func page) s = .next u ∧ Started s u i h a ∧ u.teams = s.teams ∧
        r.slot = i ∧ r.type = 3 ∧ r.waiting = true ∧
        QueueMoves u func q i (if (∀ j, j < n → (record s core k (off / tileSize k + j)).full = true) then [] else [r])) ∧
    (∀ i h a w, AtPacket s func page i h a q b → b.getD 0 0 = 4 → leField b 2 1 ≤ 3 → (∀ j, 3 ≤ j → j < 8 → b.getD j 0 = 0) →
      leField b 8 8 % 8 = 0 → (∀ j, 32 ≤ j → j < 64 → b.getD j 0 = 0) → Leads (started s func i h a) func (leField b 8 8) 8 .ldacq w →
      ∃ u r, exec (.queueWaitval func page) s = .next u ∧ Started s u i h a ∧ u.teams = s.teams ∧ r.slot = i ∧ r.type = 4 ∧ r.waiting = true ∧
        QueueMoves u func q i (if valMet b (leNat (u.homeRead w 8)) then [] else [r])) ∧
    (∀ p w, Waits s func page q p → p.type = 4 → Leads s func (leField p.bytes 8 8) 8 .ldacq w →
      ∃ u, exec (.waitvalPoll func page) s = .next u ∧ SameMemory s u ∧ u.teams = s.teams ∧
        (u.func func).queues = [{ q with running := if valMet p.bytes (leNat (s.homeRead w 8)) then [] else [p] }])

/-- 13 R285: the conditions of WAITVAL compare the masked word with the masked value: equal, not equal, at least, below. -/
def Sys2Proof.Claims.WaitConditions : Prop :=
  ∀ (b : List Byte) (w : Nat), let x := w &&& leField b 24 8; let v := leField b 16 8 &&& leField b 24 8
    (leField b 2 1 = 0 → (valMet b w = true ↔ x = v)) ∧ (leField b 2 1 = 1 → (valMet b w = true ↔ x ≠ v)) ∧
    (leField b 2 1 = 2 → (valMet b w = true ↔ v ≤ x)) ∧ (leField b 2 1 = 3 → (valMet b w = true ↔ x < v))

/-- 06 R150, 14 R335: SIGNAL stores its value or adds it to the word, at the home; FENCEMARK stores its value, and the queue's replay index becomes
the next one; both complete. -/
def Sys2Proof.Claims.QueuesSignal : Prop :=
  ∀ (s : State) (func page w : Nat) (q : Queue) (p : QPacket), Waits s func page q p → w % 8 = 0 →
    (p.type = 5 → leField p.bytes 2 1 = 0 → Leads s func (leField p.bytes 8 8) 8 .strel w →
      ∃ u, exec (.queueSignal func page) s = .next u ∧ Stored s u w 8 (leField p.bytes 16 8) ∧ u.teams = s.teams ∧
        (u.func func).queues = [{ q with running := [] }]) ∧
    (p.type = 5 → leField p.bytes 2 1 = 1 → Leads s func (leField p.bytes 8 8) 8 (.atomic 4) w →
      ∃ u, exec (.queueSignal func page) s = .next u ∧ Stored s u w 8 (leNat (s.homeRead w 8) + leField p.bytes 16 8) ∧ u.teams = s.teams ∧
        (u.func func).queues = [{ q with running := [] }]) ∧
    (p.type = 6 → p.slot + 1 < 2 ^ 64 → Leads s func (leField p.bytes 8 8) 8 .strel w →
      ∃ u, exec (.queueFencemark func page) s = .next u ∧ Stored s u w 8 (leField p.bytes 16 8) ∧ u.teams = s.teams ∧
        (u.func func).queues = [{ q with running := [], replay := p.slot + 1 }])

/-- 16 R359, R367: a doorbell write lets the scheduler read the queue of its page; a stopped queue reads again only when it was restarted. -/
def Sys2Proof.Claims.DoorbellsRing : Prop :=
  ∀ (s : State) (func page : Nat) (q : Queue), (s.func func).queues = [q] → q.page = page → page ≤ 4095 →
    exec (.doorbellWrite func page) s = .next (s.modFunc func fun f => { f with queues :=
      [if q.stopped && !q.restarted then q else { q with stopped := false, restarted := false, readable := true }] })

/-! ### Launches and teams (13 R280 to R286, R306 to R310, 12 R273) -/

namespace Sys2Proof.Claims

/-- A gang as a launch starts it. -/
structure Starts (g : Gang) (i : Nat) (p : LaunchPkt) : Prop where
  idx : g.idx = i
  quota : g.qv = p.quotav ∧ g.qs = max 1 p.quotas
  entry : ∃ e, g.frontier = [e] ∧ e.pc = p.entry % 2 ^ 55 ∧ e.mask = BitVec.ofNat 32 (2 ^ p.lanes - 1) ∧ e.prio = 0 ∧ e.st = .ready ∧ e.setA = 16
  vector : ∀ r, g.vreg r = none
  uniform : ∀ r, g.uni r = if r = 0 then BitVec.ofNat 64 p.params else 0
  predicates : ∀ r, r ≠ 0 → g.pred r = 0
  rest : (∀ k, g.treg k = 0) ∧ (∀ k, g.flag k = 0) ∧ g.lpa = 0 ∧ g.lpb = 0 ∧ g.step = 0 ∧ g.round = 0 ∧ g.exited = 0 ∧ g.ended = false ∧
    g.stq = [] ∧ g.ops = [] ∧ g.region.num = 1

/-- A team has joined the others. -/
structure Joins (s u : State) (t : Team) (l : Launch) (num core cluster : Nat) : Prop where
  teams : u.teams = s.teams ++ [t]
  name : t.launch = l.id ∧ t.num = num ∧ t.func = l.func ∧ t.cluster = cluster ∧ t.core = core ∧ t.st = .running ∧ t.stopped = false ∧
    t.lanes = l.pkt.lanes ∧ t.acc = l.pkt.acc ∧ t.tiles = l.pkt.tiles
  gangs : t.gangs.length = l.pkt.gangs ∧ ∀ i g, t.gangs[i]? = some g → Starts g i l.pkt
  pools : (u.core core).poolV = (s.core core).poolV - l.pkt.gangs * l.pkt.quotav ∧
    (u.core core).poolS = (s.core core).poolS - l.pkt.gangs * max 1 l.pkt.quotas
  memory : SameMemory s u

end Sys2Proof.Claims

/-- 13 R280 to R283, R286: the dispatcher places the next cluster of the launch whose turn it is, here of one team: the team's gangs start at the
packet's entry with its parameters and quotas. A core with room for one more team of a range task takes the upper half of the largest
interval. -/
def Sys2Proof.Claims.TeamsStart : Prop :=
  ∀ (s : State) (l : Launch) (core : Nat),
    s.launch? l.id = some l → (∀ x ∈ s.launches, x.id = l.id → x = l) → 0 < l.pkt.quotav → l.pkt.quotav ≤ 64 → l.pkt.quotas ≤ 64 →
    (s.dispatchNext l.func = some l → s.clusterFits l.func (core / 8) [core] l.pkt = true → l.nextCluster ≠ 0 ∨ l.queue = none →
      (s.func l.func).recmode = none →
      ∃ u t, exec (.clusterPlacement l.id (core / 8) [core]) s = .next u ∧ Joins s u t l l.nextCluster core l.nextCluster ∧
        t.coords = l.pkt.coords l.nextCluster ∧
        u.launches = s.launches.map fun y =>
          if y.id = l.id then { y with nextCluster := l.nextCluster + 1, started := y.started + 1, left := y.left + 1 } else y) ∧
    (∀ x lo hi, l.pkt.range = true → l.pkt.teams = 1 → (s.func l.func).recmode = none → (s.func l.func).frozen = false →
      (s.func l.func).hasBay (core / 8) = true → (s.fits core l.pkt).isSome = true → s.teams = [x] → x.launch = l.id →
      x.cur = BitVec.ofNat 64 lo → x.stop = BitVec.ofNat 64 hi → lo + 2 ≤ hi → hi < 2 ^ 64 →
      ∃ u t, exec (.rangeSplit l.id core) s = .next u ∧
        Joins { s with teams := [{ x with stop := BitVec.ofNat 64 (lo + (hi - lo + 1) / 2) }] } u t l l.started core l.started ∧
        t.cur = BitVec.ofNat 64 (lo + (hi - lo + 1) / 2) ∧ t.stop = BitVec.ofNat 64 hi ∧
        (u.launch? l.id).map (·.started) = some (l.started + 1))

/-- 13 R307, R310, 12 R264, R273: an ending team writes its core's dirty lines home, but for what PRIV stores wrote, and then returns its registers and goes, or reads its list; the packet
of a list starts a launch whose parent is the team's; a launch without teams, clusters and successors completes, and so does its packet. -/
def Sys2Proof.Claims.TeamsEnd : Prop :=
  ∀ (s : State) (t : Team) (l : Launch), s.team? t.launch t.num = some t → s.launch? t.launch = some l →
    (t.st = .ending → (∀ g ∈ t.gangs, g.stq = [] ∧ s.fabricOpen t.launch t.num g.idx = false) → t.openSegs = 0 →
      ((s.core t.core).fifo = [] → (t.sn ≠ 0 → t.faulted = false →
          exec (.teamExitRelease t.launch t.num) s = .next (s.modTeam t.launch t.num fun x => { x with st := .reading })) ∧
        (t.sn = 0 ∨ t.faulted = true →
          ∃ u, exec (.teamExitRelease t.launch t.num) s = .next u ∧ u.team? t.launch t.num = none ∧ SameMemory s u ∧
            (u.core t.core).poolV = (s.core t.core).poolV + t.takenV ∧ (u.core t.core).poolS = (s.core t.core).poolS + t.takenS ∧
            (u.launch? t.launch).map (·.left) = some (l.left - 1))) ∧
      (∀ f ln, (s.core t.core).fifo = [f] → Cached s t.core f.line ln → Roomy s →
        ∃ u, exec (.teamExitRelease t.launch t.num) s = .next u ∧ (u.core t.core).fifo = [] ∧
          ∀ x, u.homeGet x = if x / 128 = f.line ∧ (ln.dirty &&& ~~~ ln.priv).getLsbD (x % 128) = true then ln.byte (x % 128) else s.homeGet x)) ∧
    (∀ a tr, t.st = .reading → t.sn = 1 → s.pageReqs = [] → NoErrors s → addrOk (BitVec.ofNat 64 t.slist) = true →
      (s.translate t.func (gvaOf (BitVec.ofNat 64 t.slist)) .read (.thread 8)).1 = .ok tr → tr.tgt = .mem a → a % 64 = 0 →
      s.checkTail schedulerCore t.func .ldacq t.slist 64 tr = none →
      let b := s.homeRead a 64
      badLaunch b true = none → s.cannotFit t.func (launchOf b) = false → (launchOf b).inPlace = false → s.launches = [l] →
      l.parent = 0 → l.id ≠ s.launchId → l.id ≠ 0 → l.queue = none →
      ∃ u y, exec (.successorListRead t.launch t.num) s = .next u ∧ SameMemory s u ∧ u.team? t.launch t.num = none ∧
        u.launches = [{ l with succ := l.succ + 1, left := l.left - 1 }, y] ∧ y.id = s.launchId ∧ y.parent = l.id ∧ y.func = t.func ∧
        y.pkt = launchOf b ∧ y.root = l.root ∧ y.queue = none ∧ y.nextCluster = 0)

/-- 13 R283: a launch whose clusters are all placed, whose teams have gone and whose successors are complete leaves, and its packet completes. -/
def Sys2Proof.Claims.LaunchesComplete : Prop :=
  ∀ (s : State) (l : Launch) (page i : Nat) (q : Queue) (p : QPacket), s.launches = [l] → l.pkt.clusters ≤ l.nextCluster → l.left = 0 → l.succ = 0 →
    (∀ t ∈ s.teams, t.launch ≠ l.id) → l.queue = some (page, i) → (s.func l.func).queues = [q] → q.page = page → q.running = [p] → p.slot = i →
    exec (.launchComplete l.id) s = .next ({ s with launches := [], oldCode := [] }.modFunc l.func fun f =>
      { f with queues := [{ q with running := [] }] })

/-! ### Remote fences, reports, replies, rollback and resets (05 R126, 14 R312 to R335, 16 R362, R366) -/

/-- 05 R126: RFENCE counts on its flag of setB, begins a region and, with no earlier store of its gang on the way, sends its flag store to the
target. -/
def Sys2Proof.Claims.RemoteFencesBegin : Prop :=
  ∀ (s : State) (c : Cur) (t : Team) (g : Gang) (e : Entry) (d : BitVec 6) (a : Opnd) (wide : Bool) (v gpa n va : Nat) (tr : Trans)
    (to_ : Dest), Acts s c t g → Claims.Begins s c g e → e.setB < 12 → g.flag e.setB < 63 → g.flags.length = 12 → g.ops = [] → g.stq = [] →
    (s.core t.core).reqs = [] → n = (if wide then 8 else 4) → va = (g.uniOp a).toNat → s.verdict t.core t.func .rfence va n = .ok tr →
    tr.tgt = .peer v gpa → tr.ty ≠ .seq → s.resolve t.func v = .ok to_ →
    let x := g.stream to_.dev to_.func
    let p := Claims.sealed s t.func { to_.packet .rfence gpa n ((g.uni d.toNat).setWidth 128) with
      core := t.core
      req := s.fresh + 1
      launch := c.launch
      team := c.team
      gang := c.gang
      seg := x.seg
      lane := firstLane c.mask }
    ∃ u g', exec (.rfence d a wide) s = .next u ∧ SameMemory s u ∧ Claims.Reaches s u c g' (fun y => { y with committed := true }) ∧
      Passed c g g' ∧ u.router = s.router ++ [p] ∧
      g'.flags = g.flags.set e.setB (g.flag e.setB + 1) ∧ g'.stream to_.dev to_.func = { x with sent := x.sent + 1, vdn := v } ∧
      KeepsGang { g with replay := [], ops := g'.ops, flags := g'.flags, streams := g'.streams } g' [] (Claims.freedS a) [] ∧
      g'.region.num = g.region.num + 1 ∧
      g'.ops = [⟨s.fresh, c.seq, .rfence n to_.dev to_.func, c.pc, c.ppc, c.word, e.setB, 0, g.region.num, e.prio, e.setA, e.setB, c.mask, .none,
        [⟨firstLane c.mask, c.seq, va, .fabric (s.fresh + 1), some tr, (g.uni d.toNat).setWidth 128, 0, 0, false⟩]⟩] ∧
      ∃ r, (u.core t.core).reqs = [r] ∧ r.id = s.fresh + 1 ∧ r.pkt = p ∧ r.owner = .op c.launch c.team c.gang s.fresh (firstLane c.mask)

/-- 14 R312 to R314, R317, R319, R320, 16 R366: the port writes a waiting record at the ring's write index; a terminal record of a queue's packet
stops the queue; a record found corrupted resets its partition with cause 3, and that reset's record stands in its place. The resume command lets a stopped team issue again; the two halves of SVCREPLY hand an answer to the SVC that waits for it. -/
def Obligations.ReportsAndReplies : Prop :=
  ∀ (s : State) (func : Nat),
    (∀ (x : Func) (r : Record) (rest : List Record) (z : Ring), s.funcs = [x] → x.id = func → func < 64 → x.pend = r :: rest →
      s.reportRound = [] → s.flips = [] → Roomy s → r.corrupt = false → x.rings[r.ringOf]? = some z → z.free = true → (∀ y ∈ rest, x.takes y = true ∨ y.waited = true) →
      let a := z.base + 64 * (z.wr % 2 ^ z.k)
      a % 64 = 0 → inDevice a = true →
      ∃ u, exec .faultRecordWrite s = .next u ∧ u.teams = s.teams ∧ (u.func func).pend = rest ∧
        (∀ y, u.homeGet y = if a ≤ y ∧ y < a + 64 then (r.bytes (r.seqOf.getD (z.seq % 2 ^ 32))).getD (y - a) 0 else s.homeGet y) ∧
        ((u.func func).rings[r.ringOf]?) = some { z with
          wr := (z.wr + 1) % 2 ^ 32
          seq := if r.seqOf.isSome ∨ r.ring = 0 then z.seq else z.seq + 1 } ∧
        ∀ page slot, r.queue = some (page, slot) → r.func = func → r.ring = 1 → classOf r.code = .terminal →
          ∀ q, u.queue? func page = some q → q.stopped = true ∧ q.readable = false) ∧
    (∀ (x : Func) (r : Record) (rest : List Record), s.func func = x → func ∈ s.funcs.map (·.id) → 0 < func → func < 64 →
      x.pend = r :: rest → r.func = func → r.ring ≠ 3 → r.corrupt = true → x.takes r = true → (∀ y ∈ rest, x.takes y = true ∨ y.waited = true) →
      s.reportRound = [func] →
      ∃ u n, exec .faultRecordWrite s = .next u ∧ u.teams = s.teams.filter (fun t => t.func != func) ∧
        u.launches = s.launches.filter (fun l => l.func != func) ∧ (u.func func).pend = n :: rest ∧ n.ring = 1 ∧ n.code = .hang ∧
        n.func = func ∧ n.extra = 3) ∧
    (∀ t : Team, s.team? t.launch t.num = some t → t.func = func → t.stopped = true → t.num < 2 ^ 32 →
      (∀ x ∈ s.teams, x.func = func → x.stopped = true → x.num = t.num → x.launch % 2 ^ 32 = t.launch % 2 ^ 32 → x = t) →
      ∃ u, exec (.teamResume func (BitVec.ofNat 64 (t.num + t.launch % 2 ^ 32 * 2 ^ 32))) s = .next u ∧
        { u with teams := s.teams, funcs := s.funcs } = s ∧
        (u.team? t.launch t.num).map Claims.bare = some (Claims.bare { t with stopped := false }) ∧
        ∀ k, u.gang? t.launch t.num k = (t.gangs[k]?).map fun g => g.mapEntries fun e =>
          if e.st = .stalled .resume then { e with st := .ready } else e) ∧
    (∀ v : W64, s.bringUp = 5 →
      exec (.svcReplySeq func v) s = .next (s.modFunc func fun f => { f with svcSeq := some (v.toNat % 2 ^ 32) })) ∧
    (∀ (v : W64) (q : Nat), (s.func func).svcSeq = some q → (∃ y ∈ (s.func func).svcWait, y.1 = q) → (∀ y ∈ (s.func func).svcGot, y.1 ≠ q) →
      ∃ u, exec (.svcReplyValue func v) s = .next u ∧ { u with funcs := s.funcs } = s ∧ (u.func func).svcSeq = none ∧
        (u.func func).svcGot = (s.func func).svcGot ++ [(q, v)] ∧ (u.func func).svcWait = (s.func func).svcWait)

/-- 14 R331, R333 to R335, 16 R362: a rolled-back cluster, here of one team, starts again with its team number and interval, on the same core of
another bay if one is free for it, else on its own; with no room for it, it waits. A partition that is reset, by command or by the watchdog after 100 ms, reports HANG, loses
its teams, launches and page requests, and its queues replay. Heat sets bit 1 of STATUS; too much of it resets the partitions. -/
def Obligations.PartitionsRecover : Prop :=
  ∀ (s : State) (func cause : Nat),
    (∀ (l : Launch) (t : Team) (bay k : Nat), s.launch? t.launch = some l → s.teams = [t] → t.st ≠ .waiting → t.launch = l.id →
      0 < l.pkt.teams → t.cluster = t.num / l.pkt.teams → (s.func l.func).frozen = false → 0 < l.pkt.quotav → l.pkt.quotav ≤ 64 → l.pkt.quotas ≤ 64 →
      (bay ≠ bayOf t.core ∧ k = 8 * bay + t.core % 8 ∨
        (s.func l.func).bayList = [bayOf t.core] ∧ bay = bayOf t.core ∧ k = t.core) →
      (s.pullTeam t).clusterFits l.func bay [k] l.pkt = true →
      ∃ u t', exec (.clusterRollback l.id t.cluster bay) s = .next u ∧ SameMemory s u ∧ Claims.Joins (s.pullTeam t) u t' l t.num k t.cluster ∧
        u.teams = [t'] ∧ t'.rollbacks = t.rollbacks + 1 ∧ t'.cur = t.start ∧ t'.stop = t.stop ∧ u.launches = s.launches) ∧
    (∀ (l : Launch) (t : Team) (bay : Nat), s.launch? t.launch = some l → s.teams = [t] → t.st ≠ .waiting → t.launch = l.id → 0 < l.pkt.teams →
      (∀ k, k < 640 → (s.func l.func).hasBay (bayOf k) = true → (s.pullTeam t).fits k l.pkt = none) → (s.pullTeam t).cannotFit l.func l.pkt = false →
      ∃ u t', exec (.clusterRollback l.id t.cluster bay) s = .next u ∧ SameMemory s u ∧ u.teams = [t'] ∧ t'.st = .waiting ∧
        t'.launch = t.launch ∧ t'.num = t.num ∧ t'.cluster = t.cluster ∧ t'.rollbacks = t.rollbacks + 1 ∧ t'.cur = t.start ∧
        t'.stop = t.stop ∧ u.launches = s.launches) ∧
    (∀ i : Instr, i = .partitionReset func cause ∨ (i = .watchdogHang func ∧ cause = 0 ∧ s.pendingWork func = true ∧
        (s.func func).retired + 100000 * 2250 ≤ s.now) → func ≠ 0 →
      ∃ u r, exec i s = .next u ∧ u.teams = s.teams.filter (fun t => t.func != func) ∧
        u.launches = s.launches.filter (fun l => l.func != func) ∧ u.pageReqs = s.pageReqs.filter (fun p => p.func != func) ∧
        (u.func func).pend = (s.func func).pend ++ [r] ∧ r.ring = 1 ∧ r.code = .hang ∧ r.func = func ∧ r.extra = BitVec.ofNat 64 cause ∧
        (u.func 0).pend = (s.func 0).pend ++ [{ r with ring := 3 }] ∧
        (u.func func).queues = (s.func func).queues.map Queue.replayed ∧ (u.func func).retired = s.now ∧
        ((∀ q ∈ (s.func func).queues, q.seen = false) → SameMemory s u ∧
          u.cores = s.cores.map fun c => if (s.func func).hasBay (bayOf c.id) = true then c.cleared else c)) ∧
    (∃ u, exec .thermalThrottle s = .next u ∧ { u with overTemp := s.overTemp, funcs := s.funcs } = s ∧ u.overTemp = true ∧
      ∀ k, u.func k = if k < 64 then { s.func k with status := (s.func k).status ||| 2 } else s.func k) ∧
    exec .thermalShutdown s = .next { s with
      linkUp := false
      agenda := ((s.funcs.filter fun f => f.cfg.bays != 0).map fun f => Act.event (.partitionReset f.id 5)) ++ s.agenda }

/-! ### Pre-emption, images, invalidations, migration, checkpoints, record and replay (14 R321 to R329, 03 R74, R75, chapter 15) -/

namespace Sys2Proof.Claims

/-- A command of a function is taken: bring-up is over. -/
def Ready (s : State) : Prop := s.bringUp = 5

/-- The range table of `n` entries at `a` is accepted and gives `l` (16 Table 16-5). -/
structure TableOf (s : State) (a n : Nat) (l : List (Nat × Nat)) : Prop where
  count : 0 < n ∧ n ≤ 256 ∧ a + 16 * n ≤ 0xC000000000
  entries : l = (rangeFrom 0 n).map fun k => (leNat (s.homeRead (a + 16 * k) 8), leNat (s.homeRead (a + 16 * k + 8) 8))
  aligned : ∀ r ∈ l, r.1 % 65536 = 0 ∧ r.2 % 65536 = 0 ∧ r.1 + r.2 ≤ 0xC000000000

/-- Nothing of the function is being moved or saved. -/
structure Still (f : Func) : Prop where
  migration : f.migration = none
  checkpoint : f.checkpoint = none
  receive : f.receive = none

/-- The issue of the partition has stopped: of the memory instructions in flight of a gang only those of older regions, atomics and RFENCEs
stay, and in those the lanes end whose entries stand at the instruction and take it again (14 Tables 14-5, 14-6): those not begun or waiting
for a page, and those of an atomic or a tile access that are not on their way. -/
def stays (g : Gang) (o : MemOp) : Bool := o.region != g.region.num || (match o.kind with
  | .atom _ _ _ => true
  | .cas _ _ => true
  | .rfence _ _ _ => true
  | _ => false)
def taken (k : OpKind) (e : Elem) : Elem :=
  let load := match k with
    | .ld _ => true
    | .ldacq _ => true
    | .sld _ => true
    | _ => false
  let flagStore := match k with
    | .rfence _ _ _ => true
    | _ => false
  match e.st with
  | .todo => { e with st := .ended }
  | .parked _ _ => { e with st := .ended }
  | .walking => if load then e else { e with st := .ended }
  | .pending => if load || flagStore then e else { e with st := .ended }
  | _ => e
structure Stopped (s u : State) (func : Nat) : Prop where
  frozen : (u.func func).frozen = true ∧ (u.func func).frozenAt = s.now
  memory : SameMemory s u
  gangs : ∀ t ∈ s.teams, ∀ g, s.gang? t.launch t.num g.idx = some g → (s.team? t.launch t.num).map (·.func) = some t.func →
    u.gang? t.launch t.num g.idx = some (if t.func = func then
        { g with ops := (g.ops.filter (stays g)).map fun o => { o with elems := o.elems.map (taken o.kind) } } else g)

/-- The cores of a function's partition hold no line. -/
def Clean (s : State) (func : Nat) : Prop := ∀ c ∈ s.cores, (s.func func).hasBay (bayOf c.id) = true → c.cache = []

/-- What a stop phase or a checkpoint finds in a quiescent partition without a team. -/
structure Empty (s : State) (func : Nat) : Prop where
  teams : ∀ t ∈ s.teams, t.func ≠ func
  launches : ∀ l ∈ s.launches, l.func ≠ func
  copies : s.queueCopies func = []
  clean : Clean s func

/-- A granule of the ranges. -/
def Within (l : List (Nat × Nat)) (x : Nat) : Prop := ∃ r ∈ l, r.1 ≤ x * 4096 ∧ x * 4096 < r.1 + r.2

/-- The granules whose bits a round reads: those of the bitmap, and those of lines that the homes drain for it. -/
def Dirty (s : State) (l : List (Nat × Nat)) (x : Nat) : Prop :=
  Within l x ∧
    (x ∈ s.bitmap ∨ ∃ y ln, findLine s.home y = some ln ∧ ln.dirty ≠ 0 ∧ y ∈ (s.die (homeDie (y * 128))).fifo ∧ y * 128 / 4096 = x)

/-- The poison marks of a granule's 128 sectors. -/
def marksOf (s : State) (x : Nat) : BitVec 128 :=
  (rangeFrom 0 128).foldl (fun m k => if s.homePoison (x * 128 + k) then m ||| (1#128 <<< k) else m) 0

/-- Granules leave for a device, with the bytes that their homes serve and their marks. -/
def Sends (s : State) (dev : Nat) (gs : List Nat) : List Sent :=
  gs.map fun x => .granule dev (x * 4096) (s.homeRead (x * 4096) 4096) (marksOf s x)

/-- The caches have room for what is read of the ranges, and for the dirty lines that drain. -/
structure RoomyFor (s : State) (l : List (Nat × Nat)) : Prop where
  whole : s.linesWhole
  flips : s.flips = []
  home : s.home.length + (l.map fun r => r.2 / 128).sum + 64 ≤ Config.wayLines
  stack : s.stack.length + s.home.length + (l.map fun r => r.2 / 128).sum + 64 ≤ Config.wayLines

/-- The highest step of the function's live gangs. -/
def Highest (s : State) (func : Nat) (h : W64) : Prop :=
  (∀ t ∈ s.teams, t.func = func → ∀ g ∈ t.gangs, g.ended = false → g.step.toNat ≤ h.toNat) ∧
  (h = 0 ∨ ∃ t ∈ s.teams, t.func = func ∧ ∃ g ∈ t.gangs, g.ended = false ∧ g.step = h)

end Sys2Proof.Claims

open Sys2Proof.Claims in
/-- 14 R321 to R324, R329: a pre-emption stops the issue of the partition, once. A quiescent partition whose slice has ended gives up its teams
and launches for an image. A refused image sets bit 0 of the physical function's STATUS and does nothing else; an image of one team of one gang
with one entry gives back the launch, the team and the gang that its records hold. -/
def Obligations.PartitionsStopAndReturn : Prop :=
  ∀ (s : State) (func : Nat),
    ((s.func func).frozen = true → exec (.preemption func) s = .next s) ∧
    ((s.func func).frozen = false → ∃ u, exec (.preemption func) s = .next u ∧ Stopped s u func) ∧
    ((s.func func).frozen = true → (s.func func).image = none → (s.func func).migration = none → (s.func func).checkpoint = none →
      s.quiescent func = true → Clean s func →
      ∃ u, exec (.quiescenceReached func) s = .next u ∧ SameMemory s u ∧ (u.func func).image = some (s.imageOf func) ∧
        (∀ t ∈ u.teams, t ∈ s.teams ∧ t.func ≠ func) ∧
        (∀ t ∈ s.teams, t.func ≠ func → (∀ x ∈ s.teams, x.func = func → ¬ (x.launch = t.launch ∧ x.num = t.num)) → t ∈ u.teams) ∧
        ∀ l ∈ u.launches, l.func = func → l.nextCluster = 0 ∧ l.queue ≠ none) ∧
    (∀ img bays, s.checkedImage func img = none →
      exec (.imageRestore func img bays) s = .next (s.modFunc 0 fun f => { f with status := f.status ||| 1 })) ∧
    (∀ (img h r2 r3 r4 : List Byte) (bay k : Nat), s.checkedImage func img = some [h, r2, r3, r4] → leField h 0 2 = 1 → leField r2 0 2 = 2 →
      leField r3 0 2 = 3 → leField r4 0 2 = 4 → leField r2 16 8 = 0 → leField r2 40 8 = 0 → (∀ l ∈ s.launches, l.id ≠ leField r2 8 8) →
      (∀ t ∈ s.teams, t.launch ≠ leField r2 8 8) → leField r3 8 8 = leField r2 8 8 → leField r3 25 1 = 1 → leField r3 57 1 = 0 →
      (∀ j, j < 8 → leField r3 (88 + 8 * j + 1) 1 = 0) → leField r4 8 1 = 0 → leField r4 9 1 = 1 → leField r4 (408 + 13) 1 = 0 →
      bay < 80 → (s.func func).hasBay bay = true → k = 8 * bay + leField r3 61 1 % 8 → (∀ t ∈ s.teams, t.core ≠ k) → (s.core k).outOfUse = false →
      256 ≤ (s.core k).poolV → 256 ≤ (s.core k).poolS → leField r3 29 1 ≤ 192 → leField r3 30 1 ≤ 192 → leField r3 31 1 ≤ 16 →
      leField r3 27 1 ≤ 8 →
      ∃ u l t g e, exec (.imageRestore func img [bay]) s = .next u ∧ SameMemory s u ∧ u.launches = s.launches ++ [l] ∧ u.teams = s.teams ++ [t] ∧
        (u.func func).frozen = false ∧ (u.func func).image = none ∧
        l.id = leField r2 8 8 ∧ l.func = func ∧ l.nextCluster = leField r2 28 4 ∧ l.left = leField r2 32 4 ∧ l.succ = leField r2 36 4 ∧
        t.launch = leField r3 8 8 ∧ t.num = leField r3 16 4 ∧ t.cluster = leField r3 20 4 ∧ t.core = k ∧ t.func = func ∧ t.st = .running ∧
        t.cur = BitVec.ofNat 64 (leField r3 32 8) ∧ t.stop = BitVec.ofNat 64 (leField r3 40 8) ∧ t.mscale = BitVec.ofNat 64 (leField r3 64 8) ∧
        t.gangs = [g] ∧ g.frontier = [e] ∧ e.pc = leField r4 408 8 ∧ e.mask = BitVec.ofNat 32 (leField r4 416 4) ∧ e.prio = leField r4 420 1 ∧
        e.st = .ready ∧ g.qv = leField r4 10 1 ∧ g.qs = leField r4 11 1 ∧ g.step = BitVec.ofNat 64 (leField r4 16 8) ∧
        (∀ i, i < 16 → g.treg i = BitVec.ofNat 128 (leField r4 (152 + 16 * i) 16)) ∧
        (∀ p, 1 ≤ p → p < 8 → g.pred p = BitVec.ofNat 32 (leField r4 (120 + 4 * (p - 1)) 4)) ∧
        (∀ i r, ((regs64.filter (leField r4 48 8).testBit)[i]?) = some r → g.uni r = BitVec.ofNat 64 (leField r4 (424 + 8 * i) 8)) ∧
        (∀ r, r < 64 → (leField r4 48 8).testBit r = false → g.uni r = 0) ∧
        ∀ i r v, ((regs64.filter (leField r4 40 8).testBit)[i]?) = some r →
          v = 424 + 8 * (regs64.filter (leField r4 48 8).testBit).length + 136 * i →
          g.tag r = tagOf (leField r4 v 1) ∧ ∀ n, n < 32 → (g.lanes r)[n]? = some (BitVec.ofNat 32 (leField r4 (v + 8 + 4 * n) 4)))

open Sys2Proof.Claims in
/-- 12 R277, 03 R74, R75, 16 R368: the zero-length read that a system fence waits for completes. A peer's invalidation drops its victims from
every TLB and is acknowledged, at once when no access of the function is on its way and no store to be performed, else later; an
acknowledgement is noted. INVCMD drops the translations of a range of guest physical addresses, and its bit
63 falls when the accesses that used them are performed. -/
def Obligations.TranslationsAreDropped : Prop :=
  ∀ (s : State),
    (∀ l tn k t g, s.team? l tn = some t → t.gangs[k]? = some g → (∃ e ∈ g.frontier, e.st = .stalled .hostRead) →
      ∃ u, exec (.zeroLengthReadCompletion l tn k) s = .next u ∧ { u with teams := s.teams } = s ∧
        Reaches s u (place l tn k) { g with hostWrote := false } id) ∧
    (∀ src id func (all : Bool) page, let p := if all then none else some page
      s.tfences = [] →
      ∃ u, exec (.tlbInvalidationMessage src id func all page) s = .next u ∧ SameMemory s u ∧ u.teams = s.teams ∧
        (∀ k, k < 640 → (u.core k).tlb = (s.core k).tlb.filter fun e => !e.victim func p) ∧
        (∀ d, d < 8 → (u.die d).tlb = (s.die d).tlb.filter fun e => !e.victim func p) ∧
        ((∀ t ∈ s.teams, t.func = func → ∀ g ∈ t.gangs, g.ops = [] ∧ g.stq = []) →
          (∀ c ∈ s.cores, c.fifo = [] ∧ ∀ r ∈ c.reqs, r.func ≠ func) →
          u.sent = s.sent ++ [.tlbAck src id] ∧ u.tfences = []) ∧
        (∀ (t : Team) (g : Gang) (x : StqEntry) (e : Elem), s.team? t.launch t.num = some t → t.core < 640 → t.func = func → t.gangs[g.idx]? = some g → x ∈ g.stq → e ∈ x.elems →
          e.st = .pending → all = true → (∀ c ∈ s.cores, c.fifo = []) →
          u.sent = s.sent ∧ ∃ f, u.tfences = [f] ∧ f.ack = some (src, id))) ∧
    (∀ id dev, exec (.tlbInvalidationAck id dev) s = .next { s with
      tfences := s.tfences.map fun f => if f.id = id then { f with waiting := f.waiting.filter (· != dev) } else f }) ∧
    (∀ (func : Nat) (v : W64), Ready s → 
      ((s.func func).invCmd.getLsbD 63 = true ∨ v.toNat / 2 ^ 38 ≠ 0 →
        exec (.stage2Invalidate func v) s = .next (s.modFunc func fun f => { f with status := f.status ||| 1 })) ∧
      ((s.func func).invCmd.getLsbD 63 = false → v.toNat / 2 ^ 38 = 0 →
        (v.toNat % 2 ^ 32 = 0 → exec (.stage2Invalidate func v) s = .next (s.modFunc func fun f => { f with invCmd := v })) ∧
        (v.toNat % 2 ^ 32 ≠ 0 → let lo := (s.func func).invBase.toNat % 2 ^ 52
          let hi := lo + 65536 * (v.toNat % 2 ^ 32)
          ∃ u f, exec (.stage2Invalidate func v) s = .next u ∧ SameMemory s u ∧ (u.func func).invCmd = v ||| (1#64 <<< 63) ∧
            u.tfences = s.tfences ++ [f] ∧ f.func = some func ∧
            (∀ k, k < 640 → (u.core k).tlb = (s.core k).tlb.filter fun e => !e.inGpa (v.toNat / 2 ^ 32 % 64) lo hi) ∧
            ∀ d, d < 8 → (u.die d).tlb = (s.die d).tlb.filter fun e => !e.inGpa (v.toNat / 2 ^ 32 % 64) lo hi))) ∧
    (∀ func f, s.tfences.find? (fun x => x.func == some func) = some f → s.fenceOpen f = false → f.cores = [] →
      exec (.invalidationComplete func) s = .next { s.modFunc func fun x => { x with invCmd := x.invCmd &&& ~~~ (1#64 <<< 63) } with
        tfences := s.tfences.filter fun x => x.id != f.id })

open Sys2Proof.Claims in
/-- 15 R342 to R346, R351, 16 R370: the migration commands are taken when they may be, else bit 0 of STATUS is set: start, stop, forced stop,
abandon, receive. The mirror window closes at its time. -/
def Sys2Proof.Claims.MigrationCommands : Prop :=
  ∀ (s : State) (func : Nat), Ready s → let f := s.func func
    let a := fun k => (f.margs.getD k 0).toNat
    let refused := s.modFunc func fun f => { f with status := f.status ||| 1 }
    (∀ l, TableOf s (a 1) (a 2) l →
      (Still f → exec (.migrateStart func) s = .next (s.modFunc func fun f => { f with
        migration := some ⟨a 0 % 256, a 0 / 256 % 64, l, 0, 0, 0, 0⟩
        mstate := 1
        mround := 0
        mdirty := 0 })) ∧
      (f.migration ≠ none ∨ f.checkpoint ≠ none ∨ f.receive ≠ none → exec (.migrateStart func) s = .next refused)) ∧
    (a 2 = 0 ∨ 256 < a 2 → exec (.migrateStart func) s = .next refused) ∧
    (∀ i, i = Instr.migrateStop func ∨ i = .migrateForceStop func → f.frozen = false →
      (∀ m, f.migration = some m → m.phase = 0 → (i = .migrateStop func → 0 < m.round ∧ m.last ≤ 524288) →
        ∃ u, exec i s = .next u ∧ Stopped s u func ∧ (u.func func).migration = some { m with phase := 1 } ∧ (u.func func).mstate = 2) ∧
      (f.migration = none ∨ (∃ m, f.migration = some m ∧ (m.phase ≠ 0 ∨ (i = .migrateStop func ∧ (m.round = 0 ∨ 524288 < m.last)))) →
        exec i s = .next refused)) ∧
    (∀ m, f.migration = some m → m.phase = 0 → exec (.migrateAbandon func) s = .next (s.modFunc func fun f => { f with
      migration := none
      capNow := none
      mstate := 4 })) ∧
    (f.migration = none → exec (.migrateAbandon func) s = .next refused) ∧
    (∀ l, TableOf s (a 2) (a 3) l → Still f → a 0 % 2 ^ 30 = 0 → a 0 + 2 ^ 30 ≤ 0xC000000000 → s.forwards.length < 64 →
      exec (.migrateReceive func) s = .next { s.modFunc func fun f => { f with
          receive := some ⟨a 0, a 1 % 256, a 1 / 256 % 64, l⟩
          moved := false } with
        forwards := (s.forwards.filter fun x => !(x.1 == a 1 % 256 && x.2.1 == a 1 / 256 % 64)) ++ [(a 1 % 256, a 1 / 256 % 64, 0, func)] }) ∧
    (∀ m, f.mirror = some m →
      (m.until_ ≤ s.now → exec (.mirrorWindowExpiry func) s = .next (s.modFunc func fun f => { f with mirror := none })) ∧
      (s.now < m.until_ → exec (.mirrorWindowExpiry func) s = .next s))

open Sys2Proof.Claims in
/-- 15 R341, R343 to R346, R349, R351: a round of pre-copy to another device sends every granule the first time, later those whose dirty bits it
reads and clears, and MDIRTY holds their count. The stop phase goes through its steps: write-back of a quiescent partition, the image, the last
granules, the switch, which keeps a mirror window of 2 ms. -/
def Sys2Proof.Claims.MigrationProceeds : Prop :=
  ∀ (s : State) (func : Nat) (m : Migration), (s.func func).migration = some m → m.dev ≠ s.device → RoomyFor s m.ranges →
    (∀ i, (i = Instr.precopyRound func ∧ m.phase = 0) ∨ (i = .stopPhase func ∧ m.phase = 3) →
      ∃ u gs, exec i s = .next u ∧ SameMemory s u ∧ u.teams = s.teams ∧ u.sent = s.sent ++ Sends s m.dev gs ∧
        (m.round = 0 → gs = m.ranges.flatMap fun r => rangeFrom (r.1 / 4096) (r.2 / 4096)) ∧
        (m.round ≠ 0 → ∀ x, x ∈ gs ↔ Dirty s m.ranges x) ∧
        (m.round ≠ 0 → ∀ x, Within m.ranges x → x ∉ u.bitmap) ∧ (∀ x ∈ s.bitmap, ¬ Within m.ranges x → x ∈ u.bitmap) ∧
        (m.phase = 0 → (u.func func).mround = m.round % 256 ∧ (u.func func).mdirty = BitVec.ofNat 64 gs.length ∧
          (u.func func).migration = some { m with round := m.round + 1, prev := m.last, last := gs.length } ∧
          (u.func func).capNow = if m.round ≠ 0 ∧ 524288 < gs.length ∧ m.last ≤ gs.length then some (max 8 ((s.func func).missCap / 2))
            else (s.func func).capNow) ∧
        (m.phase = 3 → (u.func func).migration = some { m with phase := 4 })) ∧
    (m.phase = 1 → s.quiescent func = true → Clean s func → (∀ d ∈ s.dies, d.fifo = []) → s.reds = [] →
      exec (.stopPhase func) s = .next (s.modFunc func fun f => { f with migration := some { m with phase := 2 } })) ∧
    (m.phase = 1 → s.quiescent func = false → exec (.stopPhase func) s = .next s) ∧
    (m.phase = 2 → ∃ u, exec (.stopPhase func) s = .next u ∧ SameMemory s u ∧ u.sent = s.sent ++ [.image m.dev 0 (s.imageOf func)] ∧
      (∀ t ∈ u.teams, t.func ≠ func) ∧ (u.func func).migration = some { m with phase := 3 }) ∧
    (m.phase = 4 → (s.func func).cfg.vlimit = 0 →
      exec (.stopPhase func) s = .next (s.modFunc func fun f => { f with
        migration := none
        capNow := none
        mstate := 3
        hold := []
        moved := true
        mirror := some ⟨m.dev, m.func, s.now + 2000 * 2250⟩ })) ∧
    (m.phase = 4 → (s.func func).cfg.vlimit = 1 → m.dev < 256 → m.func < 64 → inDevice (s.vdnAddr func 0) = true →
      let e := leNat (s.homeRead (s.vdnAddr func 0) 8)
      Roomy s → e % 2 = 1 → e / 256 % 16 * 16 + e / 16 % 16 = s.device → e / 4096 % 64 = func →
      ∃ u, exec (.stopPhase func) s = .next u ∧ (u.func func).moved = true ∧ (u.func func).migration = none ∧
        Stored s u (s.vdnAddr func 0) 8 (1 + m.dev % 16 * 2 ^ 4 + m.dev / 16 * 2 ^ 8 + m.func * 2 ^ 12 + e / 2 ^ 18 % 64 * 2 ^ 18 +
          (e / 2 ^ 24 % 256 + 1) % 256 * 2 ^ 24))

open Sys2Proof.Claims in
/-- 15 R352, 16 R370: a checkpoint is armed at a step or by a timer. When all gangs have reached it, or 10 ms after the first, the partition is
stopped; the quiescent partition's image goes to memory and its granules away, and issue resumes. -/
def Sys2Proof.Claims.CheckpointsAreTaken : Prop :=
  ∀ (s : State) (func : Nat), let f := s.func func
    let a := fun k => (f.margs.getD k 0).toNat
    (∀ l, Ready s → TableOf s (a 1) (a 2) l → Still f → a 0 < 0xC000000000 →
      exec (.checkpointAtStep func) s = .next (s.modFunc func fun f => { f with
        checkpoint := some ⟨a 0, l, some (BitVec.ofNat 64 (a 3)), none, 0, none, [], none, false⟩
        mstate := 5 }) ∧
      (0 < a 3 → a 3 < 2 ^ 32 → exec (.checkpointByTimer func) s = .next (s.modFunc func fun f => { f with
        checkpoint := some ⟨a 0, l, none, some (a 3), s.now + a 3 * 2250, none, [], none, false⟩
        mstate := 5 })) ∧
      (a 3 = 0 → exec (.checkpointByTimer func) s = .next (s.modFunc func fun f => { f with status := f.status ||| 1 }))) ∧
    (∀ k at_, f.checkpoint = some k → k.firstStop = some at_ →
      (k.partial_ = false → s.allReached func = false → f.frozen = false → at_ + 10000 * 2250 ≤ s.now →
        ∃ u, exec (.checkpointPartialTimeout func) s = .next u ∧ Stopped s u func ∧ (u.func func).checkpoint = some { k with partial_ := true }) ∧
      (s.allReached func = true → f.frozen = false →
        ∃ u, exec (.checkpointCapture func) s = .next u ∧ Stopped s u func ∧ (u.func func).checkpoint = some k) ∧
      (f.frozen = true → k.period = none → k.partial_ = false → Empty s func → s.quiescent func = true → func < 64 →
        (∀ ln ∈ s.home, ln.dirty = 0) → RoomyFor s k.ranges → k.image % 4096 = 0 → (∀ r ∈ k.ranges, k.image + 4096 ≤ r.1 ∨ r.1 + r.2 ≤ k.image) →
        (∀ r ∈ k.ranges, r.1 % 65536 = 0 ∧ r.2 % 65536 = 0) →
        ∃ u gs, exec (.checkpointCapture func) s = .next u ∧ u.teams = s.teams ∧
          (∀ x, u.homeGet x = if k.image ≤ x ∧ x < k.image + 64 then (s.imageOf func).getD (x - k.image) 0 else s.homeGet x) ∧
          u.sent = s.sent ++ Sends s s.device gs ∧
          (f.captured = false → gs = k.ranges.flatMap fun r => rangeFrom (r.1 / 4096) (r.2 / 4096)) ∧
          (f.captured = true → gs = s.bitmap.filter fun x => k.ranges.any fun r => decide (r.1 ≤ x * 4096) && decide (x * 4096 < r.1 + r.2)) ∧
          (u.func func).checkpoint = none ∧ (u.func func).captured = true ∧ (u.func func).mstate = 0 ∧ (u.func func).mpartial = false ∧
          (u.func func).frozen = false))

open Sys2Proof.Claims in
/-- 15 R353: the timer of a device asks every device of the tenant for its highest step, waits for the answers, and sets N one above the highest
for all of them; a query is answered with this device's highest step, which its gangs then hold; of two that cross, the lower device's goes
on. -/
def Sys2Proof.Claims.CheckpointStepIsAgreed : Prop :=
  ∀ (s : State) (func : Nat) (k : Checkpoint) (h : W64), (s.func func).checkpoint = some k → Highest s func h →
    let ds := s.tenantPeers func
    let become := fun (k' : Checkpoint) (more : List Sent) =>
      { s.modFunc func fun f => { f with checkpoint := some k' } with sent := s.sent ++ more }
    (k.period ≠ none → k.target = none → k.replies = [] → k.hold = none → k.timerAt ≤ s.now →
      (ds ≠ [] → (∀ d ∈ ds, d.1 ≠ s.device) → exec (.checkpointTimer func) s =
        .next (become { k with replies := [(s.device, h)], hold := some (h + 1) } (ds.map fun d => .stepQuery d.1 d.2))) ∧
      (ds = [] → exec (.checkpointTimer func) s = .next (become { k with target := some (h + 1), hold := some (h + 1) } []))) ∧
    (∀ src b, (s.func func).migration = none → ds.find? (fun d => d.1 == src) = some (src, b) →
      (k.replies = [] ∨ src ≤ s.device → exec (.checkpointQuery func src) s =
        .next (become { k with replies := [], hold := some (h + 1) } [.stepReply src b h])) ∧
      (k.replies ≠ [] → s.device < src → exec (.checkpointQuery func src) s = .next s)) ∧
    (∀ src high, k.replies ≠ [] → (∀ r ∈ k.replies, r.1 ≠ src) →
      let rs := k.replies ++ [(src, high)]
      ((∃ d ∈ ds, ∀ r ∈ rs, r.1 ≠ d.1) → exec (.checkpointQueryReply func src high) s = .next (become { k with replies := rs } [])) ∧
      ((∀ d ∈ ds, ∃ r ∈ rs, r.1 = d.1) → ∀ n : W64, (∀ r ∈ rs, r.2.toNat ≤ n.toNat) → (∃ r ∈ rs, r.2 = n) →
        exec (.checkpointQueryReply func src high) s =
          .next (become { k with target := some (n + 1), hold := some (n + 1), replies := [] } (ds.map fun d => .stepSet d.1 d.2 (n + 1))))) ∧
    (∀ n, exec (.checkpointStepSet func n) s = .next (s.modFunc func fun f => { f with
      checkpoint := some { k with target := some n, hold := some n } }))

open Sys2Proof.Claims in
/-- 15 R354 to R356, 16 R370: a function enters record or replay mode with the log that its arguments name, and leaves it; a log whose size is no
multiple of 32, or which leaves device memory, is refused. -/
def Sys2Proof.Claims.RecordAndReplayModes : Prop :=
  ∀ (s : State) (func : Nat), Ready s → let f := s.func func
    let a := fun k => (f.margs.getD k 0).toNat
    (∀ l s1, s.inputTable func (a 2) (a 3) = (some l, s1) →
      (a 1 % 32 = 0 → a 0 + a 1 ≤ 0xC000000000 →
        exec (.recordMode func) s = .next (s1.modFunc func fun f => { f with
          recmode := some ⟨false, a 0, a 1, 0, l, false, []⟩
          mstate := 6 }) ∧
        exec (.replayMode func) s = .next (s1.modFunc func fun f => { f with
          recmode := some ⟨true, a 0, a 1, 0, l, false, []⟩
          mstate := 7
          diverge := 0 })) ∧
      (a 1 % 32 ≠ 0 ∨ 0xC000000000 < a 0 + a 1 → ∀ i, i = Instr.recordMode func ∨ i = .replayMode func →
        exec i s = .next (s1.modFunc func fun f => { f with status := f.status ||| 1 }))) ∧
    (a 3 = 0 → s.inputTable func (a 2) (a 3) = (some [], s)) ∧
    exec (.normalMode func) s = .next (s.modFunc func fun f => { f with
      recmode := none
      mstate := if f.mstate = 6 ∨ f.mstate = 7 then 0 else f.mstate })

/-! ### Host and module (chapter 16, 05 R103, R115, 19 R378) -/

namespace Sys2Proof.Claims

/-- Host requests for the function's BARs are taken, and its whole guest physical space is reached (16 R361, R381). -/
def Reached (s : State) (func : Nat) : Prop := s.bringUp = 5 ∧ s.linkUp = true ∧ func < 64 ∧ (func = 0 ∨ s.sriov = true)

/-- Stage 2 leads byte `x` of the function's guest physical space to device memory at `at_ x`, with the rights that `need` asks for. -/
def HostLeads (s : State) (func : Nat) (need : Need) (x a : Nat) : Prop :=
  ∃ e lvl, (s.stage2 func x).1 = .leaf e lvl ∧ permits2 e need = true ∧ targetOf e lvl x = .mem a ∧ inDevice a = true

/-- Bit 0 of a function's STATUS is set, and nothing else happens. -/
def rejected (s : State) (func : Nat) : State := s.modFunc func fun f => { f with status := f.status ||| 1 }

end Sys2Proof.Claims

open Sys2Proof.Claims in
/-- 16 R360, R361, R363: bring-up takes its five steps: a self test, memory scrubbed, cores and dies reset, ports trained, the host link up. Until
then configuration requests are answered with a retry status; then a write of SR-IOV's enable acts. Firmware is loaded when its signature is
good; attestation signs the nonce, the digest, ID and CONFIG; the sideband port answers with what it is asked for. -/
def Sys2Proof.Claims.DeviceComesUp : Prop :=
  ∀ (s : State),
    (s.bringUp = 0 → exec .bringUp s = .next { s with bringUp := 1 }) ∧
    (s.bringUp = 1 → ∃ u, exec .bringUp s = .next u ∧ u.bringUp = 2 ∧ u.teams = s.teams ∧ u.cores = s.cores ∧ u.funcs = s.funcs ∧
      ∀ a, u.homeGet a = 0 ∧ u.homePoison a = false) ∧
    (s.bringUp = 2 → ∃ u, exec .bringUp s = .next u ∧ u.bringUp = 3 ∧ SameMemory s u ∧ u.teams = s.teams ∧ u.funcs = s.funcs ∧
      (∀ k, k < 640 → u.core k = { Core.reset k with outOfUse := (s.core k).outOfUse, start := s.now }) ∧ ∀ d, u.die d = Die.reset d) ∧
    (s.bringUp = 3 → exec .bringUp s = .next { s with
      bringUp := 4
      ports := (rangeFrom 0 32).map fun k => ⟨s.portUsed k⟩ }) ∧
    (s.bringUp = 4 → exec .bringUp s = .next { s with
      bringUp := 5
      linkUp := true }) ∧
    (∀ w on, (s.bringUp < 5 → exec (.configurationRequest w on) s = .next { s with sent := s.sent ++ [.retryStatus] }) ∧
      (5 ≤ s.bringUp → exec (.configurationRequest w on) s = .next (if w then { s with sriov := on } else s))) ∧
    (∀ image sig, exec (.firmwareLoad image sig) s =
      .next (if Config.firmwareSigned image sig = true then { s with firmware := Config.sha512 image } else s)) ∧
    (∀ func (nonce : BitVec 256), exec (.attestationRequest func nonce) s = .next { s with
      sent := s.sent ++ [.signature (Config.identitySign (Config.sha512 (leBytes nonce.toNat 32 ++ leBytes s.firmware.toNat 64 ++
        leBytes (1 + func * 2 ^ 8 + 0x0640 * 2 ^ 16) 8 ++ ((rangeFrom 0 7).map fun k => leBytes (s.configWord func k) 8).flatten)))] }) ∧
    (∀ what v, (what = MctpItem.temperature ∨ what = .power) ∧ v = Config.sensor s.free ∨
        (∃ func index, what = .sharedCounter func index ∧ v = BitVec.ofNat 64 ((((s.func func).errcnt[index]?).map (·.2)).getD 0)) ∨
        (what = .linkState ∧ (∀ k, k < 32 → v.getLsbD k = s.portUp k) ∧ v.getLsbD 32 = s.linkUp ∧ ∀ k, 33 ≤ k → v.getLsbD k = false) →
      exec (.mctpRead what) s = .next { s with
        free := s.free + 1
        sent := s.sent ++ [.mctp v] })

open Sys2Proof.Claims in
/-- 16 R381: the memory window reads and writes the function's guest physical space through stage 2 at the homes; a request that stage 2 does not
lead to device memory is refused, with a record at the physical function: PERM, or UNCORR_DATA for a poisoned entry (03 R70). -/
def Sys2Proof.Claims.HostWindow : Prop :=
  ∀ (s : State) (func off : Nat), Reached s func → s.flips = [] → Roomy s →
    let room := fun n => s.home.length + 8 * n + 64 ≤ Config.wayLines ∧ s.stack.length + 8 * n + 64 ≤ Config.wayLines
    (∀ n, off + n ≤ 2 ^ 36 → room n → ∀ at_ : Nat → Nat, (∀ k, k < n → HostLeads s func .read (off + k) (at_ k)) →
      ∃ u, exec (.hostWindowRead func off n) s = .next u ∧ SameMemory s u ∧ u.teams = s.teams ∧
        u.sent = s.sent ++ [.hostData ((rangeFrom 0 n).map fun k => s.homeGet (at_ k)) ((rangeFrom 0 n).any fun k => s.homePoison (at_ k / 32))]) ∧
    (∀ bytes : List Byte, ∀ a, room bytes.length → off + bytes.length ≤ 2 ^ 36 → (∀ k, k < bytes.length → HostLeads s func .write (off + k) (a + k)) →
      ∃ u, exec (.hostWindowWrite func off bytes) s = .next u ∧ u.teams = s.teams ∧ u.sent = s.sent ∧
        ∀ x, u.homeGet x = if a ≤ x ∧ x < a + bytes.length then bytes.getD (x - a) 0 else s.homeGet x) ∧
    (∀ n bytes i need end_ code cause, 0 < n → bytes.length = n → off + n ≤ 2 ^ 36 →
      (i = Instr.hostWindowRead func off n ∧ need = .read) ∨ (i = .hostWindowWrite func off bytes ∧ need = .write) →
      (s.stage2 func off).1 = end_ →
      (∃ e lvl, end_ = .leaf e lvl ∧ code = .perm ∧ (permits2 e need = false ∧ cause = 2 ∨
        permits2 e need = true ∧ (cause = 5 ∧ (∀ a, targetOf e lvl off ≠ .mem a) ∨
          cause = 6 ∧ ∃ a, targetOf e lvl off = .mem a ∧ inDevice a = false))) ∨
        (∃ g, end_ = .fault ⟨.s2Miss, g⟩ ∧ code = .perm ∧ cause = 9) ∨ (∃ g, end_ = .fault ⟨.uncorrData, g⟩ ∧ code = .uncorrData ∧ cause = g) →
      ∃ u r, exec i s = .next u ∧ SameMemory s u ∧ u.teams = s.teams ∧ u.sent = s.sent ++ [.unsupported func] ∧
        (u.func 0).pend = (s.func 0).pend ++ [r] ∧ r.code = code ∧ r.func = func ∧ r.pc = off ∧ r.gang = 0xFF ∧ r.unit = 0xFF ∧ r.detail = BitVec.ofNat 64 cause)

open Sys2Proof.Claims in
/-- 16 R358, R364 to R367, R369, R371, 14 R339, 05 R115: what the writes of the register window do: registers that hold what is written, rings and
their read indices, counters and STATUS bits cleared by ones, queues bound, unbound, selected and restarted, CONFIG, GRID and the keys. A value
out of range is rejected: bit 0 of STATUS is set. -/
def Sys2Proof.Claims.RegisterWindow : Prop :=
  ∀ (s : State) (win off func : Nat) (v : W64), s.bringUp = 5 → let f := s.func func
    let x := v.toNat
    -- one's own window, or the physical function's window on another function
    let direct := off < 0x200 ∧ win = func
    let through := win = 0 ∧ ∃ o, o < 0x200 ∧ func < 64 ∧ off = 0x4000 + 0x200 * func + o
    let o := off % 0x200
    (win = 0 → off = 0x208 → exec (.registerWrite win off v) s = .next { s with vdntab := BitVec.ofNat 64 (x / 2 ^ 15 % 2 ^ 37 * 2 ^ 15) }) ∧
    (direct ∨ through →
      (o = 0x10 → exec (.registerWrite win off v) s = .next (s.modFunc func fun f => { f with s1root := BitVec.ofNat 64 (x / 2 ^ 16 % 2 ^ 36 * 2 ^ 16) })) ∧
      (o = 0x80 → exec (.registerWrite win off v) s = .next (s.modFunc func fun f => { f with qaddr := v })) ∧
      (o = 0x18 → exec (.registerWrite win off v) s = .next (if win = 0 ∧ 0x4000 ≤ off then
        s.modFunc func fun f => { f with s2root := BitVec.ofNat 64 (x / 2 ^ 16 % 2 ^ 36 * 2 ^ 16) } else s)) ∧
      (∀ k, k < 4 → o = 0x198 + 8 * k → exec (.registerWrite win off v) s = .next (if win = 0 ∧ 0x4000 ≤ off then
        s.modFunc func fun f => { f with margs := setAt f.margs k v } else s)) ∧
      (o = 0x180 → exec (.registerWrite win off v) s = .next (if win = 0 ∧ 0x4000 ≤ off then
        (if x % 2 ^ 16 = 0 ∧ x / 2 ^ 52 = 0 then s.modFunc func fun f => { f with invBase := v } else rejected s func) else s)) ∧
      (o ∉ [0x10, 0x18, 0x80, 0x88, 0x180, 0x190, 0x198, 0x1A0, 0x1A8, 0x1B0] → exec (.registerWrite win off v) s = .next s)) ∧
    (∀ ring, ring < 3 → let k := x % 32
      (6 ≤ k → k ≤ 16 → x / 32 % 128 = 0 → x / 2 ^ 52 = 0 → exec (.ringSetup 0 func ring v) s =
        .next (s.modFunc func fun f => { f with rings := setAt f.rings ring ⟨x / 4096 * 4096, k, true, 0, 0, 0⟩ })) ∧
      (k < 6 ∨ 16 < k ∨ x / 32 % 128 ≠ 0 ∨ x / 2 ^ 52 ≠ 0 → exec (.ringSetup 0 func ring v) s = .next (rejected s func)) ∧
      (win ≠ 0 → exec (.ringSetup win func ring v) s = .next s)) ∧
    (∀ ring z, f.rings[ring]? = some z → let n := x % 2 ^ 32
      let ok := (n + 2 ^ 32 - z.rd) % 2 ^ 32 ≤ (z.wr + 2 ^ 32 - z.rd) % 2 ^ 32
      (ok → ∃ u, exec (.ringReadIndexWrite func ring v) s = .next u ∧ { u with funcs := s.funcs } = s ∧
        u.func func = { f with rings := f.rings.set ring { z with rd := n } }) ∧
      (¬ ok → exec (.ringReadIndexWrite func ring v) s = .next (rejected s func))) ∧
    (∀ k c, f.errcnt[k]? = some c → c.1 < 2 ^ 32 → c.2 < 2 ^ 32 → ∃ u a b, exec (.errcntClear func k v) s = .next u ∧
      { u with funcs := s.funcs } = s ∧ u.func func = { f with errcnt := f.errcnt.set k (a, b) } ∧
      ∀ i, i < 32 → a.testBit i = (c.1.testBit i && !x.testBit i) ∧ b.testBit i = (c.2.testBit i && !x.testBit (32 + i))) ∧
    (∃ u, exec (.statusClear func v) s = .next u ∧ { u with funcs := s.funcs } = s ∧
      { u.func func with status := f.status } = f ∧ ∀ i, (u.func func).status.testBit i = (f.status.testBit i && !x.testBit i))

open Sys2Proof.Claims in
/-- 16 R359, R367: QCMD binds a doorbell page to a queue, unbinds one whose packets have completed, selects one and restarts a stopped one. -/
def Sys2Proof.Claims.QueueCommands : Prop :=
  ∀ (s : State) (func page : Nat), s.bringUp = 5 → let f := s.func func
    (page < 4096 → (∀ q ∈ f.queues, q.page ≠ page) → f.qaddr.toNat % 64 = 0 → exec (.queueBind func page) s = .next (s.modFunc func fun f =>
      { f with queues := f.queues ++ [⟨page, f.qaddr.toNat, 0, false, false, false, 0, 0, false, [], false, 0, 0, 0⟩] })) ∧
    (4096 ≤ page ∨ (∃ q ∈ f.queues, q.page = page) ∨ f.qaddr.toNat % 64 ≠ 0 → exec (.queueBind func page) s = .next (rejected s func)) ∧
    (∀ q, f.queues.find? (fun q => q.page == page) = some q →
      (q.running = [] → ∃ u, exec (.queueUnbind func page) s = .next u ∧ { u with funcs := s.funcs, launches := s.launches } = s ∧
        u.func func = { f with queues := f.queues.filter (·.page != page) } ∧
        ∀ l, l ∈ u.launches ↔ l ∈ s.launches ∧
          ¬ (l.func = func ∧ l.nextCluster = 0 ∧ l.started = 0 ∧ l.queue.map (·.1) = some page)) ∧
      (q.running ≠ [] → exec (.queueUnbind func page) s = .next (rejected s func))) ∧
    exec (.queueSelect func page) s = .next (s.modFunc func fun f => { f with selected := page }) ∧
    exec (.queueRestart func page) s = .next (s.modFunc func fun f => { f with
      queues := f.queues.map fun q => if q.page = page ∧ q.stopped = true then { q with restarted := true } else q })

open Sys2Proof.Claims in
/-- 16 R369, R371, 05 R103, R115: CONFIG, GRID and the keys. A bay belongs to one function, and is given or taken while no team of it is resident;
shares add up to at most 1000; a way reduction notes the ways it takes. GRID trains the ports again. -/
def Obligations.ConfigurationWrites : Prop :=
  ∀ (s : State) (func : Nat) (v : W64), s.bringUp = 5 → let f := s.func func
    let x := v.toNat
    let write := fun off => exec (.configWrite 0 func off v) s
    let become := fun (g : FConfig → FConfig) => Host.Outcome.next (s.modFunc func fun f => { f with cfg := g f.cfg })
    (∀ win off, win ≠ 0 → exec (.configWrite win func off v) s = .next s) ∧
    (∀ (off : Nat) (bays : BitVec 80), off = 0x100 ∧ bays = BitVec.ofNat 80 (x + f.cfg.bays.toNat / 2 ^ 64 * 2 ^ 64) ∨
        (off = 0x108 ∧ x < 2 ^ 16 ∧ bays = BitVec.ofNat 80 (f.cfg.bays.toNat % 2 ^ 64 + x * 2 ^ 64)) →
      let free := ∀ k ∈ s.funcs, k.id ≠ func → k.cfg.bays &&& bays = 0
      (f.moved = false → (∀ t ∈ s.teams, t.func ≠ func) → free → bays = 0 ∨ f.cfg.share ≠ 0 → write off = become fun c => { c with bays := bays }) ∧
      (¬ free → write off = .next (rejected s func)) ∧
      (bays ≠ f.cfg.bays → (∃ t ∈ s.teams, t.func = func) → write off = .next (rejected s func)) ∧
      (bays ≠ 0 → f.cfg.share = 0 → write off = .next (rejected s func))) ∧
    (2 ^ 16 ≤ x → write 0x108 = .next (rejected s func)) ∧
    (let share := x / 2 ^ 16 % 2 ^ 10
     let kept := x / 2 ^ 6 % 2 ^ 10 = 0 ∧ x / 2 ^ 26 % 2 ^ 6 = 0 ∧ x / 2 ^ 42 = 0
     (kept → share + s.otherShares func ≤ 1000 → share ≠ 0 ∨ f.cfg.bays = 0 → write 0x110 = become fun c => { c with
        kslot := x % 2 ^ 6
        share := share
        weight := x / 2 ^ 32 % 2 ^ 8
        nochk := x.testBit 40
        tlimit := x.testBit 41 }) ∧
     (¬ kept ∨ 1000 < share + s.otherShares func → write 0x110 = .next (rejected s func))) ∧
    (let base := x % 2 ^ 12
     let lim := x / 2 ^ 16 % 2 ^ 13
     let ok := x / 2 ^ 12 % 2 ^ 4 = 0 ∧ x / 2 ^ 29 = 0 ∧ base + lim ≤ 4096
     (ok → write 0x118 = become fun c => { c with
        vbase := base
        vlimit := lim }) ∧
     (¬ ok → write 0x118 = .next (rejected s func))) ∧
    (∀ (h : BitVec 24) (w : BitVec 16), h = BitVec.ofNat 24 x → w = BitVec.ofNat 16 (x / 2 ^ 32) →
      (x / 2 ^ 24 % 2 ^ 8 = 0 → x / 2 ^ 48 = 0 → h ≠ 0 → w ≠ 0 → ∃ u, write 0x120 = .next u ∧ { u with funcs := s.funcs } = s ∧
        (u.func func).cfg = { f.cfg with hways := h, sways := w } ∧
        (u.func func).oldHways = f.oldHways ||| (if f.cfg.hways &&& ~~~h = 0 then 0#24 else f.cfg.hways) ∧
        (u.func func).oldSways = f.oldSways ||| (if f.cfg.sways &&& ~~~w = 0 then 0#16 else f.cfg.sways)) ∧
      (h = 0 ∨ w = 0 → write 0x120 = .next (rejected s func))) ∧
    (write 0x128 = become fun c => { c with
      capwb := x % 2 ^ 8
      capab := x / 2 ^ 8 % 2 ^ 8
      capsb := x / 2 ^ 16 % 2 ^ 8
      capacc := x / 2 ^ 24 % 2 ^ 8
      capv := x / 2 ^ 32 % 2 ^ 16
      capu := x / 2 ^ 48 }) ∧
    (let ok := x / 2 ^ 8 % 2 ^ 4 ≤ x % 2 ^ 4 ∧ x / 2 ^ 12 % 2 ^ 4 ≤ x / 2 ^ 4 % 2 ^ 4 ∧ x / 2 ^ 16 = 0 ∧ ∀ k ∈ s.funcs, k.cfg.bays = 0
     (ok → exec (.gridWrite v) s = .next { s with
        grid := v
        ports := (rangeFrom 0 32).map fun k => ⟨({ s with grid := v } : State).portUsed k⟩ }) ∧
     (¬ ok → exec (.gridWrite v) s = .next (rejected s 0))) ∧
    (∀ slot (key : BitVec 256), (slot < 64 → ∃ u, exec (.keySlotLoad slot key false) s = .next u ∧ { u with keys := s.keys } = s ∧
        ∀ k, u.keyOf k = if k = slot then some key else s.keyOf k) ∧
      ∃ u, exec (.keySlotLoad slot key true) s = .next u ∧ { u with routerKeys := s.routerKeys } = s ∧
        ∀ y, y ∈ u.routerKeys ↔ y = key ∨ y ∈ s.routerKeys)

/-! ### The whole machine (02 R14 to R16, R24, R28, R37, R38; 08 R172; 14 R311, R317; 16 R361) -/

namespace Sys2Proof.Claims

/-- Lanes take a terminal fault (14 R311, R317): one record of 14 Table 14-2 goes to the terminal ring of their function, the lanes end, and
the registers of their gang, every other gang of the device and memory keep their values. -/
structure LanesFault (s u : State) (t : Team) (g : Gang) (lanes : Mask) (code : FaultCode) (pc : Nat) (word : W32) (detail : Nat) :
    Prop where
  record : ∃ r, (u.func t.func).pend = (s.func t.func).pend ++ [r] ∧ r.ring = 1 ∧ r.code = code ∧ r.func = t.func ∧ r.launch = t.launch ∧
    r.team = t.num ∧ r.gang = g.idx ∧ r.lanes = lanes ∧ r.word = word ∧ r.pc = pc ∧ r.detail = BitVec.ofNat 64 detail
  team : ∃ x, u.team? t.launch t.num = some x ∧ x.faulted = true
  gang : ∃ g', u.gang? t.launch t.num g.idx = some g' ∧ (∀ e ∈ g'.frontier, e.mask &&& lanes = 0) ∧ g'.exited = g.exited ||| lanes ∧
    (∀ r, g'.lanes r = g.lanes r ∧ g'.tag r = g.tag r ∧ g'.uni r = g.uni r ∧ g'.pred r = g.pred r)
  others : ∀ l n k, ¬ (l = t.launch ∧ n = t.num ∧ k = g.idx) → u.gang? l n k = s.gang? l n k
  memory : SameMemory s u

/-- Place in the order of accesses of the bundle that an entry begins: new, or that of the entry that waited there. -/
def seqOf (s : State) (e : Entry) : Nat := if e.since = 0 then s.fresh + 1 else e.since

/-- The bundle that entry `e` of gang `g` of team `t` begins at an instruction word. -/
def bundle (s : State) (t : Team) (g : Gang) (e : Entry) (w len : Nat) : Cur :=
  ⟨t.launch, t.num, g.idx, e.eid, e.pc, e.pc, e.mask, BitVec.ofNat 32 w, len, seqOf s e⟩

/-- The state in which that bundle runs. -/
def issuing (s : State) (t : Team) (g : Gang) (e : Entry) : State :=
  (if e.since = 0 then { s with fresh := s.fresh + 2 } else s).modEntry t.launch t.num g.idx e.eid fun x => { x with since := seqOf s e }

/-- The bundle runs: its instruction has its effect, the bundle is over, and a region-ending instruction whose lanes have all faulted
ends its region (02 R39). -/
def ran (s : State) (c : Cur) (i : Instr) : Out :=
  match exec i { s with cur := some c } with
  | .next u => .next (State.closeRegion { u with cur := none } c i (((s.gang? c.launch c.team c.gang).map (·.region.num)).getD 0))
  | r => r

/-- What a step makes of the outcome of its bundle: the issue counts, and a cycle passes. A bundle whose records the reporting port has no
room for does not come about: its entry stalls (14 R313). -/
def issued (s : State) (t : Team) (g : Gang) (e : Entry) : Out → Out
  | .next u =>
    let v := if s.overfills u = true then s.modEntry t.launch t.num g.idx e.eid fun x => { x with st := .stalled .port, promoted := none }
      else s.countIssue t g e u
    .next { v with now := v.now + 1 }
  | r => r

/-- The launch-time stamp that instruction fetch is ordered by (02 R17). -/
def stampOf (s : State) (t : Team) : Nat := ((s.launch? t.launch).map (·.stamp)).getD 0

end Sys2Proof.Claims

/-- 02 R24: a B-format instruction at address a with offset o goes to a + 2 × Sext(o, 22), from −4 MiB to +4 MiB − 2 bytes away; CALL's
return address is a + 4. -/
def Obligations.BranchTargets : Prop :=
  ∀ (s : State) (c : Cur) (t : Team) (g : Gang) (e : Entry) (o : BitVec 22),
    Acts s c t g → Ample s c → Shaped g → g.entry? c.eid = some e → c.mask &&& ~~~ e.mask = 0 → c.len = 4 → c.pc + 4 < 2 ^ 54 →
    -4194304 ≤ 2 * o.toInt ∧ 2 * o.toInt ≤ 4194302 ∧
    ∀ i, i = .bra o ∨ i = .call o →
      ∃ u g', exec i s = .next u ∧ u.gang? c.launch c.team c.gang = some g' ∧
        (∀ n, n < 32 → c.mask.getLsbD n = true → ∃ x ∈ g'.frontier, x.mask.getLsbD n = true ∧
          (x.pc : Int) = ((c.pc : Int) + 2 * o.toInt) % 2 ^ 55) ∧
        (i = .call o → ∀ n, n < 32 → c.mask.getLsbD n = true → g'.lane 62 true n = c.pc + 4)

/-- 16 R361, R369, 03 R60, 08 R179, 07 R161: what reset leaves, where the manual gives it; no clause rests on a value of log 3. -/
def Obligations.StateAtReset : Prop :=
  State.reset.bringUp = 0 ∧ State.reset.linkUp = false ∧ State.reset.teams = [] ∧ State.reset.launches = [] ∧
  (∀ a, State.reset.homeGet a = 0) ∧ (∀ sec, State.reset.homePoison sec = false) ∧ State.reset.grid = 0 ∧ State.reset.vdntab = 0 ∧
  (∀ f, let x := (State.reset.func f).cfg
    x.bays = 0 ∧ x.kslot = 0 ∧ x.share = 0 ∧ x.weight = 0 ∧ x.nochk = false ∧ x.tlimit = false ∧ x.vbase = 0 ∧ x.vlimit = 0 ∧
    x.hways = 0xFFFFFF ∧ x.sways = 0xFFFF ∧ x.capwb = 255 ∧ x.capab = 255 ∧ x.capsb = 255 ∧ x.capacc = 255 ∧ x.capv = 0xFFFF ∧
    x.capu = 0xFFFF) ∧
  ∀ k, (State.reset.core k).poolV = 32768 ∧ (State.reset.core k).poolS = 32768 ∧ (State.reset.core k).baton = .free ∧
    ∀ b n, ((State.reset.core k).buf b).presence n = .disarmed

/-- The three invariants below hold at reset. -/
def Obligations.InvariantsAtReset : Prop :=
  State.reset.memOk ∧ State.reset.buffersOk ∧ State.reset.linesWhole ∧ ∀ t ∈ State.reset.teams, ∀ g ∈ t.gangs, Shaped g

/-- Every step keeps device memory and the bytes of every typed buffer in their canonical form, addresses rising and no listed byte zero, and
keeps each sector of a line of a home or stack cache wholly valid or not valid at all. -/
def Obligations.MemoryStaysCanonical : Prop :=
  ∀ s t : State, s.memOk → s.buffersOk → s.linesWhole → step s = .next t → t.memOk ∧ t.buffersOk ∧ t.linesWhole

/-- 08 Table 8-1, 13 R300: every step keeps the register files of every gang at their sizes: 64 vector and 64 uniform registers, 8 predicates,
16 tile registers, 12 flags, 8 copy tags, 16 barrier phases. -/
def Obligations.GangsKeepTheirShape : Prop :=
  ∀ s u : State, (∀ t ∈ s.teams, ∀ g ∈ t.gangs, Shaped g) → step s = .next u → ∀ t ∈ u.teams, ∀ g ∈ t.gangs, Shaped g

/-- Decoding the bytes of any instruction, followed by any bytes, gives the instruction with every operand, and leaves the rest. -/
def Obligations.DecodeInvertsEncode : Prop := ∀ i : Instr, Laws.Encode.Statement i

/-- Words of the worked encodings of 02, 10 and 12, and their instructions. -/
def Obligations.WordsDecode : Prop :=
  decodeTableWord 32 0x8B4A18F1 = some (.fadd 6 ⟨false, true, 10⟩ ⟨true, false, 11⟩) ∧
  decodeTableWord 32 0x0000010F = some (.clauseHeader 0x010 0 0 0) ∧
  decodeTableWord 32 0x00000121 = none ∧
  decodeTableWord 16 0x00A0 = some (.pred 2 false) ∧
  decodeTableWord 32 0x00060C53 = some (.movi 3 6) ∧
  decodeTableWord 32 0x030248FD = some (.fset 2 2 ⟨false, false, 2⟩ ⟨false, false, 3⟩) ∧
  decodeTableWord 32 0x0202147D = some (.vote 5 2 false 2)

/-- No instruction stops the machine: in every state whose bundle stands in a gang, every instruction and every event answers a next state. -/
def Obligations.NoInstructionStops : Prop :=
  ∀ (i : Instr) (s : State) (c : Cur) (t : Team) (g : Gang), Issues s c t g → ∃ u, exec i s = .next u

/-- 13 R287, R288, 02 R16, R32: the issue of a quarter fetches at the entry that is chosen, decodes what stands there and runs it: one
instruction, or PRED and the instruction behind it with the lanes that PRED leaves. Around it, the step clears the bundle, counts the issue,
or stalls the entry for the reporting port, and takes a cycle. That the issue of this quarter is the next act is the model's order (log 9, DESIGN CHOICE). -/
def Obligations.StepRunsDecoded : Prop :=
  ∀ (s s1 s2 : State) (q w len : Nat) (rest : List Act) (t : Team) (g : Gang) (e : Entry) (i : Instr),
    s.agenda = .issue q :: rest →
    State.chooseGang { s with agenda := rest } q = some (t, g) →
    chooseEntry (State.eligibles { s with agenda := rest } t g) = some e →
    State.fetchWord { s with agenda := rest } t g.idx e.eid (stampOf s t) e.pc = .word w len s1 →
    decodeFetched w len = .ok i →
    s1.screen t g.idx e.eid (stampOf s t) e.pc w len (e.setA == 16) = .go i s2 →
    ((∀ p n, i ≠ .pred p n) →
      step s = issued { s with agenda := rest } t g e (ran (issuing s2 t g e) (bundle s2 t g e w len) i)) ∧
    ∀ (p : BitVec 3) (n : Bool) (s3 s4 s5 : State) (c : Cur) (w1 len1 : Nat) (j : Instr),
      i = .pred p n → exec i { issuing s2 t g e with cur := some (bundle s2 t g e w len) } = .next s3 → s3.cur = some c →
      State.fetchWord { s3 with cur := none } t g.idx e.eid (stampOf s t) c.pc = .word w1 len1 s4 →
      s4.screen t g.idx e.eid (stampOf s t) c.pc w1 len1 false = .go j s5 →
      step s = issued { s with agenda := rest } t g e (ran s5 { c with word := BitVec.ofNat 32 w1, len := len1 } j)

/-- 02 R28, R37, R38: a word that decoding or a zero field refuses faults ILL_ENC: every lane of the entry ends, and the record's detail
is the address for a word that does not decode. -/
def Obligations.IllegalEncodingFaults : Prop :=
  ∀ (s s1 : State) (w len : Nat) (t : Team) (g : Gang) (e : Entry) (err : DecodeErr),
    s.team? t.launch t.num = some t → t.gangs[g.idx]? = some g → g.entry? e.eid = some e → e ∈ g.frontier →
    s.fetchWord t g.idx e.eid (stampOf s t) e.pc = .word w len s1 → s1.teams = s.teams →
    decodeFetched w len = .error err → err ≠ .short → e.setA ≠ 16 → g.held e = false →
    ∃ u, s.issueAt t g e = .next u ∧
      LanesFault s1 u t g e.mask .illEnc e.pc (BitVec.ofNat 32 w) (if err = .decoding then e.pc else 0)

/-- 08 R172, R173, 14 R317, R380: a source whose tag the instruction's table does not accept faults TAG_MISMATCH on every active lane;
the detail names its register and the tag found, of the first refused source, and no register is written. Here FADD, FMUL, FMIN, IADD, IMUL, BRX and RET. -/
def Obligations.TagFaults : Prop :=
  ∀ (s : State) (c : Cur) (t : Team) (g : Gang) (d : BitVec 6) (a b : Opnd),
    Acts s c t g → g.idx = c.gang → t.launch = c.launch → t.num = c.team →
    (∀ i, i = .fadd d a b ∨ i = .fmul d a b ∨ i = .fmin d a b →
      (g.srcA a).tag = .i32 → (g.srcB b).tag ≠ .poison →
      ∃ u, exec i s = .next u ∧ LanesFault s u t g c.mask .tagMismatch c.pc c.word ((g.srcA a).reg + 256)) ∧
    (∀ i, i = .iadd d a b ∨ i = .imul d a b →
      (g.srcA a).tag = .i32 → (g.srcB b).tag = .f32 →
      ∃ u, exec i s = .next u ∧ LanesFault s u t g c.mask .tagMismatch c.pc c.word ((g.srcB b).reg + 6 * 256)) ∧
    (∀ i, i = .brx a ∨ i = .ret a → (g.srcA a).tag = .f32 → (g.srcA1 a).tag ≠ .poison →
      ∃ u, exec i s = .next u ∧ LanesFault s u t g c.mask .tagMismatch c.pc c.word ((g.srcA a).reg + 6 * 256))

/-! ### Statements of several parts -/

/-- Integer instructions write the lanes that the integer tables of 10 give. -/
def Obligations.IntegerResults : Prop :=
  Sys2Proof.Claims.IntegerElementwise ∧ Sys2Proof.Claims.CarryOfLimb ∧ Sys2Proof.Claims.LogicOfLanes

/-- Shifts, counts, fields, selects, addresses and integer conditions. -/
def Obligations.BitAndFieldResults : Prop :=
  Sys2Proof.Claims.ShiftsAndCounts ∧ Sys2Proof.Claims.FieldsAndSelects ∧ Sys2Proof.Claims.AddressAndPredicate

/-- Floating-point instructions write the lanes that 10 gives. -/
def Obligations.FloatResults : Prop :=
  Sys2Proof.Claims.FloatElementwise ∧ Sys2Proof.Claims.FloatScalesAndTests

/-- Special values of the functions, and the conversions between formats. -/
def Obligations.FunctionsAndConversions : Prop :=
  Sys2Proof.Claims.FunctionSpecialValues ∧ Sys2Proof.Claims.Conversions

/-- Moves within and between the register files, special registers, and quotas. -/
def Obligations.RegisterMoves : Prop :=
  Sys2Proof.Claims.VectorMoves ∧ Sys2Proof.Claims.MovesBetweenFiles ∧ Sys2Proof.Claims.UniformMoves ∧ Sys2Proof.Claims.QuotaChanges

/-- Passes are compared before write-back, and K steps are checked. -/
def Obligations.ChecksOfResults : Prop :=
  Sys2Proof.Claims.PassesAreCompared ∧ Sys2Proof.Claims.StepsAreChecked

/-- Quiet instructions, and instructions without an active lane. -/
def Obligations.InstructionsThatDoNothing : Prop :=
  Sys2Proof.Claims.QuietInstructions ∧ Sys2Proof.Claims.NoActiveLaneIgnored

/-- Clause headers, the entries that meet there, and predicated bundles. -/
def Obligations.ClausesAndPredicates : Prop :=
  Sys2Proof.Claims.ClauseHeaders ∧ Sys2Proof.Claims.HeadersMergeEntries ∧ Sys2Proof.Claims.PredicatesABundle

/-- Control transfers send lanes on, and entries reconverge. -/
def Obligations.TransfersAndReconvergence : Prop :=
  Sys2Proof.Claims.ControlTransfers ∧ Sys2Proof.Claims.Reconvergence

/-- STEP, regions, and draws from the team's interval. -/
def Obligations.StepsRegionsDraws : Prop :=
  Sys2Proof.Claims.StepsRegionsAndDraws ∧ Sys2Proof.Claims.DrawsRepeat

/-- Barriers are set up, count their gangs and phases, and fault when not set up. -/
def Obligations.Barriers : Prop :=
  Sys2Proof.Claims.BarrierSetup ∧ Sys2Proof.Claims.BarrierPhases ∧ Sys2Proof.Claims.BarrierNotSetUp

/-- TRAP and BKPT stop the team, SVC calls the handler. -/
def Obligations.TrapsAndCalls : Prop :=
  Sys2Proof.Claims.TrapsStopTheTeam ∧ Sys2Proof.Claims.ServiceCalls

/-- Loads from the core's cache begin and complete. -/
def Obligations.Loads : Prop :=
  Sys2Proof.Claims.LoadsFromTheCache ∧ Sys2Proof.Claims.LoadsComplete

/-- Stores join their gang's queue with their data; RFENCE counts its flag and sends its flag store. -/
def Obligations.StoresAndRemoteFences : Prop :=
  Sys2Proof.Claims.StoresJoinTheQueue ∧ Sys2Proof.Claims.RemoteFencesBegin

/-- Cache maintenance, fences and translation fences. -/
def Obligations.MaintenanceAndFences : Prop :=
  Sys2Proof.Claims.CacheMaintenance ∧ Sys2Proof.Claims.Fences ∧ Sys2Proof.Claims.TranslationFences

/-- Tile loads and stores. -/
def Obligations.TileAccesses : Prop :=
  Sys2Proof.Claims.TileLoads ∧ Sys2Proof.Claims.TileStores

/-- Presence of tiles, descriptors and fills. -/
def Obligations.PresenceAndFills : Prop :=
  Sys2Proof.Claims.PresenceControl ∧ Sys2Proof.Claims.TileFills

/-- Copies begin, move their elements, and complete. -/
def Obligations.Copies : Prop :=
  Sys2Proof.Claims.CopiesBegin ∧ Sys2Proof.Claims.CopyElements ∧ Sys2Proof.Claims.CopiesComplete

/-- CPYT begins and its rows land. -/
def Obligations.TileRowCopyInstruction : Prop :=
  Sys2Proof.Claims.TileRowCopies ∧ Sys2Proof.Claims.TileRowLands

/-- Copy control instructions and the queue packet of CPYQ. -/
def Obligations.CopyControlAndQueues : Prop :=
  Sys2Proof.Claims.CopyControl ∧ Sys2Proof.Claims.QueuePacketsWritten

/-- Signatures of matrix instructions, accumulator access and MSTORE. -/
def Obligations.MatrixInstructions : Prop :=
  Sys2Proof.Claims.MatrixSignatures ∧ Sys2Proof.Claims.AccumulatorAccess ∧ Sys2Proof.Claims.AccumulatorStores

/-- Engine operations start, take integer steps, and complete. -/
def Obligations.EngineOperations : Prop :=
  Sys2Proof.Claims.OperationsStart ∧ Sys2Proof.Claims.IntegerSteps ∧ Sys2Proof.Claims.OperationsComplete

/-- Promotion, polling and pool grants. -/
def Obligations.PromotionsAndGrants : Prop :=
  Sys2Proof.Claims.EntriesPromotedAndRetested ∧ Sys2Proof.Claims.PoolsGrant

/-- Walks start in turn and end with a translation, a page request or a fault. -/
def Obligations.Walks : Prop :=
  Sys2Proof.Claims.WalksStart ∧ Sys2Proof.Claims.WalksEnd

/-- Queued stores drain, and sectors arrive at a core. -/
def Obligations.QueuedStoresAndFills : Prop :=
  Sys2Proof.Claims.QueuedStoresDrain ∧ Sys2Proof.Claims.SectorsArrive

/-- Dirty lines leave the caches, and memory errors are handled. -/
def Obligations.WritebacksAndErrors : Prop :=
  Sys2Proof.Claims.DirtyLinesGoHome ∧ Sys2Proof.Claims.HomeLinesLeave ∧ Sys2Proof.Claims.MemoryErrors

/-- Fabric replies reach their lanes, and requests are timed. -/
def Obligations.RepliesAndTimers : Prop :=
  Sys2Proof.Claims.RepliesReachTheirLanes ∧ Sys2Proof.Claims.RequestsAreTimed

/-- The router passes packets on, and links change. -/
def Obligations.RoutingAndLinks : Prop :=
  Sys2Proof.Claims.PacketsAreRouted ∧ Sys2Proof.Claims.LinksChange

/-- A target performs requests, releases and requests of a function that moved in. -/
def Obligations.TargetsOfTheFabric : Prop :=
  Sys2Proof.Claims.TargetsPerform ∧ Sys2Proof.Claims.ReleasesPerform ∧ Sys2Proof.Claims.MovedRequestsPerform

/-- WAITTILE and WAITVAL hold a queue until their condition holds. -/
def Obligations.QueueWaits : Prop :=
  Sys2Proof.Claims.QueuesWait ∧ Sys2Proof.Claims.WaitConditions

/-- SIGNAL and FENCEMARK store, and doorbells let a queue be read. -/
def Obligations.QueueSignalsAndDoorbells : Prop :=
  Sys2Proof.Claims.QueuesSignal ∧ Sys2Proof.Claims.DoorbellsRing

/-- Teams start and end, and launches complete. -/
def Obligations.TeamsAndLaunches : Prop :=
  Sys2Proof.Claims.TeamsStart ∧ Sys2Proof.Claims.TeamsEnd ∧ Sys2Proof.Claims.LaunchesComplete

/-- Migration commands, rounds and the stop phase. -/
def Obligations.Migration : Prop :=
  Sys2Proof.Claims.MigrationCommands ∧ Sys2Proof.Claims.MigrationProceeds

/-- Checkpoints are armed, agreed and taken; record and replay modes are entered and left. -/
def Obligations.CheckpointsAndReplay : Prop :=
  Sys2Proof.Claims.CheckpointsAreTaken ∧ Sys2Proof.Claims.CheckpointStepIsAgreed ∧ Sys2Proof.Claims.RecordAndReplayModes

/-- Bring-up, firmware, attestation and the memory window. -/
def Obligations.HostLink : Prop :=
  Sys2Proof.Claims.DeviceComesUp ∧ Sys2Proof.Claims.HostWindow

/-- Writes of the register window and queue commands. -/
def Obligations.RegisterWrites : Prop :=
  Sys2Proof.Claims.RegisterWindow ∧ Sys2Proof.Claims.QueueCommands
end

