-- ==== Sys2Proof/Laws/Cells.lean ====
section
/-! SUPPORT. Cell lists: reading after writing, and the canonical form, which every write keeps. -/

namespace Sys2Proof.Machine

theorem cellsFrom_mono {lo hi : Nat} (h : lo ≤ hi) : ∀ {m : List Host.Cell}, cellsFrom hi m = true → cellsFrom lo m = true
  | [], _ => rfl
  | (a, b) :: t, h1 => by
    simp only [cellsFrom, Bool.and_eq_true, decide_eq_true_eq] at h1 ⊢
    exact ⟨⟨by omega, h1.1.2⟩, h1.2⟩

theorem cellsFrom_set {v : Byte} {x : Nat} : ∀ {m : List Host.Cell} {lo : Nat}, lo ≤ x → cellsFrom lo m = true →
    cellsFrom lo (cellSet m x v) = true
  | [], lo, h, _ => by
    by_cases hv : v = 0#8
    · simp [cellSet, cellsFrom, hv]
    · simp [cellSet, cellsFrom, hv, h]
  | (a, b) :: t, lo, h, h1 => by
    have h2 := h1
    simp only [cellsFrom, Bool.and_eq_true, decide_eq_true_eq] at h2
    obtain ⟨⟨ha, hb⟩, ht⟩ := h2
    unfold cellSet
    by_cases h3 : x < a
    · by_cases hv : v = 0#8
      · simpa [h3, hv] using h1
      · have h4 : x + 1 ≤ a := h3
        simpa [h3, hv, cellsFrom, h, ht, h4] using hb
    · by_cases h4 : x = a
      · subst h4
        by_cases hv : v = 0#8
        · simpa [hv] using cellsFrom_mono (Nat.le_succ_of_le h) ht
        · simp [hv, cellsFrom, h, ht]
      · simp only [if_neg h3, if_neg h4, cellsFrom, Bool.and_eq_true, decide_eq_true_eq]
        exact ⟨⟨ha, hb⟩, cellsFrom_set (by omega) ht⟩

/-- A write of one byte keeps the canonical form. -/
theorem wf_cellSet {m : List Host.Cell} {x : Nat} {v : Byte} (h : Memory.wf m = true) : Memory.wf (cellSet m x v) = true :=
  cellsFrom_set (Nat.zero_le x) h

/-- A write of bytes keeps the canonical form. -/
theorem wf_cellPut : ∀ {l : List Byte} {m : List Host.Cell} {x : Nat}, Memory.wf m = true → Memory.wf (cellPut m x l) = true
  | [], _, _, h => h
  | b :: l, m, x, h => wf_cellPut (l := l) (m := cellSet m x b) (x := x + 1) (wf_cellSet h)

theorem cellGet_below {x : Nat} : ∀ {m : List Host.Cell} {lo : Nat}, cellsFrom lo m = true → x < lo → cellGet m x = 0
  | [], _, _, _ => rfl
  | (a, b) :: t, lo, h, hx => by
    simp only [cellsFrom, Bool.and_eq_true, decide_eq_true_eq] at h
    have h1 : a ≠ x := by omega
    have h2 : x < a := by omega
    simp [cellGet, h1, h2]

theorem cellGet_cellSet_from {x y : Nat} {v : Byte} : ∀ {m : List Host.Cell} {lo : Nat}, cellsFrom lo m = true →
    cellGet (cellSet m x v) y = if y = x then v else cellGet m y
  | [], _, _ => by
    by_cases hv : v = 0#8
    · simp [cellSet, cellGet, hv]
    · by_cases h : x = y
      · subst h; simp [cellSet, cellGet, hv]
      · simp [cellSet, cellGet, hv, h, Ne.symm h]
  | (a, b) :: t, lo, h => by
    simp only [cellsFrom, Bool.and_eq_true, decide_eq_true_eq] at h
    obtain ⟨⟨_, hb⟩, ht⟩ := h
    unfold cellSet
    by_cases h3 : x < a
    · have hax : a ≠ x := by omega
      by_cases hv : v = 0#8
      · by_cases hy : y = x
        · subst hy; simp [h3, hv, cellGet, hax]
        · simp [h3, hv, hy]
      · by_cases hy : y = x
        · subst hy; simp [h3, hv, cellGet]
        · by_cases hyx : y < x
          · have : a ≠ y := by omega
            have : y < a := by omega
            simp [Ne.symm hy, cellGet, *]
          · simp [h3, hv, hy, Ne.symm hy, hyx, cellGet]
    · by_cases h4 : x = a
      · subst h4
        by_cases hv : v = 0#8
        · by_cases hy : y = x
          · subst hy
            simp [hv, cellGet_below ht (Nat.lt_succ_self y)]
          · by_cases hyx : y < x
            · simp [hv, hy, Ne.symm hy, hyx, cellGet, cellGet_below ht (by omega : y < x + 1)]
            · simp [hv, hy, Ne.symm hy, hyx, cellGet]
        · by_cases hy : y = x
          · subst hy; simp [hv, cellGet]
          · simp [hv, hy, Ne.symm hy, cellGet]
      · simp only [if_neg h3, if_neg h4, cellGet]
        by_cases hy : a = y
        · subst hy; simp [Ne.symm h4]
        · by_cases hya : y < a
          · have : y ≠ x := by omega
            simp [hy, hya, this]
          · simp [hy, hya, cellGet_cellSet_from ht]

/-- Reading after writing one byte. -/
theorem cellGet_cellSet {m : List Host.Cell} {x y : Nat} {v : Byte} (h : Memory.wf m = true) :
    cellGet (cellSet m x v) y = if y = x then v else cellGet m y := cellGet_cellSet_from h

/-- Reading after writing bytes: the byte written there, or the byte before. -/
theorem cellGet_cellPut : ∀ {l : List Byte} {m : List Host.Cell} {x y : Nat}, Memory.wf m = true →
    cellGet (cellPut m x l) y = if x ≤ y ∧ y < x + l.length then l.getD (y - x) 0 else cellGet m y
  | [], _, x, y, _ => by
    have h : ¬ (x ≤ y ∧ y < x + ([] : List Byte).length) := by simp
    rw [if_neg h, cellPut]
  | b :: t, m, x, y, h => by
    rw [cellPut, cellGet_cellPut (wf_cellSet h), cellGet_cellSet h]
    by_cases h1 : y = x
    · subst h1
      have h2 : ¬ (y + 1 ≤ y ∧ y < y + 1 + t.length) := by omega
      have h3 : y ≤ y ∧ y < y + (b :: t).length := by simp
      rw [if_neg h2, if_pos h3, if_pos rfl]
      simp
    · by_cases h2 : x + 1 ≤ y ∧ y < x + 1 + t.length
      · have h3 : x ≤ y ∧ y < x + (b :: t).length := by simp; omega
        rw [if_pos h2, if_pos h3, show y - x = (y - (x + 1)) + 1 by omega]
        simp
      · have h3 : ¬ (x ≤ y ∧ y < x + (b :: t).length) := by simp; omega
        rw [if_neg h2, if_neg h3, if_neg h1]

/-- Memory at reset is canonical. -/
theorem wf_reset : Memory.wf State.reset.mem = true := rfl

end Sys2Proof.Machine
end

