-- ==== Sys2Proof/Laws/State.lean ====
section
/-! SUPPORT. Every field of the state after each named update: the update changes its own field and no other. -/

namespace Sys2Proof.Machine

variable (s : State)

/-! ### `setCore` changes `cores` alone -/

@[simp] theorem State.setCore_mem (x : Core) : (s.setCore x).mem = s.mem := rfl
@[simp] theorem State.setCore_poison (x : Core) : (s.setCore x).poison = s.poison := rfl
@[simp] theorem State.setCore_flips (x : Core) : (s.setCore x).flips = s.flips := rfl
@[simp] theorem State.setCore_dieFlips (x : Core) : (s.setCore x).dieFlips = s.dieFlips := rfl
@[simp] theorem State.setCore_stackCnt (x : Core) : (s.setCore x).stackCnt = s.stackCnt := rfl
@[simp] theorem State.setCore_stack (x : Core) : (s.setCore x).stack = s.stack := rfl
@[simp] theorem State.setCore_home (x : Core) : (s.setCore x).home = s.home := rfl
@[simp] theorem State.setCore_bitmap (x : Core) : (s.setCore x).bitmap = s.bitmap := rfl
@[simp] theorem State.setCore_reds (x : Core) : (s.setCore x).reds = s.reds := rfl
@[simp] theorem State.setCore_oldCode (x : Core) : (s.setCore x).oldCode = s.oldCode := rfl
@[simp] theorem State.setCore_stamp (x : Core) : (s.setCore x).stamp = s.stamp := rfl
@[simp] theorem State.setCore_dies (x : Core) : (s.setCore x).dies = s.dies := rfl
@[simp] theorem State.setCore_pageReqs (x : Core) : (s.setCore x).pageReqs = s.pageReqs := rfl
@[simp] theorem State.setCore_nextReq (x : Core) : (s.setCore x).nextReq = s.nextReq := rfl
@[simp] theorem State.setCore_teams (x : Core) : (s.setCore x).teams = s.teams := rfl
@[simp] theorem State.setCore_launches (x : Core) : (s.setCore x).launches = s.launches := rfl
@[simp] theorem State.setCore_launchCount (x : Core) : (s.setCore x).launchCount = s.launchCount := rfl
@[simp] theorem State.setCore_funcs (x : Core) : (s.setCore x).funcs = s.funcs := rfl
@[simp] theorem State.setCore_reportRound (x : Core) : (s.setCore x).reportRound = s.reportRound := rfl
@[simp] theorem State.setCore_grid (x : Core) : (s.setCore x).grid = s.grid := rfl
@[simp] theorem State.setCore_vdntab (x : Core) : (s.setCore x).vdntab = s.vdntab := rfl
@[simp] theorem State.setCore_ports (x : Core) : (s.setCore x).ports = s.ports := rfl
@[simp] theorem State.setCore_keys (x : Core) : (s.setCore x).keys = s.keys := rfl
@[simp] theorem State.setCore_routerKeys (x : Core) : (s.setCore x).routerKeys = s.routerKeys := rfl
@[simp] theorem State.setCore_nonces (x : Core) : (s.setCore x).nonces = s.nonces := rfl
@[simp] theorem State.setCore_segments (x : Core) : (s.setCore x).segments = s.segments := rfl
@[simp] theorem State.setCore_router (x : Core) : (s.setCore x).router = s.router := rfl
@[simp] theorem State.setCore_replies (x : Core) : (s.setCore x).replies = s.replies := rfl
@[simp] theorem State.setCore_tileWait (x : Core) : (s.setCore x).tileWait = s.tileWait := rfl
@[simp] theorem State.setCore_fetched (x : Core) : (s.setCore x).fetched = s.fetched := rfl
@[simp] theorem State.setCore_forwards (x : Core) : (s.setCore x).forwards = s.forwards := rfl
@[simp] theorem State.setCore_tfences (x : Core) : (s.setCore x).tfences = s.tfences := rfl
@[simp] theorem State.setCore_bringUp (x : Core) : (s.setCore x).bringUp = s.bringUp := rfl
@[simp] theorem State.setCore_sriov (x : Core) : (s.setCore x).sriov = s.sriov := rfl
@[simp] theorem State.setCore_linkUp (x : Core) : (s.setCore x).linkUp = s.linkUp := rfl
@[simp] theorem State.setCore_overTemp (x : Core) : (s.setCore x).overTemp = s.overTemp := rfl
@[simp] theorem State.setCore_firmware (x : Core) : (s.setCore x).firmware = s.firmware := rfl
@[simp] theorem State.setCore_now (x : Core) : (s.setCore x).now = s.now := rfl
@[simp] theorem State.setCore_agenda (x : Core) : (s.setCore x).agenda = s.agenda := rfl
@[simp] theorem State.setCore_turn (x : Core) : (s.setCore x).turn = s.turn := rfl
@[simp] theorem State.setCore_nextQuarter (x : Core) : (s.setCore x).nextQuarter = s.nextQuarter := rfl
@[simp] theorem State.setCore_cur (x : Core) : (s.setCore x).cur = s.cur := rfl
@[simp] theorem State.setCore_free (x : Core) : (s.setCore x).free = s.free := rfl
@[simp] theorem State.setCore_fresh (x : Core) : (s.setCore x).fresh = s.fresh := rfl
@[simp] theorem State.setCore_sent (x : Core) : (s.setCore x).sent = s.sent := rfl

/-! ### `modCore` changes `cores` alone -/

@[simp] theorem State.modCore_mem (k : Nat) (f : Core → Core) : (s.modCore k f).mem = s.mem := rfl
@[simp] theorem State.modCore_poison (k : Nat) (f : Core → Core) : (s.modCore k f).poison = s.poison := rfl
@[simp] theorem State.modCore_flips (k : Nat) (f : Core → Core) : (s.modCore k f).flips = s.flips := rfl
@[simp] theorem State.modCore_dieFlips (k : Nat) (f : Core → Core) : (s.modCore k f).dieFlips = s.dieFlips := rfl
@[simp] theorem State.modCore_stackCnt (k : Nat) (f : Core → Core) : (s.modCore k f).stackCnt = s.stackCnt := rfl
@[simp] theorem State.modCore_stack (k : Nat) (f : Core → Core) : (s.modCore k f).stack = s.stack := rfl
@[simp] theorem State.modCore_home (k : Nat) (f : Core → Core) : (s.modCore k f).home = s.home := rfl
@[simp] theorem State.modCore_bitmap (k : Nat) (f : Core → Core) : (s.modCore k f).bitmap = s.bitmap := rfl
@[simp] theorem State.modCore_reds (k : Nat) (f : Core → Core) : (s.modCore k f).reds = s.reds := rfl
@[simp] theorem State.modCore_oldCode (k : Nat) (f : Core → Core) : (s.modCore k f).oldCode = s.oldCode := rfl
@[simp] theorem State.modCore_stamp (k : Nat) (f : Core → Core) : (s.modCore k f).stamp = s.stamp := rfl
@[simp] theorem State.modCore_dies (k : Nat) (f : Core → Core) : (s.modCore k f).dies = s.dies := rfl
@[simp] theorem State.modCore_pageReqs (k : Nat) (f : Core → Core) : (s.modCore k f).pageReqs = s.pageReqs := rfl
@[simp] theorem State.modCore_nextReq (k : Nat) (f : Core → Core) : (s.modCore k f).nextReq = s.nextReq := rfl
@[simp] theorem State.modCore_teams (k : Nat) (f : Core → Core) : (s.modCore k f).teams = s.teams := rfl
@[simp] theorem State.modCore_launches (k : Nat) (f : Core → Core) : (s.modCore k f).launches = s.launches := rfl
@[simp] theorem State.modCore_launchCount (k : Nat) (f : Core → Core) : (s.modCore k f).launchCount = s.launchCount := rfl
@[simp] theorem State.modCore_funcs (k : Nat) (f : Core → Core) : (s.modCore k f).funcs = s.funcs := rfl
@[simp] theorem State.modCore_reportRound (k : Nat) (f : Core → Core) : (s.modCore k f).reportRound = s.reportRound := rfl
@[simp] theorem State.modCore_grid (k : Nat) (f : Core → Core) : (s.modCore k f).grid = s.grid := rfl
@[simp] theorem State.modCore_vdntab (k : Nat) (f : Core → Core) : (s.modCore k f).vdntab = s.vdntab := rfl
@[simp] theorem State.modCore_ports (k : Nat) (f : Core → Core) : (s.modCore k f).ports = s.ports := rfl
@[simp] theorem State.modCore_keys (k : Nat) (f : Core → Core) : (s.modCore k f).keys = s.keys := rfl
@[simp] theorem State.modCore_routerKeys (k : Nat) (f : Core → Core) : (s.modCore k f).routerKeys = s.routerKeys := rfl
@[simp] theorem State.modCore_nonces (k : Nat) (f : Core → Core) : (s.modCore k f).nonces = s.nonces := rfl
@[simp] theorem State.modCore_segments (k : Nat) (f : Core → Core) : (s.modCore k f).segments = s.segments := rfl
@[simp] theorem State.modCore_router (k : Nat) (f : Core → Core) : (s.modCore k f).router = s.router := rfl
@[simp] theorem State.modCore_replies (k : Nat) (f : Core → Core) : (s.modCore k f).replies = s.replies := rfl
@[simp] theorem State.modCore_tileWait (k : Nat) (f : Core → Core) : (s.modCore k f).tileWait = s.tileWait := rfl
@[simp] theorem State.modCore_fetched (k : Nat) (f : Core → Core) : (s.modCore k f).fetched = s.fetched := rfl
@[simp] theorem State.modCore_forwards (k : Nat) (f : Core → Core) : (s.modCore k f).forwards = s.forwards := rfl
@[simp] theorem State.modCore_tfences (k : Nat) (f : Core → Core) : (s.modCore k f).tfences = s.tfences := rfl
@[simp] theorem State.modCore_bringUp (k : Nat) (f : Core → Core) : (s.modCore k f).bringUp = s.bringUp := rfl
@[simp] theorem State.modCore_sriov (k : Nat) (f : Core → Core) : (s.modCore k f).sriov = s.sriov := rfl
@[simp] theorem State.modCore_linkUp (k : Nat) (f : Core → Core) : (s.modCore k f).linkUp = s.linkUp := rfl
@[simp] theorem State.modCore_overTemp (k : Nat) (f : Core → Core) : (s.modCore k f).overTemp = s.overTemp := rfl
@[simp] theorem State.modCore_firmware (k : Nat) (f : Core → Core) : (s.modCore k f).firmware = s.firmware := rfl
@[simp] theorem State.modCore_now (k : Nat) (f : Core → Core) : (s.modCore k f).now = s.now := rfl
@[simp] theorem State.modCore_agenda (k : Nat) (f : Core → Core) : (s.modCore k f).agenda = s.agenda := rfl
@[simp] theorem State.modCore_turn (k : Nat) (f : Core → Core) : (s.modCore k f).turn = s.turn := rfl
@[simp] theorem State.modCore_nextQuarter (k : Nat) (f : Core → Core) : (s.modCore k f).nextQuarter = s.nextQuarter := rfl
@[simp] theorem State.modCore_cur (k : Nat) (f : Core → Core) : (s.modCore k f).cur = s.cur := rfl
@[simp] theorem State.modCore_free (k : Nat) (f : Core → Core) : (s.modCore k f).free = s.free := rfl
@[simp] theorem State.modCore_fresh (k : Nat) (f : Core → Core) : (s.modCore k f).fresh = s.fresh := rfl
@[simp] theorem State.modCore_sent (k : Nat) (f : Core → Core) : (s.modCore k f).sent = s.sent := rfl

/-! ### `setDie` changes `dies` alone -/

@[simp] theorem State.setDie_mem (x : Die) : (s.setDie x).mem = s.mem := rfl
@[simp] theorem State.setDie_poison (x : Die) : (s.setDie x).poison = s.poison := rfl
@[simp] theorem State.setDie_flips (x : Die) : (s.setDie x).flips = s.flips := rfl
@[simp] theorem State.setDie_dieFlips (x : Die) : (s.setDie x).dieFlips = s.dieFlips := rfl
@[simp] theorem State.setDie_stackCnt (x : Die) : (s.setDie x).stackCnt = s.stackCnt := rfl
@[simp] theorem State.setDie_stack (x : Die) : (s.setDie x).stack = s.stack := rfl
@[simp] theorem State.setDie_home (x : Die) : (s.setDie x).home = s.home := rfl
@[simp] theorem State.setDie_bitmap (x : Die) : (s.setDie x).bitmap = s.bitmap := rfl
@[simp] theorem State.setDie_reds (x : Die) : (s.setDie x).reds = s.reds := rfl
@[simp] theorem State.setDie_oldCode (x : Die) : (s.setDie x).oldCode = s.oldCode := rfl
@[simp] theorem State.setDie_stamp (x : Die) : (s.setDie x).stamp = s.stamp := rfl
@[simp] theorem State.setDie_cores (x : Die) : (s.setDie x).cores = s.cores := rfl
@[simp] theorem State.setDie_pageReqs (x : Die) : (s.setDie x).pageReqs = s.pageReqs := rfl
@[simp] theorem State.setDie_nextReq (x : Die) : (s.setDie x).nextReq = s.nextReq := rfl
@[simp] theorem State.setDie_teams (x : Die) : (s.setDie x).teams = s.teams := rfl
@[simp] theorem State.setDie_launches (x : Die) : (s.setDie x).launches = s.launches := rfl
@[simp] theorem State.setDie_launchCount (x : Die) : (s.setDie x).launchCount = s.launchCount := rfl
@[simp] theorem State.setDie_funcs (x : Die) : (s.setDie x).funcs = s.funcs := rfl
@[simp] theorem State.setDie_reportRound (x : Die) : (s.setDie x).reportRound = s.reportRound := rfl
@[simp] theorem State.setDie_grid (x : Die) : (s.setDie x).grid = s.grid := rfl
@[simp] theorem State.setDie_vdntab (x : Die) : (s.setDie x).vdntab = s.vdntab := rfl
@[simp] theorem State.setDie_ports (x : Die) : (s.setDie x).ports = s.ports := rfl
@[simp] theorem State.setDie_keys (x : Die) : (s.setDie x).keys = s.keys := rfl
@[simp] theorem State.setDie_routerKeys (x : Die) : (s.setDie x).routerKeys = s.routerKeys := rfl
@[simp] theorem State.setDie_nonces (x : Die) : (s.setDie x).nonces = s.nonces := rfl
@[simp] theorem State.setDie_segments (x : Die) : (s.setDie x).segments = s.segments := rfl
@[simp] theorem State.setDie_router (x : Die) : (s.setDie x).router = s.router := rfl
@[simp] theorem State.setDie_replies (x : Die) : (s.setDie x).replies = s.replies := rfl
@[simp] theorem State.setDie_tileWait (x : Die) : (s.setDie x).tileWait = s.tileWait := rfl
@[simp] theorem State.setDie_fetched (x : Die) : (s.setDie x).fetched = s.fetched := rfl
@[simp] theorem State.setDie_forwards (x : Die) : (s.setDie x).forwards = s.forwards := rfl
@[simp] theorem State.setDie_tfences (x : Die) : (s.setDie x).tfences = s.tfences := rfl
@[simp] theorem State.setDie_bringUp (x : Die) : (s.setDie x).bringUp = s.bringUp := rfl
@[simp] theorem State.setDie_sriov (x : Die) : (s.setDie x).sriov = s.sriov := rfl
@[simp] theorem State.setDie_linkUp (x : Die) : (s.setDie x).linkUp = s.linkUp := rfl
@[simp] theorem State.setDie_overTemp (x : Die) : (s.setDie x).overTemp = s.overTemp := rfl
@[simp] theorem State.setDie_firmware (x : Die) : (s.setDie x).firmware = s.firmware := rfl
@[simp] theorem State.setDie_now (x : Die) : (s.setDie x).now = s.now := rfl
@[simp] theorem State.setDie_agenda (x : Die) : (s.setDie x).agenda = s.agenda := rfl
@[simp] theorem State.setDie_turn (x : Die) : (s.setDie x).turn = s.turn := rfl
@[simp] theorem State.setDie_nextQuarter (x : Die) : (s.setDie x).nextQuarter = s.nextQuarter := rfl
@[simp] theorem State.setDie_cur (x : Die) : (s.setDie x).cur = s.cur := rfl
@[simp] theorem State.setDie_free (x : Die) : (s.setDie x).free = s.free := rfl
@[simp] theorem State.setDie_fresh (x : Die) : (s.setDie x).fresh = s.fresh := rfl
@[simp] theorem State.setDie_sent (x : Die) : (s.setDie x).sent = s.sent := rfl

/-! ### `modDie` changes `dies` alone -/

@[simp] theorem State.modDie_mem (k : Nat) (f : Die → Die) : (s.modDie k f).mem = s.mem := rfl
@[simp] theorem State.modDie_poison (k : Nat) (f : Die → Die) : (s.modDie k f).poison = s.poison := rfl
@[simp] theorem State.modDie_flips (k : Nat) (f : Die → Die) : (s.modDie k f).flips = s.flips := rfl
@[simp] theorem State.modDie_dieFlips (k : Nat) (f : Die → Die) : (s.modDie k f).dieFlips = s.dieFlips := rfl
@[simp] theorem State.modDie_stackCnt (k : Nat) (f : Die → Die) : (s.modDie k f).stackCnt = s.stackCnt := rfl
@[simp] theorem State.modDie_stack (k : Nat) (f : Die → Die) : (s.modDie k f).stack = s.stack := rfl
@[simp] theorem State.modDie_home (k : Nat) (f : Die → Die) : (s.modDie k f).home = s.home := rfl
@[simp] theorem State.modDie_bitmap (k : Nat) (f : Die → Die) : (s.modDie k f).bitmap = s.bitmap := rfl
@[simp] theorem State.modDie_reds (k : Nat) (f : Die → Die) : (s.modDie k f).reds = s.reds := rfl
@[simp] theorem State.modDie_oldCode (k : Nat) (f : Die → Die) : (s.modDie k f).oldCode = s.oldCode := rfl
@[simp] theorem State.modDie_stamp (k : Nat) (f : Die → Die) : (s.modDie k f).stamp = s.stamp := rfl
@[simp] theorem State.modDie_cores (k : Nat) (f : Die → Die) : (s.modDie k f).cores = s.cores := rfl
@[simp] theorem State.modDie_pageReqs (k : Nat) (f : Die → Die) : (s.modDie k f).pageReqs = s.pageReqs := rfl
@[simp] theorem State.modDie_nextReq (k : Nat) (f : Die → Die) : (s.modDie k f).nextReq = s.nextReq := rfl
@[simp] theorem State.modDie_teams (k : Nat) (f : Die → Die) : (s.modDie k f).teams = s.teams := rfl
@[simp] theorem State.modDie_launches (k : Nat) (f : Die → Die) : (s.modDie k f).launches = s.launches := rfl
@[simp] theorem State.modDie_launchCount (k : Nat) (f : Die → Die) : (s.modDie k f).launchCount = s.launchCount := rfl
@[simp] theorem State.modDie_funcs (k : Nat) (f : Die → Die) : (s.modDie k f).funcs = s.funcs := rfl
@[simp] theorem State.modDie_reportRound (k : Nat) (f : Die → Die) : (s.modDie k f).reportRound = s.reportRound := rfl
@[simp] theorem State.modDie_grid (k : Nat) (f : Die → Die) : (s.modDie k f).grid = s.grid := rfl
@[simp] theorem State.modDie_vdntab (k : Nat) (f : Die → Die) : (s.modDie k f).vdntab = s.vdntab := rfl
@[simp] theorem State.modDie_ports (k : Nat) (f : Die → Die) : (s.modDie k f).ports = s.ports := rfl
@[simp] theorem State.modDie_keys (k : Nat) (f : Die → Die) : (s.modDie k f).keys = s.keys := rfl
@[simp] theorem State.modDie_routerKeys (k : Nat) (f : Die → Die) : (s.modDie k f).routerKeys = s.routerKeys := rfl
@[simp] theorem State.modDie_nonces (k : Nat) (f : Die → Die) : (s.modDie k f).nonces = s.nonces := rfl
@[simp] theorem State.modDie_segments (k : Nat) (f : Die → Die) : (s.modDie k f).segments = s.segments := rfl
@[simp] theorem State.modDie_router (k : Nat) (f : Die → Die) : (s.modDie k f).router = s.router := rfl
@[simp] theorem State.modDie_replies (k : Nat) (f : Die → Die) : (s.modDie k f).replies = s.replies := rfl
@[simp] theorem State.modDie_tileWait (k : Nat) (f : Die → Die) : (s.modDie k f).tileWait = s.tileWait := rfl
@[simp] theorem State.modDie_fetched (k : Nat) (f : Die → Die) : (s.modDie k f).fetched = s.fetched := rfl
@[simp] theorem State.modDie_forwards (k : Nat) (f : Die → Die) : (s.modDie k f).forwards = s.forwards := rfl
@[simp] theorem State.modDie_tfences (k : Nat) (f : Die → Die) : (s.modDie k f).tfences = s.tfences := rfl
@[simp] theorem State.modDie_bringUp (k : Nat) (f : Die → Die) : (s.modDie k f).bringUp = s.bringUp := rfl
@[simp] theorem State.modDie_sriov (k : Nat) (f : Die → Die) : (s.modDie k f).sriov = s.sriov := rfl
@[simp] theorem State.modDie_linkUp (k : Nat) (f : Die → Die) : (s.modDie k f).linkUp = s.linkUp := rfl
@[simp] theorem State.modDie_overTemp (k : Nat) (f : Die → Die) : (s.modDie k f).overTemp = s.overTemp := rfl
@[simp] theorem State.modDie_firmware (k : Nat) (f : Die → Die) : (s.modDie k f).firmware = s.firmware := rfl
@[simp] theorem State.modDie_now (k : Nat) (f : Die → Die) : (s.modDie k f).now = s.now := rfl
@[simp] theorem State.modDie_agenda (k : Nat) (f : Die → Die) : (s.modDie k f).agenda = s.agenda := rfl
@[simp] theorem State.modDie_turn (k : Nat) (f : Die → Die) : (s.modDie k f).turn = s.turn := rfl
@[simp] theorem State.modDie_nextQuarter (k : Nat) (f : Die → Die) : (s.modDie k f).nextQuarter = s.nextQuarter := rfl
@[simp] theorem State.modDie_cur (k : Nat) (f : Die → Die) : (s.modDie k f).cur = s.cur := rfl
@[simp] theorem State.modDie_free (k : Nat) (f : Die → Die) : (s.modDie k f).free = s.free := rfl
@[simp] theorem State.modDie_fresh (k : Nat) (f : Die → Die) : (s.modDie k f).fresh = s.fresh := rfl
@[simp] theorem State.modDie_sent (k : Nat) (f : Die → Die) : (s.modDie k f).sent = s.sent := rfl

/-! ### `setFunc` changes `funcs` alone -/

@[simp] theorem State.setFunc_mem (x : Func) : (s.setFunc x).mem = s.mem := rfl
@[simp] theorem State.setFunc_poison (x : Func) : (s.setFunc x).poison = s.poison := rfl
@[simp] theorem State.setFunc_flips (x : Func) : (s.setFunc x).flips = s.flips := rfl
@[simp] theorem State.setFunc_dieFlips (x : Func) : (s.setFunc x).dieFlips = s.dieFlips := rfl
@[simp] theorem State.setFunc_stackCnt (x : Func) : (s.setFunc x).stackCnt = s.stackCnt := rfl
@[simp] theorem State.setFunc_stack (x : Func) : (s.setFunc x).stack = s.stack := rfl
@[simp] theorem State.setFunc_home (x : Func) : (s.setFunc x).home = s.home := rfl
@[simp] theorem State.setFunc_bitmap (x : Func) : (s.setFunc x).bitmap = s.bitmap := rfl
@[simp] theorem State.setFunc_reds (x : Func) : (s.setFunc x).reds = s.reds := rfl
@[simp] theorem State.setFunc_oldCode (x : Func) : (s.setFunc x).oldCode = s.oldCode := rfl
@[simp] theorem State.setFunc_stamp (x : Func) : (s.setFunc x).stamp = s.stamp := rfl
@[simp] theorem State.setFunc_cores (x : Func) : (s.setFunc x).cores = s.cores := rfl
@[simp] theorem State.setFunc_dies (x : Func) : (s.setFunc x).dies = s.dies := rfl
@[simp] theorem State.setFunc_pageReqs (x : Func) : (s.setFunc x).pageReqs = s.pageReqs := rfl
@[simp] theorem State.setFunc_nextReq (x : Func) : (s.setFunc x).nextReq = s.nextReq := rfl
@[simp] theorem State.setFunc_teams (x : Func) : (s.setFunc x).teams = s.teams := rfl
@[simp] theorem State.setFunc_launches (x : Func) : (s.setFunc x).launches = s.launches := rfl
@[simp] theorem State.setFunc_launchCount (x : Func) : (s.setFunc x).launchCount = s.launchCount := rfl
@[simp] theorem State.setFunc_reportRound (x : Func) : (s.setFunc x).reportRound = s.reportRound := rfl
@[simp] theorem State.setFunc_grid (x : Func) : (s.setFunc x).grid = s.grid := rfl
@[simp] theorem State.setFunc_vdntab (x : Func) : (s.setFunc x).vdntab = s.vdntab := rfl
@[simp] theorem State.setFunc_ports (x : Func) : (s.setFunc x).ports = s.ports := rfl
@[simp] theorem State.setFunc_keys (x : Func) : (s.setFunc x).keys = s.keys := rfl
@[simp] theorem State.setFunc_routerKeys (x : Func) : (s.setFunc x).routerKeys = s.routerKeys := rfl
@[simp] theorem State.setFunc_nonces (x : Func) : (s.setFunc x).nonces = s.nonces := rfl
@[simp] theorem State.setFunc_segments (x : Func) : (s.setFunc x).segments = s.segments := rfl
@[simp] theorem State.setFunc_router (x : Func) : (s.setFunc x).router = s.router := rfl
@[simp] theorem State.setFunc_replies (x : Func) : (s.setFunc x).replies = s.replies := rfl
@[simp] theorem State.setFunc_tileWait (x : Func) : (s.setFunc x).tileWait = s.tileWait := rfl
@[simp] theorem State.setFunc_fetched (x : Func) : (s.setFunc x).fetched = s.fetched := rfl
@[simp] theorem State.setFunc_forwards (x : Func) : (s.setFunc x).forwards = s.forwards := rfl
@[simp] theorem State.setFunc_tfences (x : Func) : (s.setFunc x).tfences = s.tfences := rfl
@[simp] theorem State.setFunc_bringUp (x : Func) : (s.setFunc x).bringUp = s.bringUp := rfl
@[simp] theorem State.setFunc_sriov (x : Func) : (s.setFunc x).sriov = s.sriov := rfl
@[simp] theorem State.setFunc_linkUp (x : Func) : (s.setFunc x).linkUp = s.linkUp := rfl
@[simp] theorem State.setFunc_overTemp (x : Func) : (s.setFunc x).overTemp = s.overTemp := rfl
@[simp] theorem State.setFunc_firmware (x : Func) : (s.setFunc x).firmware = s.firmware := rfl
@[simp] theorem State.setFunc_now (x : Func) : (s.setFunc x).now = s.now := rfl
@[simp] theorem State.setFunc_agenda (x : Func) : (s.setFunc x).agenda = s.agenda := rfl
@[simp] theorem State.setFunc_turn (x : Func) : (s.setFunc x).turn = s.turn := rfl
@[simp] theorem State.setFunc_nextQuarter (x : Func) : (s.setFunc x).nextQuarter = s.nextQuarter := rfl
@[simp] theorem State.setFunc_cur (x : Func) : (s.setFunc x).cur = s.cur := rfl
@[simp] theorem State.setFunc_free (x : Func) : (s.setFunc x).free = s.free := rfl
@[simp] theorem State.setFunc_fresh (x : Func) : (s.setFunc x).fresh = s.fresh := rfl
@[simp] theorem State.setFunc_sent (x : Func) : (s.setFunc x).sent = s.sent := rfl

/-! ### `modFunc` changes `funcs` alone -/

@[simp] theorem State.modFunc_mem (k : Nat) (f : Func → Func) : (s.modFunc k f).mem = s.mem := rfl
@[simp] theorem State.modFunc_poison (k : Nat) (f : Func → Func) : (s.modFunc k f).poison = s.poison := rfl
@[simp] theorem State.modFunc_flips (k : Nat) (f : Func → Func) : (s.modFunc k f).flips = s.flips := rfl
@[simp] theorem State.modFunc_dieFlips (k : Nat) (f : Func → Func) : (s.modFunc k f).dieFlips = s.dieFlips := rfl
@[simp] theorem State.modFunc_stackCnt (k : Nat) (f : Func → Func) : (s.modFunc k f).stackCnt = s.stackCnt := rfl
@[simp] theorem State.modFunc_stack (k : Nat) (f : Func → Func) : (s.modFunc k f).stack = s.stack := rfl
@[simp] theorem State.modFunc_home (k : Nat) (f : Func → Func) : (s.modFunc k f).home = s.home := rfl
@[simp] theorem State.modFunc_bitmap (k : Nat) (f : Func → Func) : (s.modFunc k f).bitmap = s.bitmap := rfl
@[simp] theorem State.modFunc_reds (k : Nat) (f : Func → Func) : (s.modFunc k f).reds = s.reds := rfl
@[simp] theorem State.modFunc_oldCode (k : Nat) (f : Func → Func) : (s.modFunc k f).oldCode = s.oldCode := rfl
@[simp] theorem State.modFunc_stamp (k : Nat) (f : Func → Func) : (s.modFunc k f).stamp = s.stamp := rfl
@[simp] theorem State.modFunc_cores (k : Nat) (f : Func → Func) : (s.modFunc k f).cores = s.cores := rfl
@[simp] theorem State.modFunc_dies (k : Nat) (f : Func → Func) : (s.modFunc k f).dies = s.dies := rfl
@[simp] theorem State.modFunc_pageReqs (k : Nat) (f : Func → Func) : (s.modFunc k f).pageReqs = s.pageReqs := rfl
@[simp] theorem State.modFunc_nextReq (k : Nat) (f : Func → Func) : (s.modFunc k f).nextReq = s.nextReq := rfl
@[simp] theorem State.modFunc_teams (k : Nat) (f : Func → Func) : (s.modFunc k f).teams = s.teams := rfl
@[simp] theorem State.modFunc_launches (k : Nat) (f : Func → Func) : (s.modFunc k f).launches = s.launches := rfl
@[simp] theorem State.modFunc_launchCount (k : Nat) (f : Func → Func) : (s.modFunc k f).launchCount = s.launchCount := rfl
@[simp] theorem State.modFunc_reportRound (k : Nat) (f : Func → Func) : (s.modFunc k f).reportRound = s.reportRound := rfl
@[simp] theorem State.modFunc_grid (k : Nat) (f : Func → Func) : (s.modFunc k f).grid = s.grid := rfl
@[simp] theorem State.modFunc_vdntab (k : Nat) (f : Func → Func) : (s.modFunc k f).vdntab = s.vdntab := rfl
@[simp] theorem State.modFunc_ports (k : Nat) (f : Func → Func) : (s.modFunc k f).ports = s.ports := rfl
@[simp] theorem State.modFunc_keys (k : Nat) (f : Func → Func) : (s.modFunc k f).keys = s.keys := rfl
@[simp] theorem State.modFunc_routerKeys (k : Nat) (f : Func → Func) : (s.modFunc k f).routerKeys = s.routerKeys := rfl
@[simp] theorem State.modFunc_nonces (k : Nat) (f : Func → Func) : (s.modFunc k f).nonces = s.nonces := rfl
@[simp] theorem State.modFunc_segments (k : Nat) (f : Func → Func) : (s.modFunc k f).segments = s.segments := rfl
@[simp] theorem State.modFunc_router (k : Nat) (f : Func → Func) : (s.modFunc k f).router = s.router := rfl
@[simp] theorem State.modFunc_replies (k : Nat) (f : Func → Func) : (s.modFunc k f).replies = s.replies := rfl
@[simp] theorem State.modFunc_tileWait (k : Nat) (f : Func → Func) : (s.modFunc k f).tileWait = s.tileWait := rfl
@[simp] theorem State.modFunc_fetched (k : Nat) (f : Func → Func) : (s.modFunc k f).fetched = s.fetched := rfl
@[simp] theorem State.modFunc_forwards (k : Nat) (f : Func → Func) : (s.modFunc k f).forwards = s.forwards := rfl
@[simp] theorem State.modFunc_tfences (k : Nat) (f : Func → Func) : (s.modFunc k f).tfences = s.tfences := rfl
@[simp] theorem State.modFunc_bringUp (k : Nat) (f : Func → Func) : (s.modFunc k f).bringUp = s.bringUp := rfl
@[simp] theorem State.modFunc_sriov (k : Nat) (f : Func → Func) : (s.modFunc k f).sriov = s.sriov := rfl
@[simp] theorem State.modFunc_linkUp (k : Nat) (f : Func → Func) : (s.modFunc k f).linkUp = s.linkUp := rfl
@[simp] theorem State.modFunc_overTemp (k : Nat) (f : Func → Func) : (s.modFunc k f).overTemp = s.overTemp := rfl
@[simp] theorem State.modFunc_firmware (k : Nat) (f : Func → Func) : (s.modFunc k f).firmware = s.firmware := rfl
@[simp] theorem State.modFunc_now (k : Nat) (f : Func → Func) : (s.modFunc k f).now = s.now := rfl
@[simp] theorem State.modFunc_agenda (k : Nat) (f : Func → Func) : (s.modFunc k f).agenda = s.agenda := rfl
@[simp] theorem State.modFunc_turn (k : Nat) (f : Func → Func) : (s.modFunc k f).turn = s.turn := rfl
@[simp] theorem State.modFunc_nextQuarter (k : Nat) (f : Func → Func) : (s.modFunc k f).nextQuarter = s.nextQuarter := rfl
@[simp] theorem State.modFunc_cur (k : Nat) (f : Func → Func) : (s.modFunc k f).cur = s.cur := rfl
@[simp] theorem State.modFunc_free (k : Nat) (f : Func → Func) : (s.modFunc k f).free = s.free := rfl
@[simp] theorem State.modFunc_fresh (k : Nat) (f : Func → Func) : (s.modFunc k f).fresh = s.fresh := rfl
@[simp] theorem State.modFunc_sent (k : Nat) (f : Func → Func) : (s.modFunc k f).sent = s.sent := rfl

/-! ### `modLaunch` changes `launches` alone -/

@[simp] theorem State.modLaunch_mem (k : Nat) (f : Launch → Launch) : (s.modLaunch k f).mem = s.mem := rfl
@[simp] theorem State.modLaunch_poison (k : Nat) (f : Launch → Launch) : (s.modLaunch k f).poison = s.poison := rfl
@[simp] theorem State.modLaunch_flips (k : Nat) (f : Launch → Launch) : (s.modLaunch k f).flips = s.flips := rfl
@[simp] theorem State.modLaunch_dieFlips (k : Nat) (f : Launch → Launch) : (s.modLaunch k f).dieFlips = s.dieFlips := rfl
@[simp] theorem State.modLaunch_stackCnt (k : Nat) (f : Launch → Launch) : (s.modLaunch k f).stackCnt = s.stackCnt := rfl
@[simp] theorem State.modLaunch_stack (k : Nat) (f : Launch → Launch) : (s.modLaunch k f).stack = s.stack := rfl
@[simp] theorem State.modLaunch_home (k : Nat) (f : Launch → Launch) : (s.modLaunch k f).home = s.home := rfl
@[simp] theorem State.modLaunch_bitmap (k : Nat) (f : Launch → Launch) : (s.modLaunch k f).bitmap = s.bitmap := rfl
@[simp] theorem State.modLaunch_reds (k : Nat) (f : Launch → Launch) : (s.modLaunch k f).reds = s.reds := rfl
@[simp] theorem State.modLaunch_oldCode (k : Nat) (f : Launch → Launch) : (s.modLaunch k f).oldCode = s.oldCode := rfl
@[simp] theorem State.modLaunch_stamp (k : Nat) (f : Launch → Launch) : (s.modLaunch k f).stamp = s.stamp := rfl
@[simp] theorem State.modLaunch_cores (k : Nat) (f : Launch → Launch) : (s.modLaunch k f).cores = s.cores := rfl
@[simp] theorem State.modLaunch_dies (k : Nat) (f : Launch → Launch) : (s.modLaunch k f).dies = s.dies := rfl
@[simp] theorem State.modLaunch_pageReqs (k : Nat) (f : Launch → Launch) : (s.modLaunch k f).pageReqs = s.pageReqs := rfl
@[simp] theorem State.modLaunch_nextReq (k : Nat) (f : Launch → Launch) : (s.modLaunch k f).nextReq = s.nextReq := rfl
@[simp] theorem State.modLaunch_teams (k : Nat) (f : Launch → Launch) : (s.modLaunch k f).teams = s.teams := rfl
@[simp] theorem State.modLaunch_launchCount (k : Nat) (f : Launch → Launch) : (s.modLaunch k f).launchCount = s.launchCount := rfl
@[simp] theorem State.modLaunch_funcs (k : Nat) (f : Launch → Launch) : (s.modLaunch k f).funcs = s.funcs := rfl
@[simp] theorem State.modLaunch_reportRound (k : Nat) (f : Launch → Launch) : (s.modLaunch k f).reportRound = s.reportRound := rfl
@[simp] theorem State.modLaunch_grid (k : Nat) (f : Launch → Launch) : (s.modLaunch k f).grid = s.grid := rfl
@[simp] theorem State.modLaunch_vdntab (k : Nat) (f : Launch → Launch) : (s.modLaunch k f).vdntab = s.vdntab := rfl
@[simp] theorem State.modLaunch_ports (k : Nat) (f : Launch → Launch) : (s.modLaunch k f).ports = s.ports := rfl
@[simp] theorem State.modLaunch_keys (k : Nat) (f : Launch → Launch) : (s.modLaunch k f).keys = s.keys := rfl
@[simp] theorem State.modLaunch_routerKeys (k : Nat) (f : Launch → Launch) : (s.modLaunch k f).routerKeys = s.routerKeys := rfl
@[simp] theorem State.modLaunch_nonces (k : Nat) (f : Launch → Launch) : (s.modLaunch k f).nonces = s.nonces := rfl
@[simp] theorem State.modLaunch_segments (k : Nat) (f : Launch → Launch) : (s.modLaunch k f).segments = s.segments := rfl
@[simp] theorem State.modLaunch_router (k : Nat) (f : Launch → Launch) : (s.modLaunch k f).router = s.router := rfl
@[simp] theorem State.modLaunch_replies (k : Nat) (f : Launch → Launch) : (s.modLaunch k f).replies = s.replies := rfl
@[simp] theorem State.modLaunch_tileWait (k : Nat) (f : Launch → Launch) : (s.modLaunch k f).tileWait = s.tileWait := rfl
@[simp] theorem State.modLaunch_fetched (k : Nat) (f : Launch → Launch) : (s.modLaunch k f).fetched = s.fetched := rfl
@[simp] theorem State.modLaunch_forwards (k : Nat) (f : Launch → Launch) : (s.modLaunch k f).forwards = s.forwards := rfl
@[simp] theorem State.modLaunch_tfences (k : Nat) (f : Launch → Launch) : (s.modLaunch k f).tfences = s.tfences := rfl
@[simp] theorem State.modLaunch_bringUp (k : Nat) (f : Launch → Launch) : (s.modLaunch k f).bringUp = s.bringUp := rfl
@[simp] theorem State.modLaunch_sriov (k : Nat) (f : Launch → Launch) : (s.modLaunch k f).sriov = s.sriov := rfl
@[simp] theorem State.modLaunch_linkUp (k : Nat) (f : Launch → Launch) : (s.modLaunch k f).linkUp = s.linkUp := rfl
@[simp] theorem State.modLaunch_overTemp (k : Nat) (f : Launch → Launch) : (s.modLaunch k f).overTemp = s.overTemp := rfl
@[simp] theorem State.modLaunch_firmware (k : Nat) (f : Launch → Launch) : (s.modLaunch k f).firmware = s.firmware := rfl
@[simp] theorem State.modLaunch_now (k : Nat) (f : Launch → Launch) : (s.modLaunch k f).now = s.now := rfl
@[simp] theorem State.modLaunch_agenda (k : Nat) (f : Launch → Launch) : (s.modLaunch k f).agenda = s.agenda := rfl
@[simp] theorem State.modLaunch_turn (k : Nat) (f : Launch → Launch) : (s.modLaunch k f).turn = s.turn := rfl
@[simp] theorem State.modLaunch_nextQuarter (k : Nat) (f : Launch → Launch) : (s.modLaunch k f).nextQuarter = s.nextQuarter := rfl
@[simp] theorem State.modLaunch_cur (k : Nat) (f : Launch → Launch) : (s.modLaunch k f).cur = s.cur := rfl
@[simp] theorem State.modLaunch_free (k : Nat) (f : Launch → Launch) : (s.modLaunch k f).free = s.free := rfl
@[simp] theorem State.modLaunch_fresh (k : Nat) (f : Launch → Launch) : (s.modLaunch k f).fresh = s.fresh := rfl
@[simp] theorem State.modLaunch_sent (k : Nat) (f : Launch → Launch) : (s.modLaunch k f).sent = s.sent := rfl

/-! ### `modTeam` changes `teams` alone -/

@[simp] theorem State.modTeam_mem (l t : Nat) (f : Team → Team) : (s.modTeam l t f).mem = s.mem := rfl
@[simp] theorem State.modTeam_poison (l t : Nat) (f : Team → Team) : (s.modTeam l t f).poison = s.poison := rfl
@[simp] theorem State.modTeam_flips (l t : Nat) (f : Team → Team) : (s.modTeam l t f).flips = s.flips := rfl
@[simp] theorem State.modTeam_dieFlips (l t : Nat) (f : Team → Team) : (s.modTeam l t f).dieFlips = s.dieFlips := rfl
@[simp] theorem State.modTeam_stackCnt (l t : Nat) (f : Team → Team) : (s.modTeam l t f).stackCnt = s.stackCnt := rfl
@[simp] theorem State.modTeam_stack (l t : Nat) (f : Team → Team) : (s.modTeam l t f).stack = s.stack := rfl
@[simp] theorem State.modTeam_home (l t : Nat) (f : Team → Team) : (s.modTeam l t f).home = s.home := rfl
@[simp] theorem State.modTeam_bitmap (l t : Nat) (f : Team → Team) : (s.modTeam l t f).bitmap = s.bitmap := rfl
@[simp] theorem State.modTeam_reds (l t : Nat) (f : Team → Team) : (s.modTeam l t f).reds = s.reds := rfl
@[simp] theorem State.modTeam_oldCode (l t : Nat) (f : Team → Team) : (s.modTeam l t f).oldCode = s.oldCode := rfl
@[simp] theorem State.modTeam_stamp (l t : Nat) (f : Team → Team) : (s.modTeam l t f).stamp = s.stamp := rfl
@[simp] theorem State.modTeam_cores (l t : Nat) (f : Team → Team) : (s.modTeam l t f).cores = s.cores := rfl
@[simp] theorem State.modTeam_dies (l t : Nat) (f : Team → Team) : (s.modTeam l t f).dies = s.dies := rfl
@[simp] theorem State.modTeam_pageReqs (l t : Nat) (f : Team → Team) : (s.modTeam l t f).pageReqs = s.pageReqs := rfl
@[simp] theorem State.modTeam_nextReq (l t : Nat) (f : Team → Team) : (s.modTeam l t f).nextReq = s.nextReq := rfl
@[simp] theorem State.modTeam_launches (l t : Nat) (f : Team → Team) : (s.modTeam l t f).launches = s.launches := rfl
@[simp] theorem State.modTeam_launchCount (l t : Nat) (f : Team → Team) : (s.modTeam l t f).launchCount = s.launchCount := rfl
@[simp] theorem State.modTeam_funcs (l t : Nat) (f : Team → Team) : (s.modTeam l t f).funcs = s.funcs := rfl
@[simp] theorem State.modTeam_reportRound (l t : Nat) (f : Team → Team) : (s.modTeam l t f).reportRound = s.reportRound := rfl
@[simp] theorem State.modTeam_grid (l t : Nat) (f : Team → Team) : (s.modTeam l t f).grid = s.grid := rfl
@[simp] theorem State.modTeam_vdntab (l t : Nat) (f : Team → Team) : (s.modTeam l t f).vdntab = s.vdntab := rfl
@[simp] theorem State.modTeam_ports (l t : Nat) (f : Team → Team) : (s.modTeam l t f).ports = s.ports := rfl
@[simp] theorem State.modTeam_keys (l t : Nat) (f : Team → Team) : (s.modTeam l t f).keys = s.keys := rfl
@[simp] theorem State.modTeam_routerKeys (l t : Nat) (f : Team → Team) : (s.modTeam l t f).routerKeys = s.routerKeys := rfl
@[simp] theorem State.modTeam_nonces (l t : Nat) (f : Team → Team) : (s.modTeam l t f).nonces = s.nonces := rfl
@[simp] theorem State.modTeam_segments (l t : Nat) (f : Team → Team) : (s.modTeam l t f).segments = s.segments := rfl
@[simp] theorem State.modTeam_router (l t : Nat) (f : Team → Team) : (s.modTeam l t f).router = s.router := rfl
@[simp] theorem State.modTeam_replies (l t : Nat) (f : Team → Team) : (s.modTeam l t f).replies = s.replies := rfl
@[simp] theorem State.modTeam_tileWait (l t : Nat) (f : Team → Team) : (s.modTeam l t f).tileWait = s.tileWait := rfl
@[simp] theorem State.modTeam_fetched (l t : Nat) (f : Team → Team) : (s.modTeam l t f).fetched = s.fetched := rfl
@[simp] theorem State.modTeam_forwards (l t : Nat) (f : Team → Team) : (s.modTeam l t f).forwards = s.forwards := rfl
@[simp] theorem State.modTeam_tfences (l t : Nat) (f : Team → Team) : (s.modTeam l t f).tfences = s.tfences := rfl
@[simp] theorem State.modTeam_bringUp (l t : Nat) (f : Team → Team) : (s.modTeam l t f).bringUp = s.bringUp := rfl
@[simp] theorem State.modTeam_sriov (l t : Nat) (f : Team → Team) : (s.modTeam l t f).sriov = s.sriov := rfl
@[simp] theorem State.modTeam_linkUp (l t : Nat) (f : Team → Team) : (s.modTeam l t f).linkUp = s.linkUp := rfl
@[simp] theorem State.modTeam_overTemp (l t : Nat) (f : Team → Team) : (s.modTeam l t f).overTemp = s.overTemp := rfl
@[simp] theorem State.modTeam_firmware (l t : Nat) (f : Team → Team) : (s.modTeam l t f).firmware = s.firmware := rfl
@[simp] theorem State.modTeam_now (l t : Nat) (f : Team → Team) : (s.modTeam l t f).now = s.now := rfl
@[simp] theorem State.modTeam_agenda (l t : Nat) (f : Team → Team) : (s.modTeam l t f).agenda = s.agenda := rfl
@[simp] theorem State.modTeam_turn (l t : Nat) (f : Team → Team) : (s.modTeam l t f).turn = s.turn := rfl
@[simp] theorem State.modTeam_nextQuarter (l t : Nat) (f : Team → Team) : (s.modTeam l t f).nextQuarter = s.nextQuarter := rfl
@[simp] theorem State.modTeam_cur (l t : Nat) (f : Team → Team) : (s.modTeam l t f).cur = s.cur := rfl
@[simp] theorem State.modTeam_free (l t : Nat) (f : Team → Team) : (s.modTeam l t f).free = s.free := rfl
@[simp] theorem State.modTeam_fresh (l t : Nat) (f : Team → Team) : (s.modTeam l t f).fresh = s.fresh := rfl
@[simp] theorem State.modTeam_sent (l t : Nat) (f : Team → Team) : (s.modTeam l t f).sent = s.sent := rfl

/-! ### `modGang` changes `teams` alone -/

@[simp] theorem State.modGang_mem (l t g : Nat) (f : Gang → Gang) : (s.modGang l t g f).mem = s.mem := rfl
@[simp] theorem State.modGang_poison (l t g : Nat) (f : Gang → Gang) : (s.modGang l t g f).poison = s.poison := rfl
@[simp] theorem State.modGang_flips (l t g : Nat) (f : Gang → Gang) : (s.modGang l t g f).flips = s.flips := rfl
@[simp] theorem State.modGang_dieFlips (l t g : Nat) (f : Gang → Gang) : (s.modGang l t g f).dieFlips = s.dieFlips := rfl
@[simp] theorem State.modGang_stackCnt (l t g : Nat) (f : Gang → Gang) : (s.modGang l t g f).stackCnt = s.stackCnt := rfl
@[simp] theorem State.modGang_stack (l t g : Nat) (f : Gang → Gang) : (s.modGang l t g f).stack = s.stack := rfl
@[simp] theorem State.modGang_home (l t g : Nat) (f : Gang → Gang) : (s.modGang l t g f).home = s.home := rfl
@[simp] theorem State.modGang_bitmap (l t g : Nat) (f : Gang → Gang) : (s.modGang l t g f).bitmap = s.bitmap := rfl
@[simp] theorem State.modGang_reds (l t g : Nat) (f : Gang → Gang) : (s.modGang l t g f).reds = s.reds := rfl
@[simp] theorem State.modGang_oldCode (l t g : Nat) (f : Gang → Gang) : (s.modGang l t g f).oldCode = s.oldCode := rfl
@[simp] theorem State.modGang_stamp (l t g : Nat) (f : Gang → Gang) : (s.modGang l t g f).stamp = s.stamp := rfl
@[simp] theorem State.modGang_cores (l t g : Nat) (f : Gang → Gang) : (s.modGang l t g f).cores = s.cores := rfl
@[simp] theorem State.modGang_dies (l t g : Nat) (f : Gang → Gang) : (s.modGang l t g f).dies = s.dies := rfl
@[simp] theorem State.modGang_pageReqs (l t g : Nat) (f : Gang → Gang) : (s.modGang l t g f).pageReqs = s.pageReqs := rfl
@[simp] theorem State.modGang_nextReq (l t g : Nat) (f : Gang → Gang) : (s.modGang l t g f).nextReq = s.nextReq := rfl
@[simp] theorem State.modGang_launches (l t g : Nat) (f : Gang → Gang) : (s.modGang l t g f).launches = s.launches := rfl
@[simp] theorem State.modGang_launchCount (l t g : Nat) (f : Gang → Gang) : (s.modGang l t g f).launchCount = s.launchCount := rfl
@[simp] theorem State.modGang_funcs (l t g : Nat) (f : Gang → Gang) : (s.modGang l t g f).funcs = s.funcs := rfl
@[simp] theorem State.modGang_reportRound (l t g : Nat) (f : Gang → Gang) : (s.modGang l t g f).reportRound = s.reportRound := rfl
@[simp] theorem State.modGang_grid (l t g : Nat) (f : Gang → Gang) : (s.modGang l t g f).grid = s.grid := rfl
@[simp] theorem State.modGang_vdntab (l t g : Nat) (f : Gang → Gang) : (s.modGang l t g f).vdntab = s.vdntab := rfl
@[simp] theorem State.modGang_ports (l t g : Nat) (f : Gang → Gang) : (s.modGang l t g f).ports = s.ports := rfl
@[simp] theorem State.modGang_keys (l t g : Nat) (f : Gang → Gang) : (s.modGang l t g f).keys = s.keys := rfl
@[simp] theorem State.modGang_routerKeys (l t g : Nat) (f : Gang → Gang) : (s.modGang l t g f).routerKeys = s.routerKeys := rfl
@[simp] theorem State.modGang_nonces (l t g : Nat) (f : Gang → Gang) : (s.modGang l t g f).nonces = s.nonces := rfl
@[simp] theorem State.modGang_segments (l t g : Nat) (f : Gang → Gang) : (s.modGang l t g f).segments = s.segments := rfl
@[simp] theorem State.modGang_router (l t g : Nat) (f : Gang → Gang) : (s.modGang l t g f).router = s.router := rfl
@[simp] theorem State.modGang_replies (l t g : Nat) (f : Gang → Gang) : (s.modGang l t g f).replies = s.replies := rfl
@[simp] theorem State.modGang_tileWait (l t g : Nat) (f : Gang → Gang) : (s.modGang l t g f).tileWait = s.tileWait := rfl
@[simp] theorem State.modGang_fetched (l t g : Nat) (f : Gang → Gang) : (s.modGang l t g f).fetched = s.fetched := rfl
@[simp] theorem State.modGang_forwards (l t g : Nat) (f : Gang → Gang) : (s.modGang l t g f).forwards = s.forwards := rfl
@[simp] theorem State.modGang_tfences (l t g : Nat) (f : Gang → Gang) : (s.modGang l t g f).tfences = s.tfences := rfl
@[simp] theorem State.modGang_bringUp (l t g : Nat) (f : Gang → Gang) : (s.modGang l t g f).bringUp = s.bringUp := rfl
@[simp] theorem State.modGang_sriov (l t g : Nat) (f : Gang → Gang) : (s.modGang l t g f).sriov = s.sriov := rfl
@[simp] theorem State.modGang_linkUp (l t g : Nat) (f : Gang → Gang) : (s.modGang l t g f).linkUp = s.linkUp := rfl
@[simp] theorem State.modGang_overTemp (l t g : Nat) (f : Gang → Gang) : (s.modGang l t g f).overTemp = s.overTemp := rfl
@[simp] theorem State.modGang_firmware (l t g : Nat) (f : Gang → Gang) : (s.modGang l t g f).firmware = s.firmware := rfl
@[simp] theorem State.modGang_now (l t g : Nat) (f : Gang → Gang) : (s.modGang l t g f).now = s.now := rfl
@[simp] theorem State.modGang_agenda (l t g : Nat) (f : Gang → Gang) : (s.modGang l t g f).agenda = s.agenda := rfl
@[simp] theorem State.modGang_turn (l t g : Nat) (f : Gang → Gang) : (s.modGang l t g f).turn = s.turn := rfl
@[simp] theorem State.modGang_nextQuarter (l t g : Nat) (f : Gang → Gang) : (s.modGang l t g f).nextQuarter = s.nextQuarter := rfl
@[simp] theorem State.modGang_cur (l t g : Nat) (f : Gang → Gang) : (s.modGang l t g f).cur = s.cur := rfl
@[simp] theorem State.modGang_free (l t g : Nat) (f : Gang → Gang) : (s.modGang l t g f).free = s.free := rfl
@[simp] theorem State.modGang_fresh (l t g : Nat) (f : Gang → Gang) : (s.modGang l t g f).fresh = s.fresh := rfl
@[simp] theorem State.modGang_sent (l t g : Nat) (f : Gang → Gang) : (s.modGang l t g f).sent = s.sent := rfl

/-! ### `modEntry` changes `teams` alone -/

@[simp] theorem State.modEntry_mem (l t g e : Nat) (f : Entry → Entry) : (s.modEntry l t g e f).mem = s.mem := rfl
@[simp] theorem State.modEntry_poison (l t g e : Nat) (f : Entry → Entry) : (s.modEntry l t g e f).poison = s.poison := rfl
@[simp] theorem State.modEntry_flips (l t g e : Nat) (f : Entry → Entry) : (s.modEntry l t g e f).flips = s.flips := rfl
@[simp] theorem State.modEntry_dieFlips (l t g e : Nat) (f : Entry → Entry) : (s.modEntry l t g e f).dieFlips = s.dieFlips := rfl
@[simp] theorem State.modEntry_stackCnt (l t g e : Nat) (f : Entry → Entry) : (s.modEntry l t g e f).stackCnt = s.stackCnt := rfl
@[simp] theorem State.modEntry_stack (l t g e : Nat) (f : Entry → Entry) : (s.modEntry l t g e f).stack = s.stack := rfl
@[simp] theorem State.modEntry_home (l t g e : Nat) (f : Entry → Entry) : (s.modEntry l t g e f).home = s.home := rfl
@[simp] theorem State.modEntry_bitmap (l t g e : Nat) (f : Entry → Entry) : (s.modEntry l t g e f).bitmap = s.bitmap := rfl
@[simp] theorem State.modEntry_reds (l t g e : Nat) (f : Entry → Entry) : (s.modEntry l t g e f).reds = s.reds := rfl
@[simp] theorem State.modEntry_oldCode (l t g e : Nat) (f : Entry → Entry) : (s.modEntry l t g e f).oldCode = s.oldCode := rfl
@[simp] theorem State.modEntry_stamp (l t g e : Nat) (f : Entry → Entry) : (s.modEntry l t g e f).stamp = s.stamp := rfl
@[simp] theorem State.modEntry_cores (l t g e : Nat) (f : Entry → Entry) : (s.modEntry l t g e f).cores = s.cores := rfl
@[simp] theorem State.modEntry_dies (l t g e : Nat) (f : Entry → Entry) : (s.modEntry l t g e f).dies = s.dies := rfl
@[simp] theorem State.modEntry_pageReqs (l t g e : Nat) (f : Entry → Entry) : (s.modEntry l t g e f).pageReqs = s.pageReqs := rfl
@[simp] theorem State.modEntry_nextReq (l t g e : Nat) (f : Entry → Entry) : (s.modEntry l t g e f).nextReq = s.nextReq := rfl
@[simp] theorem State.modEntry_launches (l t g e : Nat) (f : Entry → Entry) : (s.modEntry l t g e f).launches = s.launches := rfl
@[simp] theorem State.modEntry_launchCount (l t g e : Nat) (f : Entry → Entry) : (s.modEntry l t g e f).launchCount = s.launchCount := rfl
@[simp] theorem State.modEntry_funcs (l t g e : Nat) (f : Entry → Entry) : (s.modEntry l t g e f).funcs = s.funcs := rfl
@[simp] theorem State.modEntry_reportRound (l t g e : Nat) (f : Entry → Entry) : (s.modEntry l t g e f).reportRound = s.reportRound := rfl
@[simp] theorem State.modEntry_grid (l t g e : Nat) (f : Entry → Entry) : (s.modEntry l t g e f).grid = s.grid := rfl
@[simp] theorem State.modEntry_vdntab (l t g e : Nat) (f : Entry → Entry) : (s.modEntry l t g e f).vdntab = s.vdntab := rfl
@[simp] theorem State.modEntry_ports (l t g e : Nat) (f : Entry → Entry) : (s.modEntry l t g e f).ports = s.ports := rfl
@[simp] theorem State.modEntry_keys (l t g e : Nat) (f : Entry → Entry) : (s.modEntry l t g e f).keys = s.keys := rfl
@[simp] theorem State.modEntry_routerKeys (l t g e : Nat) (f : Entry → Entry) : (s.modEntry l t g e f).routerKeys = s.routerKeys := rfl
@[simp] theorem State.modEntry_nonces (l t g e : Nat) (f : Entry → Entry) : (s.modEntry l t g e f).nonces = s.nonces := rfl
@[simp] theorem State.modEntry_segments (l t g e : Nat) (f : Entry → Entry) : (s.modEntry l t g e f).segments = s.segments := rfl
@[simp] theorem State.modEntry_router (l t g e : Nat) (f : Entry → Entry) : (s.modEntry l t g e f).router = s.router := rfl
@[simp] theorem State.modEntry_replies (l t g e : Nat) (f : Entry → Entry) : (s.modEntry l t g e f).replies = s.replies := rfl
@[simp] theorem State.modEntry_tileWait (l t g e : Nat) (f : Entry → Entry) : (s.modEntry l t g e f).tileWait = s.tileWait := rfl
@[simp] theorem State.modEntry_fetched (l t g e : Nat) (f : Entry → Entry) : (s.modEntry l t g e f).fetched = s.fetched := rfl
@[simp] theorem State.modEntry_forwards (l t g e : Nat) (f : Entry → Entry) : (s.modEntry l t g e f).forwards = s.forwards := rfl
@[simp] theorem State.modEntry_tfences (l t g e : Nat) (f : Entry → Entry) : (s.modEntry l t g e f).tfences = s.tfences := rfl
@[simp] theorem State.modEntry_bringUp (l t g e : Nat) (f : Entry → Entry) : (s.modEntry l t g e f).bringUp = s.bringUp := rfl
@[simp] theorem State.modEntry_sriov (l t g e : Nat) (f : Entry → Entry) : (s.modEntry l t g e f).sriov = s.sriov := rfl
@[simp] theorem State.modEntry_linkUp (l t g e : Nat) (f : Entry → Entry) : (s.modEntry l t g e f).linkUp = s.linkUp := rfl
@[simp] theorem State.modEntry_overTemp (l t g e : Nat) (f : Entry → Entry) : (s.modEntry l t g e f).overTemp = s.overTemp := rfl
@[simp] theorem State.modEntry_firmware (l t g e : Nat) (f : Entry → Entry) : (s.modEntry l t g e f).firmware = s.firmware := rfl
@[simp] theorem State.modEntry_now (l t g e : Nat) (f : Entry → Entry) : (s.modEntry l t g e f).now = s.now := rfl
@[simp] theorem State.modEntry_agenda (l t g e : Nat) (f : Entry → Entry) : (s.modEntry l t g e f).agenda = s.agenda := rfl
@[simp] theorem State.modEntry_turn (l t g e : Nat) (f : Entry → Entry) : (s.modEntry l t g e f).turn = s.turn := rfl
@[simp] theorem State.modEntry_nextQuarter (l t g e : Nat) (f : Entry → Entry) : (s.modEntry l t g e f).nextQuarter = s.nextQuarter := rfl
@[simp] theorem State.modEntry_cur (l t g e : Nat) (f : Entry → Entry) : (s.modEntry l t g e f).cur = s.cur := rfl
@[simp] theorem State.modEntry_free (l t g e : Nat) (f : Entry → Entry) : (s.modEntry l t g e f).free = s.free := rfl
@[simp] theorem State.modEntry_fresh (l t g e : Nat) (f : Entry → Entry) : (s.modEntry l t g e f).fresh = s.fresh := rfl
@[simp] theorem State.modEntry_sent (l t g e : Nat) (f : Entry → Entry) : (s.modEntry l t g e f).sent = s.sent := rfl

end Sys2Proof.Machine
end

