-- ==== Sys2Proof/Laws/Find.lean ====
section
/-! SUPPORT. Finding the parts of the device after a change: cores, functions, teams, gangs. -/

namespace Sys2Proof.Machine

/-! ### Lists -/

theorem find?_modIf {α : Type} (p : α → Bool) (f : α → α) (q : α → Bool) (h : ∀ x, q (f x) = q x) (l : List α) :
    (modIf p f l).find? q = (l.find? q).map fun x => if p x then f x else x := by
  induction l with
  | nil => rfl
  | cons x t ih =>
    have hx : q (if p x then f x else x) = q x := by split <;> simp [h]
    simp only [modIf, List.map_cons, List.find?_cons, hx]
    cases q x
    · exact ih
    · rfl

theorem getElem?_modAt {α : Type} (f : α → α) (l : List α) (i j : Nat) :
    (modAt l i f)[j]? = if j = i then (l[j]?).map f else l[j]? := by
  induction l generalizing i j with
  | nil => simp [modAt]
  | cons x t ih =>
    cases i with
    | zero => cases j <;> simp [modAt]
    | succ i => cases j <;> simp [modAt, ih]

theorem getElem?_setAt {α : Type} (a : α) (l : List α) (i j : Nat) :
    (setAt l i a)[j]? = if j = i then (l[j]?).map (fun _ => a) else l[j]? := by
  induction l generalizing i j with
  | nil => simp [setAt]
  | cons x t ih =>
    cases i with
    | zero => cases j <;> simp [setAt]
    | succ i => cases j <;> simp [setAt, ih]

theorem find?_putBy {α : Type} (p q : α → Bool) (a : α) (h : ∀ x, p x = true → q x = q a)
    (h2 : q a = true → ∀ x, q x = true → p x = true) (l : List α) :
    (putBy p a l).find? q = if q a then some a else l.find? q := by
  induction l with
  | nil => cases hq : q a <;> simp [putBy, hq]
  | cons x t ih =>
    unfold putBy
    by_cases hp : p x = true
    · cases hq : q a <;> simp [hp, hq, h x hp]
    · have hp' : p x = false := by simpa using hp
      simp only [hp', Bool.false_eq_true, if_false, List.find?_cons, ih]
      cases hx : q x
      · rfl
      · cases hq : q a
        · rfl
        · exact absurd (h2 hq x hx) hp

/-! ### Cores, dies, functions -/

theorem State.core_id (s : State) (k : Nat) : (s.core k).id = k := by
  unfold State.core
  cases h : s.cores.find? (·.id == k) with
  | none => rfl
  | some x => simpa using List.find?_some h

theorem State.core_modCore (s : State) (k j : Nat) (f : Core → Core) :
    (s.modCore k f).core j = if j = k then { f (s.core k) with id := k } else s.core j := by
  have h := find?_putBy (fun x : Core => x.id == k) (fun x => x.id == j) { f (s.core k) with id := k }
    (fun x hx => by simp at hx; simp [hx]) (fun hq x hx => by simp at hq hx ⊢; omega) s.cores
  by_cases hj : j = k
  · subst hj
    simp only [State.core, State.modCore, State.setCore] at h ⊢
    rw [h]
    simp
  · have hk : ¬ k = j := fun e => hj e.symm
    simp only [State.core, State.modCore, State.setCore] at h ⊢
    rw [h]
    simp [hj, hk]

@[simp] theorem State.core_modTeam (s : State) (l t : Nat) (f : Team → Team) (k : Nat) : (s.modTeam l t f).core k = s.core k := rfl
@[simp] theorem State.core_modGang (s : State) (l t g : Nat) (f : Gang → Gang) (k : Nat) : (s.modGang l t g f).core k = s.core k := rfl
@[simp] theorem State.core_modEntry (s : State) (l t g e : Nat) (f : Entry → Entry) (k : Nat) :
    (s.modEntry l t g e f).core k = s.core k := rfl
@[simp] theorem State.core_modFunc (s : State) (n : Nat) (f : Func → Func) (k : Nat) : (s.modFunc n f).core k = s.core k := rfl
@[simp] theorem State.func_modTeam (s : State) (l t : Nat) (f : Team → Team) (k : Nat) : (s.modTeam l t f).func k = s.func k := rfl
@[simp] theorem State.func_modGang (s : State) (l t g : Nat) (f : Gang → Gang) (k : Nat) : (s.modGang l t g f).func k = s.func k := rfl
@[simp] theorem State.func_modEntry (s : State) (l t g e : Nat) (f : Entry → Entry) (k : Nat) :
    (s.modEntry l t g e f).func k = s.func k := rfl
@[simp] theorem State.func_modCore (s : State) (n : Nat) (f : Core → Core) (k : Nat) : (s.modCore n f).func k = s.func k := rfl

theorem State.func_id (s : State) (k : Nat) : (s.func k).id = k := by
  unfold State.func
  cases h : s.funcs.find? (·.id == k) with
  | none => rfl
  | some x => simpa using List.find?_some h

theorem State.func_modFunc (s : State) (k j : Nat) (f : Func → Func) :
    (s.modFunc k f).func j = if j = k then { f (s.func k) with id := k } else s.func j := by
  have h := find?_putBy (fun x : Func => x.id == k) (fun x => x.id == j) { f (s.func k) with id := k }
    (fun x hx => by simp at hx; simp [hx]) (fun hq x hx => by simp at hq hx ⊢; omega) s.funcs
  by_cases hj : j = k
  · subst hj
    simp only [State.func, State.modFunc, State.setFunc] at h ⊢
    rw [h]
    simp
  · have hk : ¬ k = j := fun e => hj e.symm
    simp only [State.func, State.modFunc, State.setFunc] at h ⊢
    rw [h]
    simp [hj, hk]

/-! ### Teams and gangs -/

@[simp] theorem State.team?_modCore (s : State) (k : Nat) (f : Core → Core) (l t : Nat) : (s.modCore k f).team? l t = s.team? l t := rfl
@[simp] theorem State.team?_modFunc (s : State) (k : Nat) (f : Func → Func) (l t : Nat) : (s.modFunc k f).team? l t = s.team? l t := rfl
@[simp] theorem State.gang?_modCore (s : State) (k : Nat) (f : Core → Core) (l t g : Nat) : (s.modCore k f).gang? l t g = s.gang? l t g := rfl
@[simp] theorem State.gang?_modFunc (s : State) (k : Nat) (f : Func → Func) (l t g : Nat) : (s.modFunc k f).gang? l t g = s.gang? l t g := rfl

theorem State.team?_key {s : State} {l t : Nat} {x : Team} (h : s.team? l t = some x) : x.launch = l ∧ x.num = t := by
  simpa using List.find?_some h

/-- A change of a team that keeps its key. -/
theorem State.team?_modTeam (s : State) (l t l' t' : Nat) (f : Team → Team) (h : ∀ x, (f x).launch = x.launch ∧ (f x).num = x.num) :
    (s.modTeam l t f).team? l' t' = if l' = l ∧ t' = t then (s.team? l t).map f else s.team? l' t' := by
  have h1 := find?_modIf (fun x : Team => x.launch == l && x.num == t) f (fun x => x.launch == l' && x.num == t')
    (fun x => by rw [(h x).1, (h x).2]) s.teams
  show (modIf _ f s.teams).find? _ = _
  rw [h1]
  by_cases hk : l' = l ∧ t' = t
  · obtain ⟨rfl, rfl⟩ := hk
    simp only [and_self, if_true]
    show Option.map _ (s.team? l' t') = _
    cases hx : s.team? l' t' with
    | none => rfl
    | some x =>
      obtain ⟨ha, hb⟩ := State.team?_key hx
      simp [ha, hb]
  · rw [if_neg hk]
    show Option.map _ (s.team? l' t') = _
    cases hx : s.team? l' t' with
    | none => rfl
    | some x =>
      obtain ⟨ha, hb⟩ := State.team?_key hx
      have : ¬ (x.launch = l ∧ x.num = t) := by rw [ha, hb]; exact hk
      simp [this]

theorem State.team?_modGang (s : State) (l t g l' t' : Nat) (f : Gang → Gang) :
    (s.modGang l t g f).team? l' t' =
      if l' = l ∧ t' = t then (s.team? l t).map (fun x => { x with gangs := modAt x.gangs g f }) else s.team? l' t' :=
  s.team?_modTeam l t l' t' _ fun _ => ⟨rfl, rfl⟩

theorem State.gang?_modGang (s : State) (l t g l' t' g' : Nat) (f : Gang → Gang) :
    (s.modGang l t g f).gang? l' t' g' =
      if l' = l ∧ t' = t ∧ g' = g then (s.gang? l t g).map f else s.gang? l' t' g' := by
  unfold State.gang?
  rw [State.team?_modGang]
  by_cases hk : l' = l ∧ t' = t
  · obtain ⟨rfl, rfl⟩ := hk
    cases s.team? l' t' with
    | none => simp
    | some x =>
      by_cases hg : g' = g
      · subst hg; simp [getElem?_modAt]
      · simp [getElem?_modAt, hg]
  · have : ¬ (l' = l ∧ t' = t ∧ g' = g) := fun e => hk ⟨e.1, e.2.1⟩
    rw [if_neg hk, if_neg this]

theorem State.coreOf_modGang (s : State) (l t g l' t' : Nat) (f : Gang → Gang) :
    (s.modGang l t g f).coreOf l' t' = s.coreOf l' t' := by
  unfold State.coreOf
  rw [State.team?_modGang]
  by_cases hk : l' = l ∧ t' = t
  · obtain ⟨rfl, rfl⟩ := hk
    cases s.team? l' t' <;> simp
  · rw [if_neg hk]

/-! ### The issuing bundle -/

theorem Issues.gang? {s : State} {c : Cur} {t : Team} {g : Gang} (h : Issues s c t g) : s.gang? c.launch c.team c.gang = some g := by
  simp [State.gang?, h.team, h.gang]

theorem Issues.coreOf {s : State} {c : Cur} {t : Team} {g : Gang} (h : Issues s c t g) : s.coreOf c.launch c.team = t.core := by
  simp [State.coreOf, h.team]

/-- A meaning runs for the bundle. -/
theorem Issues.withCur {s : State} {c : Cur} {t : Team} {g : Gang} (h : Issues s c t g) (f : Cur → Team → Gang → State) :
    s.withCur f = .next (f c t g) := by
  simp [State.withCur, h.cur, h.team, h.gang]

/-- With an active lane the instruction takes its effect. -/
theorem Acts.withActive {s : State} {c : Cur} {t : Team} {g : Gang} (h : Acts s c t g) (f : Cur → Team → Gang → State) :
    s.withActive f = .next (f c t g) := by
  rw [State.withActive, h.toIssues.withCur, if_neg h.active]

/-- With none it is passed over (02 R35). -/
theorem Issues.withActive_none {s : State} {c : Cur} {t : Team} {g : Gang} (h : Issues s c t g) (hm : c.mask = 0)
    (f : Cur → Team → Gang → State) : s.withActive f = .next (s.advance c) := by
  simp [State.withActive, h.withCur, hm]

/-- What a meaning for the bundle can do: it answers a next state, and one only. -/
theorem withActive_next {s u : State} {f : Cur → Team → Gang → State} (h : s.withActive f = .next u) :
    ∃ c t g, Issues s c t g ∧ u = if c.mask = 0 then s.advance c else f c t g := by
  unfold State.withActive State.withCur at h
  split at h
  · cases h
  · next c hc =>
    split at h
    · cases h
    · next t ht =>
      split at h
      · cases h
      · next g hg =>
        injection h with h
        exact ⟨c, t, g, ⟨hc, ht, hg⟩, h.symm⟩

end Sys2Proof.Machine
end

