-- ==== Sys2Proof/Laws/Regs.lean ====
section
/-! SUPPORT. A gang's registers: what each write does and what it leaves; settling; the room that a core has. -/

namespace Sys2Proof.Machine

/-! ### Settling changes forms and counts only -/

theorem shared_keeps (x : VReg) (b : Bool) :
    (some (if b then x else { x with form := .uni })).map (fun v => (v.lanes, v.tag)) = some (x.lanes, x.tag) := by
  cases b <;> rfl

theorem Gang.settle_vreg (g : Gang) (r : Nat) :
    (g.settle.vreg r).map (fun v => (v.lanes, v.tag)) = (g.vreg r).map (fun v => (v.lanes, v.tag)) := by
  simp only [Gang.settle, Gang.vreg, List.getElem?_mapIdx]
  cases h : g.vmap[r]? with
  | none => rfl
  | some o =>
    cases o with
    | none => rfl
    | some x =>
      show Option.map _ (if (x.form == Form.shared) = true then _ else _) = some (x.lanes, x.tag)
      by_cases hs : (x.form == Form.shared) = true
      · rw [if_pos hs]
        exact shared_keeps x _
      · rw [if_neg hs]
        rfl

theorem lanes_of_vreg {g g' : Gang} {r : Nat}
    (h : (g'.vreg r).map (fun v => (v.lanes, v.tag)) = (g.vreg r).map (fun v => (v.lanes, v.tag))) :
    g'.lanes r = g.lanes r ∧ g'.tag r = g.tag r := by
  unfold Gang.lanes Gang.tag
  cases h1 : g'.vreg r <;> cases h2 : g.vreg r <;> simp_all

@[simp] theorem Gang.settle_lanes (g : Gang) (r : Nat) : g.settle.lanes r = g.lanes r := (lanes_of_vreg (g.settle_vreg r)).1
@[simp] theorem Gang.settle_tag (g : Gang) (r : Nat) : g.settle.tag r = g.tag r := (lanes_of_vreg (g.settle_vreg r)).2
@[simp] theorem Gang.settle_uni (g : Gang) (r : Nat) : g.settle.uni r = g.uni r := rfl
@[simp] theorem Gang.settle_pred (g : Gang) (p : Nat) : g.settle.pred p = g.pred p := rfl
@[simp] theorem Gang.settle_frontier (g : Gang) : g.settle.frontier = g.frontier := rfl

/-! ### The entry moves on -/

@[simp] theorem Gang.advance_lanes (g : Gang) (c : Cur) (r : Nat) : (g.advance c).lanes r = g.lanes r := rfl
@[simp] theorem Gang.advance_tag (g : Gang) (c : Cur) (r : Nat) : (g.advance c).tag r = g.tag r := rfl
@[simp] theorem Gang.advance_uni (g : Gang) (c : Cur) (r : Nat) : (g.advance c).uni r = g.uni r := rfl
@[simp] theorem Gang.advance_pred (g : Gang) (c : Cur) (p : Nat) : (g.advance c).pred p = g.pred p := rfl

/-! ### Writes -/

theorem Gang.vmap_holdV (g : Gang) (r : Nat) : (g.holdV r).vmap = g.vmap := by unfold Gang.holdV; split <;> rfl
theorem Gang.vmap_holdS (g : Gang) (r : Nat) : (g.holdS r).vmap = g.vmap := by unfold Gang.holdS; split <;> rfl

theorem Gang.vreg_putV (g : Gang) (r : Nat) (m : Mask) (vals : List W32) (t : Tag) (k : Nat) (hr : r < g.vmap.length) :
    (g.putV r m vals t).vreg k = if k = r then some ⟨mergeLanes m (g.lanes r) vals, t, .full⟩ else g.vreg k := by
  simp only [Gang.putV, Gang.vreg, getElem?_setAt]
  by_cases h : k = r
  · subst h
    simp [List.getElem?_eq_getElem hr]
  · simp [h]

theorem Gang.vreg_freeV (g : Gang) (r k : Nat) : (g.freeV r).vreg k = if k = r then none else g.vreg k := by
  unfold Gang.freeV
  by_cases hs : (g.vreg r).isSome = true
  · rw [if_pos hs]
    simp only [Gang.vreg, getElem?_setAt]
    by_cases h : k = r
    · subst h
      cases g.vmap[k]? <;> simp
    · simp [h]
  · rw [if_neg hs]
    by_cases h : k = r
    · subst h
      simpa using hs
    · simp [h]

theorem Gang.uni_putS (g : Gang) (r : Nat) (v : W64) (k : Nat) (hr : r < g.smap.length) :
    (g.putS r v).uni k = if k = r then v else g.uni k := by
  simp only [Gang.putS, Gang.uni, getElem?_setAt]
  by_cases h : k = r
  · subst h; simp [List.getElem?_eq_getElem hr]
  · simp [h]

theorem Gang.uni_freeS (g : Gang) (r k : Nat) : (g.freeS r).uni k = if k = r then 0 else g.uni k := by
  unfold Gang.freeS
  by_cases hs : ((g.smap[r]?).join).isSome = true
  · rw [if_pos hs]
    simp only [Gang.uni, getElem?_setAt]
    by_cases h : k = r
    · subst h
      cases g.smap[k]? <;> simp
    · simp [h]
  · rw [if_neg hs]
    by_cases h : k = r
    · subst h
      have : (g.smap[k]?).join = none := by simpa using hs
      simp [Gang.uni, this]
    · simp [h]

theorem lanes_putV (g : Gang) (r : Nat) (m : Mask) (vals : List W32) (t : Tag) (k : Nat) (hr : r < g.vmap.length) :
    (g.putV r m vals t).lanes k = if k = r then mergeLanes m (g.lanes r) vals else g.lanes k := by
  unfold Gang.lanes
  rw [Gang.vreg_putV g r m vals t k hr]
  by_cases h : k = r <;> simp [h, Gang.lanes]

theorem tag_putV (g : Gang) (r : Nat) (m : Mask) (vals : List W32) (t : Tag) (k : Nat) (hr : r < g.vmap.length) :
    (g.putV r m vals t).tag k = if k = r then t else g.tag k := by
  unfold Gang.tag
  rw [Gang.vreg_putV g r m vals t k hr]
  by_cases h : k = r <;> simp [h]

theorem lanes32_get : ∀ {i : Nat}, i < 32 → lanes32[i]? = some i := by
  decide

/-- A lane after a masked write. -/
theorem getD_mergeLanes (m : Mask) (old new : List W32) (i : Nat) (h : i < 32) :
    (mergeLanes m old new).getD i 0 = if m.getLsbD i then new.getD i 0 else old.getD i 0 := by
  simp [mergeLanes, List.getD_eq_getElem?_getD, lanes32_get h]

/-! ### Room -/

theorem filter_length_le {α : Type} (p : α → Bool) (l : List α) (n : Nat) (h : l.length ≤ n) : (l.filter p).length ≤ n :=
  Nat.le_trans (List.length_filter_le p l) h

theorem regs64_length : regs64.length = 64 := by decide

theorem Gang.hv_le (g : Gang) : g.hv ≤ 128 := by
  have a := filter_length_le (fun r => ((g.vreg r).map (·.form)) == some .full) regs64 64 (Nat.le_of_eq regs64_length)
  have b := filter_length_le (fun r => g.region.heldV.getLsbD r && g.region.vform? r == some .full) regs64 64 (Nat.le_of_eq regs64_length)
  unfold Gang.hv; omega

theorem Gang.hs_le (g : Gang) : g.hs ≤ 128 := by
  have a := filter_length_le (fun r => ((g.smap[r]?).join).isSome) regs64 64 (Nat.le_of_eq regs64_length)
  have b := filter_length_le (fun r => g.region.heldS.getLsbD r) regs64 64 (Nat.le_of_eq regs64_length)
  unfold Gang.hs; omega

theorem Gang.entries_le (g : Gang) : g.entries ≤ 128 := by
  have a := filter_length_le (fun r => ((g.vreg r).map (·.form)) == some .uni) regs64 64 (Nat.le_of_eq regs64_length)
  have b := filter_length_le (fun r => g.region.heldV.getLsbD r && g.region.vform? r == some .uni) regs64 64 (Nat.le_of_eq regs64_length)
  unfold Gang.entries; omega

theorem sum_map_filter_le {α : Type} (f : α → Nat) (p : α → Bool) (l : List α) : ((l.filter p).map f).sum ≤ (l.map f).sum := by
  induction l with
  | nil => simp
  | cons x t ih => cases h : p x <;> simp [h] <;> omega

/-- A gang gives back what it was lent, or keeps it; settling lends nothing. -/
theorem Gang.lentOf_settle (g : Gang) (u : Bool) : g.settle.lentOf u ≤ g.lentOf u := by
  have h : g.settle.lent = g.lent.filter
      ({ g with vmap := g.settle.vmap, qv := g.qv, qs := g.qs } : Gang).wants := rfl
  simp only [Gang.lentOf, h, List.filter_filter]
  rw [show (g.lent.filter fun a => (a.uni == u) && _) = (g.lent.filter fun a => a.uni == u).filter _ from by
    rw [List.filter_filter]; congr 1; funext a; exact Bool.and_comm _ _]
  exact sum_map_filter_le _ _ _

theorem Gang.lentOf_unlend (g : Gang) (k : ClaimKind) (n : Nat) (u : Bool) : (g.unlend k n).lentOf u ≤ g.lentOf u := by
  simp only [Gang.lentOf, Gang.unlend, List.filter_filter]
  rw [show (g.lent.filter fun a => (a.uni == u) && _) = (g.lent.filter fun a => a.uni == u).filter _ from by
    rw [List.filter_filter]; congr 1; funext a; exact Bool.and_comm _ _]
  exact sum_map_filter_le _ _ _

/-- A core with 256 registers of each kind and no claim has room for any settled gang that has been lent no more than before. -/
theorem Core.room_ok {k : Core} (hc : k.claims = []) (hv : 256 ≤ k.poolV) (hs : 256 ≤ k.poolS) (g g' : Gang)
    (hl : ∀ u, g'.lentOf u ≤ g.lentOf u) : k.room g g'.settle = .ok := by
  have a := g'.settle.hv_le
  have b := g'.settle.hs_le
  have d := g'.settle.entries_le
  have q : g'.settle.qv ≤ 64 ∧ g'.settle.qs ≤ 64 := ⟨Nat.min_le_left _ _, Nat.min_le_left _ _⟩
  have l0 := Nat.le_trans (g'.lentOf_settle false) (hl false)
  have l1 := Nat.le_trans (g'.lentOf_settle true) (hl true)
  have e1 : g'.settle.takenV ≤ 128 + g.lentOf false := by unfold Gang.takenV; omega
  have e2 : g'.settle.takenS ≤ 256 + g.lentOf true := by unfold Gang.takenS; omega
  have f1 : g.lentOf false ≤ g.takenV := by unfold Gang.takenV; omega
  have f2 : g.lentOf true ≤ g.takenS := by unfold Gang.takenS; omega
  have n1 : ¬ k.poolV < g'.settle.takenV - g.takenV := by omega
  have n2 : ¬ k.poolS < g'.settle.takenS - g.takenS := by omega
  simp [Core.room, hc, n1, n2]

theorem Ample.room {s : State} {c : Cur} (h : Ample s c) (g g' : Gang) :
    (s.core (s.coreOf c.launch c.team)).room g (g.spend g' c.eid) = .ok :=
  Core.room_ok h.noClaims h.vector h.uniform g _ fun u => g.lentOf_unlend .write c.eid u

@[simp] theorem Gang.spend_lanes (g g' : Gang) (n r : Nat) : (g.spend g' n).lanes r = g'.lanes r :=
  Gang.settle_lanes ({ g' with lent := (g.unlend .write n).lent } : Gang) r
@[simp] theorem Gang.spend_tag (g g' : Gang) (n r : Nat) : (g.spend g' n).tag r = g'.tag r :=
  Gang.settle_tag ({ g' with lent := (g.unlend .write n).lent } : Gang) r
@[simp] theorem Gang.spend_uni (g g' : Gang) (n r : Nat) : (g.spend g' n).uni r = g'.uni r := rfl
@[simp] theorem Gang.spend_pred (g g' : Gang) (n p : Nat) : (g.spend g' n).pred p = g'.pred p := rfl
@[simp] theorem Gang.spend_frontier (g g' : Gang) (n : Nat) : (g.spend g' n).frontier = g'.frontier := rfl

/-- With room, an instruction's effect on its gang is taken. -/
theorem Ample.commitWith {s : State} {c : Cur} (h : Ample s c) (g g' : Gang) (k : Gang → Gang) :
    s.commitWith c g g' k =
      s.putGang c.launch c.team c.gang (k (g.spend g' c.eid)) := by
  simp [State.commitWith, h.room g g']

/-- With no upset about, a bundle's lanes are written as computed. -/
theorem Ample.reflected {s : State} {c : Cur} {t : Team} {g : Gang} (h : Ample s c) (hi : Issues s c t g) (x : PipeUpset → Nat)
    (vals : List Nat) (k : State → Option (List Nat) → State) : s.reflected c t x vals k = k s none := by
  have ht : s.coreOf c.launch c.team = t.core := by simp [State.coreOf, hi.team]
  have hu := h.calm
  rw [ht] at hu
  simp [State.reflected, hu]

/-- Replacing a gang does what `Commits` says. -/
theorem putGang_commits {s : State} {c : Cur} {t : Team} {g : Gang} (h : Issues s c t g) (g' : Gang) :
    Commits s c g' (s.putGang c.launch c.team c.gang g') := by
  have hg := h.gang?
  simp only [State.putGang, hg]
  refine ⟨?_, ⟨?_, ?_⟩, ?_, ?_⟩
  · simp [State.gang?_modGang, hg]
  · rfl
  · intro k
    rw [State.core_modCore]
    by_cases hk : k = s.coreOf c.launch c.team
    · subst hk
      have := s.core_id (s.coreOf c.launch c.team)
      simp only [if_true, State.core_modGang]
      cases hc : s.core (s.coreOf c.launch c.team)
      rw [hc] at this
      simp at this
      simp [this]
    · simp [hk]
  · intro l tm k hne
    simp only [State.gang?_modCore, State.gang?_modGang]
    rw [if_neg hne]
  · intro l tm
    simp only [State.team?_modCore, State.team?_modGang]
    by_cases hk : l = c.launch ∧ tm = c.team
    · obtain ⟨rfl, rfl⟩ := hk
      simp [h.team]
    · rw [if_neg hk]

end Sys2Proof.Machine
end

