-- ==== Sys2Proof/Tests/Slice0.lean ====
section
/-! SUPPORT. Tests: words of the manual, ill-formed terms, one step of small states, and for each statement a state and operands that meet
its hypotheses. -/

open Sys2Proof Sys2Proof.Machine Sys2Proof.Claims

namespace Sys2Proof.Tests

set_option Elab.async false

/-! ### A small state: one team of one gang of 32 lanes on core 0, its lanes 0 to 3 active -/

/-- Registers 0 to 15 mapped, each with its tag. -/
def tRegs (T : Nat → Tag) : List (Option VReg) :=
  regs64.map fun r => if r < 16 then some ⟨lanes32.map fun i => BitVec.ofNat 32 (64 * r + i), T r, .full⟩ else none

def tEntry : Entry := ⟨7, 128, 0x20000, 0xFF, 0, none, [], 1, 2, .none, 0, 0, .ready⟩

/-- A gang with tagged registers and uniform registers 0 to 15. -/
def tGang (T : Nat → Tag) : Gang :=
  { Gang.start 0 32 64 64 0 0x20000 7 with
    vmap := tRegs T
    smap := regs64.map fun r => if r < 16 then some (BitVec.ofNat 64 (65536 * r)) else none
    frontier := [tEntry] }

def tCur : Cur := ⟨1, 0, 0, 7, 0x20000, 0x20000, 0xF, 0, 4, 77⟩

def tTeam (g : Gang) : Team := { newTeam (codeLaunch State.reset) 0 0 0 7 (0, 0, 0, 0) 0 0 with launch := 1, gangs := [g] }

/-- A team's bundle is issuing. -/
def tOn (s : State) (t : Team) (c : Cur) : State := { s with teams := [t], cur := some c }

def tState (g : Gang) : State := tOn State.reset (tTeam g) tCur

def tg (T : Tag) : Gang := tGang fun _ => T
def ta : Opnd := ⟨true, false, 0⟩
def tb : Opnd := ⟨false, false, 2⟩

theorem acts (g : Gang) : Acts (tState g) tCur (tTeam g) g := ⟨⟨rfl, rfl, rfl⟩, by decide⟩
theorem ample (g : Gang) : Ample (tState g) tCur := ⟨rfl, by show 256 ≤ 32768; decide, by show 256 ≤ 32768; decide, rfl⟩
theorem shaped (T : Nat → Tag) : Shaped (tGang T) := ⟨rfl, rfl, rfl, rfl, rfl, rfl, rfl⟩
theorem shapedT (T : Tag) : Shaped (tg T) := shaped _

/-- Register 0 and 1 hold the address 0x20000 + 8 × lane, the others as in `tGang`. -/
def tAddr (T : Nat → Tag) : Gang :=
  let lo : VReg := ⟨lanes32.map fun i => BitVec.ofNat 32 (0x20000 + 8 * i), T 0, .full⟩
  let hi : VReg := ⟨lanes32.map fun _ => 0, T 1, .full⟩
  { tGang T with vmap := some lo :: some hi :: (tRegs T).drop 2 }
theorem shapedA (T : Nat → Tag) : Shaped (tAddr T) := ⟨rfl, rfl, rfl, rfl, rfl, rfl, rfl⟩

/-- A device whose home and stack caches are empty has room in them. -/
theorem roomy (s : State) (h : s.home = []) (k : s.stack = []) : Roomy s := by
  refine ⟨?_, by rw [h]; decide, by rw [k]; decide⟩
  rw [State.linesWhole, h, k]
  exact ⟨(fun _ m => nomatch m), (fun _ m => nomatch m)⟩

/-! ### Words of the manual's encodings, and ill-formed terms -/

def tR (r : BitVec 6) : Opnd := ⟨false, false, r⟩
/-- Each word decodes to its instruction. -/
def tDecodes (l : List (Nat × Instr)) : Bool := l.all fun x => decide (decodeTableWord 32 x.1 = some x.2)

-- 02 Table 2-20.
theorem test_decode_compressed : decodeTableWord 16 0x28C2 = some (.iaddC 3 5) ∧ decodeTableWord 16 0x00E0 = some (.pred 3 false) ∧
    decodeTableWord 16 0x0060 = some (.pred 1 false) := by decide
theorem test_decode_stream : tDecodes [(0xC8F1001F, .clauseHeader 1 1 15 0xC8), (0xC8FF002F, .clauseHeader 2 15 15 0xC8), (0xFFFFDC01, .bra 0x3FFFF7),
    (0x89421141, .ld 4 2 1 ⟨true, false, 9⟩), (0x8B4A18F1, .fadd 6 ⟨false, true, 10⟩ ⟨true, false, 11⟩)] = true := by decide
-- 13 R294 to R300, 14 Table 14-4.
theorem test_decode_control : tDecodes [(0x003E0005, .brx (tR 62)), (0x00BE0007, .ret ⟨true, false, 62⟩), (0x0104000D, .exit (tR 4) 1),
    (0x0000000D, .exit (tR 0) 0), (0x00090011, .waitf 9), (0x01000009, .reconvTry), (0x00020C13, .region 3 (tR 2)), (0x01000013, .regionAll),
    (0x00001817, .rngnext 6), (0x0503001B, .trap (tR 3) 5), (0x1102181D, .svc 6 (tR 2) 0x11), (0x01000021, .bkpt 1)] = true := by decide
-- 13 R303 to R305.
theorem test_decode_sync : tDecodes [(0x00050431, .barinit 1 (tR 5)), (0x00000437, .barsync 1), (0x0200003B, .cvset 0 2), (0x01000041, .batonacq true)]
    = true := by decide
-- 08 Table 8-7, 17 to 19.
theorem test_decode_registers : tDecodes [(0x00000467, .sprd 1 0 0), (0x04010867, .sprd 2 1 4), (0x20010C59, .smovi 3 0x2001), (0x01030057, .smovLpa (tR 3)),
    (0x00060C53, .movi 3 6), (0x09041063, .tagset 4 (tR 4) 9), (0x0400006D, .regrel 4 false), (0x0600006B, .regclaim 6 false),
    (0x201A405D, .v2s 16 (tR 26) 0 true), (0x00080071, .free (tR 8) false), (0x010E0071, .free (tR 14) true)] = true := by decide
-- 10 R211 to R231, and its worked example.
theorem test_decode_integer : tDecodes [(0x01410891, .iadd 2 ⟨false, true, 1⟩ (tR 1)), (0x0402189B, .iaddc 6 (tR 2) (tR 4)), (0x030514D1, .shri 5 (tR 5) 3),
    (0x018824CB, .iaddi 9 ⟨true, false, 8⟩ 1), (0x171068C1, .lea 26 (tR 16) (tR 23)), (0x0909C4C7, .pset 1 6 (tR 9) (tR 9)),
    (0x1F8310C7, .pset 4 0 ⟨true, false, 3⟩ (tR 31)), (0x010714C5, .sel 5 (tR 7) (tR 1))] = true := by decide
theorem test_decode_exchange : tDecodes [(0x0202147D, .vote 5 2 false 2), (0x0003247D, .vote 9 3 false 0), (0x00021075, .qswapy 4 (tR 2))] = true := by
  decide
theorem test_decode_float : tDecodes [(0x0A0920F7, .ffma 8 (tR 9) (tR 10)), (0x030248FD, .fset 2 2 (tR 2) (tR 3)), (0x020208F5, .fmul 2 (tR 2) (tR 2)),
    (0x60010931, .cvt 2 (tR 1) 0 6), (0x82050D31, .cvt 3 (tR 5) 1 8), (0x140D1133, .cvts 4 (tR 13) (tR 20)), (0x94082535, .deq 9 (tR 8) ⟨true, false, 20⟩),
    (0x03041939, .unpack 6 (tR 4) 3)] = true := by decide
-- 03 Table 3-8, 04 Tables 4-6 and 4-8, 05 Table 5-9.
theorem test_decode_memory : tDecodes [(0x09020D43, .st 3 2 0 (tR 9)), (0x09820D45, .ldacq 3 2 2 (tR 9)), (0x1806214D, .atom 8 (tR 6) 0 3 0),
    (0x200A314D, .atom 12 (tR 10) 0 4 0), (0x18061153, .cas 4 (tR 6) 3 0), (0x03400949, .sld 2 0 1 (tR 3)), (0x0F08394B, .sst 14 8 0 (tR 15)),
    (0x0305015D, .tfence (tR 5) 3), (0x0C00015D, .tfenceAll 4)] = true := by decide
theorem test_decode_fabric : tDecodes [(0x0C065171, .rstrel 20 6 0 (tR 12)), (0x0C864173, .rstarv 16 6 2 (tR 12)), (0x00042575, .rfence 9 (tR 4) false),
    (0x01042575, .rfence 9 (tR 4) true)] = true := by decide
-- 06 Tables 6-4, 6-7 and 6-13.
theorem test_decode_copies : tDecodes [(0x00234181, .cpy 16 3 true), (0x001F4181, .cpy 16 31 false), (0x23062D87, .cpyt 11 (tR 6) 3 1),
    (0x42083187, .cpyt 12 (tR 8) 2 2), (0x01000189, .cpywait 1), (0x0100158D, .cpystatBitmap 5), (0x00061591, .cpycan 5 (tR 6)),
    (0x01001591, .cpycanAll 5), (0x0B02218B, .cpyq 8 (tR 2) 3 true)] = true := by decide
-- 07 R157 to R168.
theorem test_decode_tiles : tDecodes [(0x000601A1, .tdef 0 (tR 6)), (0x010221A3, .tld 8 2 0 (tR 1)), (0x821111A7, .tldc 4 1 1 ⟨true, false, 2⟩),
    (0x182431A5, .tst 12 4 2 (tR 24)), (0x040001A9, .tarm 0 (tR 4)), (0x000015AD, .ttest 5 0), (0x000301AB, .twait 3)] = true := by decide
-- 11 R238 to R258.
theorem test_decode_matrix : tDecodes [(0x401001C1, .mma 0 0 0 1 1), (0xC02405C1, .mma 1 0 4 2 3), (0xCC5329C7, .mmags 2 1 3 5 12 3), (0x400001C9, .mzero 0 1),
    (0x010021CB, .mrd 8 0 0 (tR 1)), (0x020111CD, .mwr 4 1 0 (tR 2)), (0x000401D3, .mprogWrite (tR 4) 0), (0x820015D3, .mprogRead 5 2),
    (0x000005D1, .mstore 1)] = true := by decide
-- 10's example prints 0x6003_0C31 for CVT.f32 v3, v3; Tables 2-19 and 9-5 give 0x6003_0D31 (log 71).
theorem test_decode_misprint : decodeTableWord 32 0x60030C31 = none ∧ decodeTableWord 32 0x60030D31 = some (.cvt 3 (tR 3) 0 6) := by decide

/-- One ill-formed term for each kind of limit (02 R28): a scope, a barrier, a register that must be even or a multiple of four, a count, a prism
bit, a tag, a rounding mode, a word of a special register, a mode, a mask, a wide range that passes register 63. -/
theorem test_ill_formed : ([.exit (tR 4) 5, .exit ⟨false, true, 4⟩ 1, .exit (tR 4) 0, .barinit 16 (tR 5), .cvset 8 2, .s2v 3 (tR 2) 11, .tagset 4 (tR 4) 13,
    .sprd 1 2 0x04, .spwr (tR 1) 0, .regclaim 0 false, .regrel 65 false, .vote 5 2 false 4, .matchLanes 2 (tR 3) true, .lea 26 (tR 17) (tR 23),
    .shri 5 (tR 5) 64, .frnd 2 (tR 3) 5, .cvt 3 (tR 5) 0 0, .atom 8 (tR 7) 0 3 0, .atom 8 (tR 6) 0 6 0, .cas 6 (tR 6) 3 1, .fence 2 3, .tfenceAll 5,
    .rstrel 20 6 2 (tR 12), .ld 61 2 2 (tR 9), .cpy 57 3 false, .cpy 16 16 false, .cpywait 0, .cpyq 8 (tR 2) 2 false, .tdef 0 (tR 63),
    .mzero 0 2, .mprogWrite (tR 4) 3, .fset 2 2 (tR 2) (tR 3)] : List Instr).map wellFormed = List.replicate 31 false ++ [true] := by decide

/-! ### One step -/

/-- Registers from a list, each a tag and the values of its lanes; the rest unmapped. -/
def tHolds (l : List (Nat × Tag × (Nat → W32))) : Gang :=
  { tg .none with vmap := regs64.map fun r => (l.find? (·.1 == r)).map fun x => ⟨lanes32.map x.2.2, x.2.1, .full⟩ }
def tAll (v : W32) : Nat → W32 := fun _ => v
/-- The gang after one instruction on the lanes `m`. -/
def tAfter (i : Instr) (m : Mask) (g : Gang) : Gang :=
  match exec i (tOn State.reset (tTeam g) { tCur with mask := m }) with
  | .next u => (u.gang? 1 0 0).getD g
  | _ => g
/-- Register `d` after it: its tag, and some lanes of it. -/
def tGives (i : Instr) (m : Mask) (g : Gang) (d : Nat) (ns : List Nat) : Tag × List Nat :=
  ((tAfter i m g).tag d, ns.map ((tAfter i m g).srcD d).val)

-- 08 Table 8-7: lane i of v2 is ((i + 1) mod 32) + i.
theorem test_prism : tGives (.iadd 2 ⟨false, true, 1⟩ (tR 1)) 0xFFFFFFFF { tHolds [(1, .u32, BitVec.ofNat 32)] with lpa := 0x2001 } 2 [0, 5, 30, 31]
    = (.u32, [1, 11, 61, 31]) := by decide +kernel
-- 10's example: lanes 4 and 5 read the helper lanes 6 and 7.
theorem test_quad_helpers : tGives (.qswapy 4 (tR 2)) 0x3F (tHolds [(2, .u32, BitVec.ofNat 32), (4, .u32, tAll 99)]) 4 [0, 1, 2, 3, 4, 5, 6]
    = (.u32, [2, 3, 0, 1, 6, 7, 99]) := by decide +kernel
-- 10's example: p2 in lanes 0 to 5, and its ballot.
theorem test_ballot : tGives (.vote 5 2 false 2) 0x3FFFFFFF { tHolds [] with preds := setAt (List.replicate 8 0) 2 0x3F } 5 [0, 29] = (.u32, [0x3F, 0x3F]) := by
  decide +kernel
theorem test_float_less : (tAfter (.fset 2 2 (tR 2) (tR 3)) 0x7 (tHolds [(2, .f32, fun n => if n = 0 then 0x3F800000 else if n = 1 then 0xBF800000 else 0x7FC00000),
    (3, .f32, tAll 0)])).pred 2 = 2 := by decide +kernel
-- 09 Table 9-8.
theorem test_cvts : tGives (.cvts 4 (tR 12) (tR 20)) 1 (tHolds [(4, .t8x4, tAll 0x7B), (12, .f32, tAll 0x3E99999A), (20, .u32, tAll 0x270)]) 4 [0]
    = (.t8x4, [0x7B55]) := by decide +kernel
theorem test_cvts_saturates : tGives (.cvts 4 (tR 13) (tR 20)) 1 (tHolds [(4, .t8x4, tAll 0), (13, .f32, tAll 0x42C80000), (20, .u32, tAll 0x270)]) 4 [0]
    = (.t8x4, [0x7B]) := by decide +kernel
theorem test_unpack : tGives (.unpack 6 (tR 4) 3) 1 (tHolds [(4, .t8x4, tAll 0x7B55E060)]) 6 [0] = (.f32, [0x43400000]) := by decide +kernel
theorem test_deq : tGives (.deq 9 (tR 8) (tR 20)) 1 (tHolds [(8, .f32, tAll 0xC0800000), (20, .u32, tAll 0x270)]) 9 [0] = (.f32, [0xC0400000]) := by
  decide +kernel
theorem test_deq_nan : tGives (.deq 9 (tR 8) (tR 20)) 1 (tHolds [(8, .f32, tAll 0xC0800000), (20, .u32, tAll 0x2FF)]) 9 [0] = (.f32, [0x7FC00000]) := by
  decide +kernel
-- 10 R229: a lane number from 32 upward reads zero; a parked lane supplies its value.
theorem test_shuffle : tGives (.shfl 4 (tR 2) (tR 3)) 0x3 (tHolds [(2, .u32, fun n => BitVec.ofNat 32 (100 + n)), (3, .u32, fun n => if n = 0 then 31 else 32)]) 4 [0, 1]
    = (.u32, [131, 0]) := by decide +kernel
-- 10 R231.
theorem test_match : tGives (.matchLanes 4 (tR 2) false) 0xF (tHolds [(2, .u32, fun n => if n % 2 = 0 then 7 else 8)]) 4 [0, 1, 2] = (.u32, [5, 10, 5]) := by
  decide +kernel
-- 10 Table 10-2: a sum wraps.
theorem test_add_wraps : tGives (.iadd 4 (tR 2) (tR 3)) 1 (tHolds [(2, .i32, tAll 0x7FFFFFFF), (3, .i32, tAll 1)]) 4 [0] = (.i32, [0x80000000]) := by
  decide +kernel
-- 08 R190, Table 8-6: SR_LANE.
theorem test_lane_number : tGives (.sprd 1 0 0) 0xFFFFFFFF (tHolds []) 1 [0, 31] = (.u32, [0, 31]) := by decide +kernel
-- 08 R188: REGREL gives back what the gang does not hold.
theorem test_regrel : (tAfter (.regrel 8 false) 0xFF { tHolds [(1, .u32, tAll 0), (2, .u32, tAll 0)] with qv := 8 }).qv = 2 := by decide +kernel

def tStep (o : Out) : Option Gang :=
  match o with
  | .next u => u.gang? 1 0 0
  | _ => none
/-- The first instruction after a load: MOVI v3, #6. -/
theorem test_first_step : (tStep (step (State.reset.withFetchWord 32 0x00060C53))).map (fun g => (g.srcD 3).val 31) = some 6 := by decide +kernel

/-! ### Hypotheses of the statements on arithmetic -/

theorem wit_IntegerElementwise : ∃ (i : Instr) (s : State) (c : Cur) (t : Team) (g : Gang) (d : BitVec 6) (os : List Opnd)
    (ss : List (Src × Src)) (T : Tag),
    intForm g i = some (d, os, ss) ∧ Acts s c t g ∧ Ample s c ∧ Shaped g ∧ TypedBy false (intTags i) ss (some d.toNat) T :=
  ⟨.imad 4 ta tb, _, _, _, tg .i64, 4, _, _, .i64, rfl, acts _, ample _, shapedT _, ⟨by decide, by decide, by decide, by decide⟩⟩

theorem wit_CarryOfLimb : ∃ (s : State) (c : Cur) (t : Team) (g : Gang) (d : BitVec 6) (a b : Opnd) (T : Tag),
    Acts s c t g ∧ Ample s c ∧ Shaped g ∧ TypedBy false [.i32, .u32, .none] [g.opA a, g.opB b] none T ∧ g.tag d.toNat ≠ .poison :=
  ⟨_, _, _, tg .u32, 4, ta, tb, .u32, acts _, ample _, shapedT _, ⟨by decide, by decide, by decide, by decide⟩, by decide⟩

theorem wit_LogicOfLanes : ∃ (i : Instr) (s : State) (c : Cur) (t : Team) (g : Gang) (d : BitVec 6) (a b : Opnd),
    logicForm i = some (d, a, b) ∧ Acts s c t g ∧ Ample s c ∧ Shaped g ∧ Readable (g.opA a) ∧ (g.srcB b).tag ≠ .poison ∧
    isPairTag (g.srcA a).tag = true ∧ (d.toNat % 2 = 0 ∧ (g.srcB b).reg % 2 = 0 ∧ (g.srcB1 b).tag = (g.srcB b).tag) :=
  ⟨.xor 4 ta tb, _, _, _, tg .f64, 4, ta, tb, rfl, acts _, ample _, shapedT _, ⟨by decide, by decide⟩, by decide, by decide, by decide⟩

theorem wit_ShiftsAndCounts : ∃ (i : Instr) (s : State) (c : Cur) (t : Team) (g : Gang) (d : BitVec 6) (a : Opnd) (bs : List Opnd),
    shiftForm i = some (d, a, bs) ∧ Acts s c t g ∧ Ample s c ∧ Shaped g ∧ Readable (g.opA a) ∧ (∀ b ∈ bs, (g.srcB b).tag ≠ .poison) ∧
    (isPairTag (g.srcA a).tag = true → counts i = false → d.toNat % 2 = 0) :=
  ⟨.sar 4 ta tb, _, _, _, tg .i64, 4, ta, [tb], rfl, acts _, ample _, shapedT _, ⟨by decide, by decide⟩, by decide, by decide⟩

theorem wit_FieldsAndSelects : ∃ (s : State) (c : Cur) (t : Team) (g g' : Gang) (d : BitVec 6) (a b : Opnd),
    (Acts s c t g ∧ Ample s c ∧ Shaped g ∧ (g.srcA a).tag = .i32 ∧ (g.srcB b).tag = .i32 ∧ g.tag d.toNat = .i32) ∧
    Acts (tState g') c (tTeam g') g' ∧ Ample (tState g') c ∧ Shaped g' ∧ (g'.srcA a).tag = .i8x4 ∧ (g'.srcB b).tag = .u8x4 ∧
      g'.tag d.toNat = .u32 :=
  ⟨_, _, _, tg .i32, tGang fun r => if r < 2 then .i8x4 else if r < 4 then .u8x4 else .u32, 4, ta, tb,
    ⟨acts _, ample _, shapedT _, by decide, by decide, by decide⟩, acts _, ample _, shaped _, by decide, by decide, by decide⟩

theorem wit_AddressAndPredicate : ∃ (s s' : State) (c : Cur) (t t' : Team) (g g' : Gang) (d : BitVec 6) (a b : Opnd),
    (Acts s c t g ∧ Ample s c ∧ Shaped g ∧ wellFormed (.lea d a b) = true ∧ (g.srcA a).tag = .i64 ∧ (g.srcA1 a).tag = (g.srcA a).tag ∧
      (g.srcB b).tag = .i32) ∧
    Acts s' c t' g' ∧ Ample s' c ∧ Shaped g' ∧ TypedBy false [.i32, .u32, .none, .i64] [g'.opA a, g'.opB b] none .i32 :=
  ⟨_, _, _, _, _, tGang fun r => if r < 2 then .i64 else .i32, tg .i32, 4, ta, tb,
    ⟨acts _, ample _, shaped _, by decide, by decide, by decide, by decide⟩, acts _, ample _, shapedT _,
    ⟨by decide, by decide, by decide, by decide⟩⟩

theorem wit_FloatElementwise : ∃ (i : Instr) (s : State) (c : Cur) (t : Team) (g : Gang) (d : BitVec 6) (os : List Opnd)
    (ss : List (Src × Src)) (T : Tag),
    floatForm g i = some (d, os, ss) ∧ wellFormed i = true ∧ Acts s c t g ∧ Ample s c ∧ Shaped g ∧
    TypedBy true (floatTags i) ss (some d.toNat) T :=
  ⟨.ffma 4 ta tb, _, _, _, tg .f64, 4, _, _, .f64, rfl, by decide, acts _, ample _, shapedT _, ⟨by decide, by decide, by decide, by decide⟩⟩

theorem wit_FloatScalesAndTests : ∃ (s s' : State) (c : Cur) (t t' : Team) (g g' : Gang) (d : BitVec 6) (a b : Opnd),
    (Acts s c t g ∧ Ample s c ∧ Shaped g ∧ TypedBy true [.f32, .f64] [g.opA a] (some d.toNat) .f64 ∧ (g.srcB b).tag = .i32 ∧
      TypedBy true [.f32, .f64] [g.opA a] none .f64 ∧ TypedBy true [.f32, .f64] [g.opA a, g.opB a] none .f64) ∧
    Acts s' c t' g' ∧ Ample s' c ∧ Shaped g' ∧ (g'.srcA a).tag = .f16x2 ∧ (g'.srcB b).tag = .bf16x2 ∧ g'.tag d.toNat = .f32 :=
  ⟨_, _, _, _, _, tGang fun r => if r < 2 then .f64 else .i32, tGang fun r => if r < 2 then .f16x2 else if r < 4 then .bf16x2 else .f32, 4, ta,
    tb, ⟨acts _, ample _, shaped _, ⟨by decide, by decide, by decide, by decide⟩, by decide, ⟨by decide, by decide, by decide, by decide⟩,
      ⟨by decide, by decide, by decide, by decide⟩⟩, acts _, ample _, shaped _, by decide, by decide, by decide⟩

theorem wit_FunctionSpecialValues : ∃ f : Fmt, f = fF32 ∨ f = fF64 := ⟨fF64, .inr rfl⟩

theorem wit_Conversions : ∃ (s s' : State) (c : Cur) (t t' : Team) (g g' : Gang) (d : BitVec 6) (a b : Opnd) (r : BitVec 3) (g4 : BitVec 4)
    (j : BitVec 2),
    (Acts s c t g ∧ Ample s c ∧ Shaped g ∧ wellFormed (.cvt d a r g4) = true ∧ (g.srcA a).tag ∈ likeTags (tagOf g4.toNat) ∧
      ((isPairTag (g.srcA a).tag = true → (g.srcA a).reg % 2 = 0 ∧ (g.srcA1 a).tag = (g.srcA a).tag) ∧
        (isPairTag (tagOf g4.toNat) = true → d.toNat % 2 = 0)) ∧
      (g.srcA a).tag = .f32 ∧ (g.srcB b).tag = .u32 ∧ g.tag d.toNat ∈ [Tag.i8x4, .u8x4, .t8x4, .t6x4]) ∧
    Acts s' c t' g' ∧ Ample s' c ∧ Shaped g' ∧ (g'.srcA a).tag ∈ [Tag.i16x2, .f16x2, .bf16x2, .i8x4, .u8x4, .t8x4, .t6x4] ∧
      j.toNat < elemCount (g'.srcA a).tag :=
  ⟨_, _, _, _, _, tGang fun r => if r < 2 then .f32 else if r < 4 then .u32 else .t8x4, tg .t6x4, 4, ta, tb, 1, 12, 3,
    ⟨acts _, ample _, shaped _, by decide, by decide, by decide, by decide, by decide, by decide⟩, acts _, ample _, shapedT _, by decide,
    by decide⟩

theorem wit_VectorMoves : ∃ (s : State) (c : Cur) (t : Team) (g : Gang) (d : BitVec 6) (bc : BitVec 5) (a : Opnd) (g4 : BitVec 4)
    (k n : BitVec 8),
    Acts s c t g ∧ Ample s c ∧ Shaped g ∧ (g.srcA a).tag ≠ .poison ∧ g.tag (wide bc).toNat ≠ .poison ∧ g.tag d.toNat ≠ .poison ∧
    wellFormed (.tagset d a g4) = true ∧ isPairTag (tagOf g4.toNat) = true ∧ (g.srcA1 a).tag = (g.srcA a).tag ∧
    wellFormed (.sprd d k n) = true :=
  ⟨_, _, _, tg .f32, 4, 31, ta, 12, 1, 5, acts _, ample _, shapedT _, by decide, by decide, by decide, by decide, by decide, by decide,
    by decide⟩

theorem wit_MovesBetweenFiles : ∃ (s : State) (c : Cur) (t : Team) (g : Gang) (d : BitVec 6) (a : Opnd) (g4 : BitVec 4) (l : BitVec 5),
    Acts s c t g ∧ Ample s c ∧ Shaped g ∧ wellFormed (.s2v d a g4) = true ∧ wellFormed (.v2s d a l true) = true ∧
    (g.srcA a).tag ≠ .poison ∧ (g.srcA1 a).tag = (g.srcA a).tag ∧ wellFormed (.setlane d a l true) = true ∧ g.tag d.toNat ≠ .poison ∧
    g.tag (d.toNat + 1) = g.tag d.toNat :=
  ⟨_, _, _, tg .i64, 4, ta, 11, 31, acts _, ample _, shapedT _, by decide, by decide, by decide, by decide, by decide, by decide, by decide⟩

theorem wit_UniformMoves : ∃ (s : State) (c : Cur) (t : Team) (g : Gang) (a : Opnd),
    Acts s c t g ∧ Ample s c ∧ Shaped g ∧ patternOk ((g.uniOp a).setWidth 16) = true :=
  ⟨_, _, _, tg .i32, ta, acts _, ample _, shapedT _, by decide⟩

theorem wit_QuotaChanges : ∃ (s : State) (c : Cur) (t : Team) (g : Gang) (n : BitVec 7) (uni : Bool),
    Acts s c t g ∧ Shaped g ∧ g.hv ≤ g.qv ∧ g.hs ≤ g.qs ∧ g.qv ≤ 64 ∧ g.qs ≤ 64 ∧ (∀ x ∈ (s.core t.core).claims, x.uni ≠ uni) ∧
    min n.toNat (64 - (if uni then g.qs else g.qv)) ≤ (if uni then (s.core t.core).poolS else (s.core t.core).poolV) ∧
    0 < min n.toNat (64 - (if uni then g.qs else g.qv)) :=
  ⟨_, _, _, { tg .i32 with qv := 32 }, 127, false, acts _, ⟨rfl, rfl, rfl, rfl, rfl, rfl, rfl⟩, by decide, by decide, by decide, by decide,
    by decide, by decide, by decide⟩

theorem wit_LaneExchanges : ∃ (i : Instr) (s : State) (c : Cur) (t : Team) (g : Gang) (d : BitVec 6) (a : Opnd) (bs : List Opnd)
    (f : Nat → Nat),
    exchangeForm g i = some (d, a, bs, f) ∧ Acts s c t g ∧ Ample s c ∧ Shaped g ∧ Readable (g.opA a) ∧
    (∀ b ∈ bs, (g.srcB b).tag = .i32 ∨ (g.srcB b).tag = .u32 ∨ (g.srcB b).tag = .none) ∧
    (isPairTag (g.srcA a).tag = true → d.toNat % 2 = 0) :=
  ⟨.shfl 4 ta tb, _, _, _, tGang fun r => if r < 2 then .f64 else .u32, 4, ta, [tb], _, rfl, acts _, ample _, shaped _,
    ⟨by decide, by decide⟩, by decide, by decide⟩

theorem wit_VotesAndMatches : ∃ (s : State) (c : Cur) (t : Team) (g : Gang) (d : BitVec 6) (a : Opnd) (p : BitVec 3) (neg w : Bool)
    (m : BitVec 8),
    Acts s c t g ∧ Ample s c ∧ Shaped g ∧ wellFormed (.vote d p neg m) = true ∧ wellFormed (.matchLanes d a w) = true ∧
    (g.srcA a).tag ≠ .poison ∧ (w = true → (g.srcA1 a).tag = (g.srcA a).tag) :=
  ⟨_, _, _, tg .f64, 4, ta, 7, true, true, 3, acts _, ample _, shapedT _, by decide, by decide, by decide, by decide⟩

/-! ### Hypotheses of the statements on control -/

def tFront (es : List Entry) : Gang := { tg .i64 with frontier := es }
def tMate (pc : Nat) (st : ESt) : Entry := { tEntry with eid := 8, mask := 0xFF00, pc := pc, st := st }

/-- A team on its own, for any state and bundle. -/
theorem issues (s : State) (g : Gang) : Issues (tOn s (tTeam g) tCur) tCur (tTeam g) g := ⟨rfl, rfl, rfl⟩

theorem wit_QuietInstructions : ∃ (s s' : State) (c : Cur) (t t' : Team) (g g' : Gang) (m : BitVec 12),
    (Issues s c t g ∧ c.mask ≠ 0 ∧ ∀ k, k < 12 → m.getLsbD k = true → g.flag k = 0) ∧
    Issues s' c t' g' ∧ ∃ k, k < 12 ∧ m.getLsbD k = true ∧ g'.flag k ≠ 0 :=
  ⟨_, _, _, _, _, tg .i32, { tg .i32 with flags := setAt (List.replicate 12 0) 11 63 }, 0xFFF, ⟨issues State.reset _, by decide, by decide⟩,
    issues State.reset _, 11, by decide⟩

theorem wit_NoActiveLaneIgnored : ∃ (s : State) (c : Cur) (t : Team) (g : Gang), Issues s c t g ∧ c.mask = 0 :=
  ⟨tOn State.reset (tTeam (tg .i32)) { tCur with mask := 0 }, _, _, tg .i32, ⟨rfl, rfl, rfl⟩, rfl⟩

theorem wit_ClauseHeaders : ∃ (s : State) (c : Cur) (t : Team) (g : Gang) (e : Entry),
    Issues s c t g ∧ g.entry? c.eid = some e ∧ g.frontier = [e] := ⟨_, _, _, tg .i32, tEntry, issues State.reset _, rfl, rfl⟩

theorem wit_HeadersMergeEntries : ∃ (s : State) (c : Cur) (t : Team) (g : Gang) (e x : Entry),
    Issues s c t g ∧ e.eid = c.eid ∧ x.eid ≠ c.eid ∧ g.frontier = [x, e] ∧ x.pc = c.pc ∧ ∃ r, x.st = .stalled r :=
  ⟨_, _, _, tFront [tMate 0x20000 (.stalled .resume), tEntry], tEntry, tMate 0x20000 (.stalled .resume), issues State.reset _, rfl, by decide,
    rfl, rfl, _, rfl⟩

/-- The state in which the very next step issues words at 0x20000, with a bundle at a given address. -/
def tCode (w : Nat) : State := tOn (State.reset.withFetchWord 32 w) (tTeam (tg .i64)) { tCur with len := 2 }

theorem wit_PredicatesABundle : ∃ (s s1 : State) (c : Cur) (t : Team) (g : Gang) (h : BitVec 16),
    Issues s c t g ∧ s.fetch t.core t.func (((s.launch? c.launch).map (·.stamp)).getD 0) ((c.pc + c.len) % 2 ^ 55) = (.half h, s1) ∧
    h.toNat % 16 ≠ 15 ∧ isPred h = false :=
  ⟨tCode 0x014200A0, ((tCode 0x014200A0).fetch 0 1 0 0x20002).2, { tCur with len := 2 }, _, tg .i64, 0x0142, ⟨rfl, rfl, rfl⟩,
    Prod.ext (by decide +kernel) (by decide +kernel), by decide, by decide⟩

theorem wit_ControlTransfers : ∃ (s : State) (c : Cur) (t : Team) (g : Gang) (e : Entry) (a : Opnd),
    Acts s c t g ∧ Ample s c ∧ Shaped g ∧ g.entry? c.eid = some e ∧ c.mask &&& ~~~ e.mask = 0 ∧ (g.srcA a).reg % 2 = 0 ∧
    (g.srcA a).tag = .i64 ∧ (g.srcA1 a).tag = (g.srcA a).tag ∧
    ∀ n, n < 32 → c.mask.getLsbD n = true → addrOk (BitVec.ofNat 64 (srcLane (g.opA a) true n)) = true ∧
      srcLane (g.opA a) true n % 2 = 0 :=
  ⟨_, _, _, tAddr fun _ => .i64, tEntry, ta, acts _, ample _, shapedA _, rfl, by decide, by decide, by decide, by decide, by decide⟩

theorem wit_Reconvergence : ∃ (s s1 s2 : State) (c : Cur) (t t1 t2 : Team) (g g1 g2 : Gang) (e x y : Entry),
    (Acts s c t g ∧ e.eid = c.eid ∧ g.frontier = [e]) ∧
    (Acts s1 c t1 g1 ∧ x.eid ≠ c.eid ∧ g1.frontier = [e, x] ∧ x.pc < c.ppc) ∧
    Acts s2 c t2 g2 ∧ y.eid ≠ c.eid ∧ g2.frontier = [e, y] ∧ y.pc = c.ppc ∧ y.st = .reconv :=
  ⟨_, _, _, _, _, _, _, tg .i64, tFront [tEntry, tMate 0x1FFFE .ready], tFront [tEntry, tMate 0x20000 .reconv], tEntry, tMate 0x1FFFE .ready,
    tMate 0x20000 .reconv, ⟨acts _, rfl, rfl⟩, ⟨acts _, by decide, rfl, by decide⟩, acts _, by decide, rfl, rfl, rfl⟩

theorem wit_StepsRegionsAndDraws : ∃ (s : State) (c : Cur) (t : Team) (g : Gang),
    Acts s c t g ∧ Ample s c ∧ Shaped g ∧ (s.func t.func).checkpoint = none ∧ (s.func t.func).recmode = none ∧ g.replay = [] ∧
    g.region.draws.length < 8 := ⟨_, _, _, tg .i32, acts _, ample _, shapedT _, rfl, rfl, rfl, by decide⟩

theorem wit_DrawsRepeat : ∃ (s : State) (c : Cur) (t : Team) (g : Gang) (v : W64) (rest : List W64),
    Acts s c t g ∧ Ample s c ∧ Shaped g ∧ g.replay = v :: rest :=
  ⟨_, _, _, { tg .i32 with replay := [5, 6] }, 5, [6], acts _, ample _, ⟨rfl, rfl, rfl, rfl, rfl, rfl, rfl⟩, rfl⟩

def tBars (b : Bar) : Team := { tTeam (tg .i32) with bars := b :: List.replicate 15 Bar.none_ }
theorem actsIn (s : State) (t : Team) (c : Cur) (h1 : t.launch = 1) (h2 : t.num = 0) (h3 : c.launch = 1 ∧ c.team = 0 ∧ c.gang = 0)
    (g : Gang) (h4 : t.gangs[0]? = some g) (h5 : c.mask ≠ 0) : Acts (tOn s t c) c t g := by
  refine ⟨⟨rfl, ?_, ?_⟩, h5⟩
  · simp [State.team?, tOn, h1, h2, h3]
  · rw [h3.2.2]; exact h4

theorem wit_BarrierSetup : ∃ (s s' : State) (c : Cur) (t t' : Team) (g : Gang) (d : BitVec 6) (a : Opnd) (b b' : Bar),
    (Acts s c t g ∧ FullTeam t ∧ t.bars[d.toNat]? = some b ∧ wellFormed (.barinit d a) = true ∧ b.set = false ∧
      0 < (g.uniOp a).toNat % 2 ^ 6 ∧ (g.uniOp a).toNat % 2 ^ 6 ≤ t.gangs.length) ∧
    Acts s' c t' g ∧ FullTeam t' ∧ t'.bars[d.toNat]? = some b' ∧ wellFormed (.barexp d a) = true ∧ b'.set = true := by
  let g : Gang := { tg .i32 with smap := setAt (tg .i32).smap 2 (some 1) }
  exact ⟨tOn State.reset { tBars Bar.none_ with gangs := [g] } tCur, tOn State.reset { tBars ⟨true, 1, 0, 0, 0, false, 0, 0⟩ with gangs := [g] } tCur,
    tCur, { tBars Bar.none_ with gangs := [g] }, { tBars ⟨true, 1, 0, 0, 0, false, 0, 0⟩ with gangs := [g] }, g, 0, tb, _, _,
    ⟨actsIn _ _ _ rfl rfl (by decide) _ rfl (by decide), ⟨rfl, rfl⟩, rfl, by decide, rfl, by decide, by decide⟩,
    actsIn _ _ _ rfl rfl (by decide) _ rfl (by decide), ⟨rfl, rfl⟩, rfl, by decide, rfl⟩

def tBar (m : Nat) : Bar := ⟨true, m, 0, 0, 0, false, 3, 0⟩

theorem wit_BarrierPhases : ∃ (s s1 s2 s3 : State) (c : Cur) (t t1 t2 t3 : Team) (g g2 g3 : Gang) (e : Entry) (d : BitVec 6) (b b1 : Bar),
    (Acts s c t g ∧ FullTeam t ∧ Shaped g ∧ t.bars[d.toNat]? = some b ∧ b.set = true ∧ 0 < b.m ∧ g.entry? c.eid = some e ∧
      e.resume = .none ∧ d.toNat < 16 ∧ (g.stq.any fun x => decide (x.seq < c.seq)) = false ∧ b.arrived.getLsbD c.gang = false ∧
      (arrived b c.gang).phase = b.phase + 1 ∧ (g.barPhase[d.toNat]?).join = none) ∧
    (Acts s1 c t1 g ∧ FullTeam t1 ∧ t1.bars[d.toNat]? = some b1 ∧ b1.set = true ∧ 0 < b1.m ∧ (arrived b1 c.gang).phase = b1.phase) ∧
    (Acts s2 c t2 g2 ∧ FullTeam t2 ∧ Shaped g2 ∧ t2.bars[d.toNat]? = some b ∧ (g2.barPhase[d.toNat]?).join = some 3 ∧ b.phase ≤ 3) ∧
    Acts s3 c t3 g3 ∧ FullTeam t3 ∧ Shaped g3 ∧ t3.bars[d.toNat]? = some b ∧ (g3.barPhase[d.toNat]?).join = some 2 ∧ 2 < b.phase := by
  let g2 : Gang := { tg .i32 with barPhase := some 3 :: List.replicate 15 none }
  let g3 : Gang := { tg .i32 with barPhase := some 2 :: List.replicate 15 none }
  exact ⟨tOn State.reset (tBars (tBar 1)) tCur, tOn State.reset (tBars (tBar 2)) tCur,
    tOn State.reset { tBars (tBar 1) with gangs := [g2] } tCur, tOn State.reset { tBars (tBar 1) with gangs := [g3] } tCur, tCur, tBars (tBar 1), tBars (tBar 2), { tBars (tBar 1) with gangs := [g2] },
    { tBars (tBar 1) with gangs := [g3] }, tg .i32, g2, g3, tEntry, 0, tBar 1, tBar 2,
    ⟨actsIn _ _ _ rfl rfl (by decide) _ rfl (by decide), ⟨rfl, rfl⟩, shapedT _, rfl, rfl, by decide, rfl, rfl, by decide, by decide, by decide,
      by decide, by decide⟩,
    ⟨actsIn _ _ _ rfl rfl (by decide) _ rfl (by decide), ⟨rfl, rfl⟩, rfl, rfl, by decide, by decide⟩,
    ⟨actsIn _ _ _ rfl rfl (by decide) _ rfl (by decide), ⟨rfl, rfl⟩, ⟨rfl, rfl, rfl, rfl, rfl, rfl, rfl⟩, rfl, rfl, by decide⟩,
    actsIn _ _ _ rfl rfl (by decide) _ rfl (by decide), ⟨rfl, rfl⟩, ⟨rfl, rfl, rfl, rfl, rfl, rfl, rfl⟩, rfl, rfl, by decide⟩

theorem wit_BarrierNotSetUp : ∃ (s : State) (c : Cur) (t : Team) (g : Gang) (d : BitVec 6),
    Acts s c t g ∧ (t.bar d.toNat).set = false ∧ (∀ e, g.entry? c.eid = some e → e.resume = .none) :=
  ⟨_, _, _, tg .i32, 15, acts _, by decide, fun e h => by cases h; rfl⟩

theorem wit_CountsAndBaton : ∃ (s s' : State) (c : Cur) (t t' : Team) (g : Gang) (d : BitVec 6) (n : BitVec 8) (v v' : Conv),
    (Acts s c t g ∧ FullTeam t ∧ t.cv[d.toNat]? = some v ∧ wellFormed (.cvset d n) = true ∧ v.signers = [] ∧ wellFormed (.cvsign d) = true ∧
      v.declared = 0 ∧ (s.core t.core).baton = .free ∧ (s.core t.core).batonQ = []) ∧
    Acts s' c t' g ∧ FullTeam t' ∧ t'.cv[d.toNat]? = some v' ∧ v'.signers.length + 1 < v'.declared ∧
      (s'.core t'.core).baton = .gang c.launch c.team c.gang := by
  let t' : Team := { tTeam (tg .i32) with cv := ⟨2, [], none⟩ :: List.replicate 7 ⟨0, [], none⟩ }
  exact ⟨_, tOn { State.reset with cores := [{ Core.reset 0 with baton := .gang 1 0 0 }] } t' tCur, _, _, t', tg .i32, 0, 2, ⟨0, [], none⟩,
    ⟨2, [], none⟩, ⟨acts _, ⟨rfl, rfl⟩, rfl, by decide, rfl, by decide, rfl, rfl, rfl⟩,
    actsIn _ _ _ rfl rfl (by decide) _ rfl (by decide), ⟨rfl, rfl⟩, rfl, by decide, rfl⟩

theorem wit_ExitEndsLanes : ∃ (s s' s2 : State) (c c' : Cur) (t t' t2 : Team) (g : Gang) (a : Opnd) (n : BitVec 8),
    (Acts s c t g ∧ g.ended = false ∧ g.ops = [] ∧ g.live &&& ~~~ c.mask ≠ 0) ∧
    (Acts s' c' t' g ∧ g.live &&& ~~~ c'.mask = 0 ∧ s'.gangBusy c'.launch c'.team c'.gang = false ∧
      (n ≠ 0 ∧ (g.uniOp a).toNat % 64 = 0 ∧ t'.sn = 0 ∧ t'.faulted = false)) ∧
    Acts s2 c' t2 g ∧ s2.gangBusy c'.launch c'.team c'.gang = false ∧ t2.sn ≠ 0 ∧ (t2.slist ≠ (g.uniOp a).toNat ∨ t2.sn ≠ n.toNat) := by
  let t2 : Team := { tTeam (tg .i32) with sn := 3 }
  exact ⟨_, tOn State.reset (tTeam (tg .i32)) { tCur with mask := 0xFF }, tOn State.reset t2 { tCur with mask := 0xFF }, _,
    { tCur with mask := 0xFF }, _, _, t2, tg .i32, tb, 4, ⟨acts _, rfl, rfl, by decide⟩,
    ⟨actsIn _ _ _ rfl rfl (by decide) _ rfl (by decide), by decide, by decide +kernel, by decide, by decide, rfl, rfl⟩,
    actsIn _ _ _ rfl rfl (by decide) _ rfl (by decide), by decide +kernel, by decide, .inr (by decide)⟩

theorem wit_TrapsStopTheTeam : ∃ (s : State) (c : Cur) (t : Team) (g : Gang) (e : Entry), Acts s c t g ∧ g.entry? c.eid = some e :=
  ⟨_, _, _, tg .i32, tEntry, acts _, rfl⟩

theorem wit_ServiceCalls : ∃ (s s' : State) (c : Cur) (t t' : Team) (g g' : Gang) (e e' : Entry) (seq : Nat) (v : W64),
    (Acts s c t g ∧ Ample s c ∧ Shaped g ∧ g.entry? c.eid = some e ∧ e.resume = .none ∧ (s.func t.func).ringRoom 2 = true) ∧
    Acts s' c t' g' ∧ Ample s' c ∧ Shaped g' ∧ g'.entry? c.eid = some e' ∧ e'.resume = .op seq ∧
      (s'.func t'.func).svcGot.find? (fun x => x.1 == seq) = some (seq, v) := by
  let e' : Entry := { tEntry with resume := .op 9 }
  let r : State := { State.reset with funcs := [{ Func.reset 1 with rings := [.reset, .reset, ⟨0x40000, 4, true, 0, 0, 0⟩] }] }
  exact ⟨tOn r (tTeam (tg .i32)) tCur, tOn { State.reset with funcs := [{ Func.reset 1 with svcGot := [(9, 77)] }] } (tTeam (tFront [e'])) tCur, _, _, _, tg .i32, tFront [e'],
    tEntry, e', 9, 77, ⟨actsIn _ _ _ rfl rfl (by decide) _ rfl (by decide), ⟨rfl, by show 256 ≤ 32768; decide, by show 256 ≤ 32768; decide, rfl⟩,
    shapedT _, rfl, rfl, by decide⟩, actsIn _ _ _ rfl rfl (by decide) _ rfl (by decide),
    ⟨rfl, by show 256 ≤ 32768; decide, by show 256 ≤ 32768; decide, rfl⟩, ⟨rfl, rfl, rfl, rfl, rfl, rfl, rfl⟩, rfl, rfl, rfl⟩

/-! ### Hypotheses of the statements on memory -/

/-- One page, REL, readable, writable and executable, at 0x20000 in the TLB of core 0, and lines of it in the cache. -/
def tTlb : TlbEntry := ⟨codeFunc, codeBase / 65536, false, codeLeaf1, 2, codeLeaf2, 2⟩
def tLine : Line := { Line.empty 1024 0 1 with data := 0x77, valid := BitVec.allOnes 128 }
def tMem (ls : List Line) : State := { State.reset with cores := [{ Core.reset 0 with tlb := [tTlb], cache := ls }] }
/-- Register 0 holds the offset 8 × lane. -/
def tOffs (T : Nat → Tag) : Gang :=
  let lo : VReg := ⟨lanes32.map fun i => BitVec.ofNat 32 (8 * i), T 0, .full⟩
  { tGang T with vmap := some lo :: (tRegs T).drop 1 }
def tTrans (a : Nat) : Trans := ⟨a, .mem a, .rel, 0⟩
def tOne : Cur := { tCur with mask := 1 }
theorem one_lane : ∀ n, n < 32 → tOne.mask.getLsbD n = true → n = 0 := by decide
theorem actsOne (s : State) (g : Gang) : Acts (tOn s (tTeam g) tOne) tOne (tTeam g) g := ⟨⟨rfl, rfl, rfl⟩, by decide⟩
theorem begins (s : State) (T : Nat → Tag) : Begins s tOne (tOffs T) tEntry :=
  ⟨rfl, rfl, rfl, (fun _ h => nomatch h), by decide⟩
theorem beginsA (s : State) (T : Nat → Tag) : Begins s tOne (tAddr T) tEntry :=
  ⟨rfl, rfl, rfl, (fun _ h => nomatch h), by decide⟩

def tLoad : State := tOn (tMem [tLine]) (tTeam (tOffs fun _ => .i32)) tOne

theorem wit_LoadsFromTheCache : ∃ (s : State) (c : Cur) (t : Team) (g : Gang) (e : Entry) (sr : BitVec 6) (w : BitVec 2) (a b : Opnd)
    (tr : Nat → Trans) (ad : Nat → Nat),
    Acts s c t g ∧ Begins s c g e ∧ g.stq = [] ∧ e.setA < 12 ∧ g.flag e.setA < 63 ∧ g.flags.length = 12 ∧
    s.loadsWaiting t.core = [] ∧ g.olderOpen c.seq c.mask = false ∧ OffsetTag (g.srcA a).tag ∧
    (∀ k : OpKind, k = .ld w ∨ k = .ldacq w → ∀ n, n < 32 → c.mask.getLsbD n = true →
      Hit s t.core t.func (c.launch, c.team) k.use (addressOf g sr a n) k.size (tr n) (ad n)) ∧
    Hit s t.core t.func (c.launch, c.team) .load ((g.uni sr.toNat) + g.uniOp b).toNat (widthBytes w.toNat) (tr 0) (ad 0) := by
  refine ⟨tLoad, tOne, _, tOffs fun _ => .i32, tEntry, 2, 1, ta, ⟨true, false, 16⟩, fun _ => tTrans 0x20000, fun _ => 0x20000, actsOne _ _,
    begins _ _, rfl, by decide, by decide, rfl, by decide, by decide, .inl rfl, ?_, ?_⟩
  · rintro k h n h1 h2
    obtain rfl := one_lane n h1 h2
    rcases h with rfl | rfl <;>
      exact ⟨by decide +kernel, by decide, by decide, by decide +kernel, by decide +kernel⟩
  · exact ⟨by decide +kernel, by decide, by decide, by decide +kernel, by decide +kernel⟩

def tElem (n : Nat) (st : ElSt) : Elem := ⟨n, 70, 0x20000 + 8 * n, st, some (tTrans 0x20000), 0, 0, 99, false⟩
def tOp (k : OpKind) (es : List Elem) : MemOp := ⟨3, 70, k, 0x20000, 0x20000, 0, 1, 4, 1, 0, 1, 2, 0, .none, es⟩
/-- A gang with an operation in flight, in the region of that operation. -/
def tFlight (o : MemOp) : Gang :=
  let g := tg .i32
  { g with ops := [o], flags := setAt g.flags 1 1, region := { g.region with num := 1 } }

theorem wit_LoadsComplete : ∃ (s s' : State) (l tn k id : Nat) (g g' : Gang) (o o' : MemOp) (w : BitVec 2) (etag : Nat) (x : Elem),
    (s.gang? l tn k = some g ∧ Shaped g ∧ g.op? id = some o ∧ o.region = g.region.num ∧ o.elems ≠ [] ∧ g.ended = false ∧ g.frontier ≠ [] ∧
      (s.core (s.coreOf l tn)).claims = [] ∧ 256 ≤ (s.core (s.coreOf l tn)).poolV ∧ 256 ≤ (s.core (s.coreOf l tn)).poolS ∧
      o.d + 3 < 64 ∧ (o.elems.map (·.lane)).Nodup ∧
      (∀ x ∈ o.elems, x.lane < 32 ∧ x.st = .done ∧ x.poison = false ∧ x.trans.map (·.etag) = some etag) ∧ o.kind = .ld w) ∧
    s'.gang? l tn k = some g' ∧ Shaped g' ∧ g'.op? id = some o' ∧ o'.region = g'.region.num ∧ o'.kind = .sld w ∧ o'.elems = [x] ∧
      x.lane < 32 ∧ x.st = .done ∧ x.poison = false ∧ x.trans.map (·.etag) = some etag :=
  ⟨tState (tFlight (tOp (.ld 2) [tElem 0 .done, tElem 31 .done])), tState (tFlight (tOp (.sld 2) [tElem 0 .done])), 1, 0, 0, 3, _, _,
    tOp (.ld 2) [tElem 0 .done, tElem 31 .done], tOp (.sld 2) [tElem 0 .done], 2, 0, tElem 0 .done,
    ⟨rfl, ⟨rfl, rfl, rfl, rfl, rfl, rfl, rfl⟩, rfl, rfl, by decide, rfl, by decide, rfl, by decide, by decide, by decide, by decide, by decide,
      rfl⟩, rfl, ⟨rfl, rfl, rfl, rfl, rfl, rfl, rfl⟩, rfl, rfl, rfl, rfl, by decide, rfl, rfl, rfl⟩

theorem wit_StoresJoinTheQueue : ∃ (s s' : State) (c : Cur) (t t' : Team) (g g' : Gang) (e : Entry) (d sr : BitVec 6) (w : BitVec 2)
    (sc : BitVec 3) (a b : Opnd) (wide : Bool) (tr : Nat → Trans),
    (Acts s c t g ∧ Begins s c g e ∧ g.stq.length < Config.stqSize ∧ (∀ n, (tr n).ty ≠ .seq) ∧ OffsetTag (g.srcA a).tag ∧
      (∀ j, j < 4 → g.tag (d.toNat + j) ≠ .poison) ∧ (∀ n, (tr n).tgt.isPeer = false) ∧
      (∀ k : StKind, k = .st (widthBytes w.toNat) ∨ k = .strel w ∨ k = .rstrel (widthBytes w.toNat) ∨ k = .rstarv (widthBytes w.toNat) →
        k.use = .store ∨ k.use = .strel →
        ∀ n, n < 32 → c.mask.getLsbD n = true → s.verdict t.core t.func k.use (addressOf g sr a n) k.size = .ok (tr n)) ∧
      s.verdict t.core t.func .store ((g.uni sr.toNat) + g.uniOp b).toNat (widthBytes w.toNat) = .ok (tr 0)) ∧
    Acts s' c t' g' ∧ Begins s' c g' e ∧ w = (if wide then 1 else 0) ∧ a.reg.toNat % 2 = 0 ∧ (g'.srcA a).tag = .i64 ∧
      (g'.srcA1 a).tag = (g'.srcA a).tag ∧ (g'.tag d.toNat ∈ if wide then [Tag.i64, .none] else [Tag.i32, .u32, .none]) ∧
      g'.tag (d.toNat + 1) = g'.tag d.toNat ∧
      (∀ n, n < 32 → c.mask.getLsbD n = true →
        s'.verdict t'.core t'.func (.atomic sc.toNat) (srcLane (g'.opA a) true n) (if wide then 8 else 4) = .ok (tr n)) := by
  refine ⟨tOn (tMem []) (tTeam (tOffs fun _ => .i32)) tOne, tOn (tMem []) (tTeam (tAddr fun _ => .i64)) tOne, tOne, _, _, tOffs fun _ => .i32,
    tAddr fun _ => .i64, tEntry, 4, 2, 1, 2, ta, ⟨true, false, 16⟩, true, fun _ => tTrans 0x20000,
    ⟨actsOne _ _, begins _ _, by decide, (fun _ => show PType.rel ≠ .seq by decide), .inl rfl, by decide, fun _ => rfl, ?_, by decide +kernel⟩, actsOne _ _, beginsA _ _, rfl,
    rfl, by decide, by decide, by decide, by decide, ?_⟩
  · rintro k h hu n h1 h2
    obtain rfl := one_lane n h1 h2
    rcases h with rfl | rfl | rfl | rfl
    · decide +kernel
    · decide +kernel
    · exact absurd hu (by decide)
    · exact absurd hu (by decide)
  · intro n h1 h2
    obtain rfl := one_lane n h1 h2
    decide +kernel

theorem wit_AtomicsAtTheHome : ∃ (s : State) (c : Cur) (t : Team) (g : Gang) (e : Entry) (d : BitVec 6) (a : Opnd) (sc : BitVec 3)
    (wide : Bool) (n ad : Nat) (tr : Trans),
    Acts s c t g ∧ Begins s c g e ∧ g.stq = [] ∧ g.ops = [] ∧ e.setA < 12 ∧ g.flag e.setA < 63 ∧ g.flags.length = 12 ∧
    n < 32 ∧ c.mask = 1#32 <<< n ∧ 2 ≤ sc.toNat ∧ sc.toNat ≤ 4 ∧ (s.func t.func).recmode = none ∧
    a.reg.toNat % 2 = 0 ∧ (g.srcA a).tag = .i64 ∧ (g.srcA1 a).tag = (g.srcA a).tag ∧
    s.verdict t.core t.func (.atomic sc.toNat) (srcLane (g.opA a) true n) (if wide then 8 else 4) = .ok tr ∧ tr.tgt = .mem ad ∧
    tr.ty = .rel ∧ Roomy s ∧ ad % 8 = 0 ∧ findLine (s.core t.core).cache (ad / 128) = none ∧ s.homePoison (ad / 32) = false ∧
    (∀ f ∈ s.flips, f.1 ≠ ad / 32) ∧
    g.tag d.toNat ∈ (if wide then [Tag.i64, .none] else [Tag.i32, .u32, .none]) ∧ (∀ j, j < 4 → g.tag (d.toNat + j) = g.tag d.toNat) ∧
    g.tag d.toNat ≠ .poison :=
  ⟨tOn (tMem []) (tTeam (tAddr fun _ => .i64)) tOne, tOne, _, tAddr fun _ => .i64, tEntry, 4, ta, 4, true, 0, 0x20000, tTrans 0x20000,
    actsOne _ _, beginsA _ _, rfl, rfl, by decide, by decide, rfl, by decide, by decide, by decide, by decide, rfl, rfl, by decide, by decide,
    by decide +kernel, rfl, rfl, roomy _ rfl rfl, rfl, rfl, rfl, (fun _ h => nomatch h), by decide, by decide, by decide⟩

theorem wit_CacheMaintenance : ∃ (s : State) (c : Cur) (t : Team) (g : Gang) (e : Entry) (sr : BitVec 6) (a : Opnd) (n ad : Nat) (tr : Trans)
    (ln : Line),
    Acts s c t g ∧ Begins s c g e ∧ OffsetTag (g.srcA a).tag ∧ g.ops = [] ∧ n < 32 ∧ c.mask = 1#32 <<< n ∧
    s.verdict t.core t.func .maint (addressOf g sr a n) 1 = .ok tr ∧ tr.tgt = .mem ad ∧
    tr.ty ≠ .seq ∧ Roomy s ∧ findLine (s.core t.core).cache (ad / 128) = some ln ∧ ln.addr = ad / 128 ∧ (∀ f ∈ s.flips, f.1 / 4 ≠ ad / 128) :=
  ⟨tOn (tMem [{ tLine with dirty := 0xFF }]) (tTeam (tOffs fun _ => .i32)) tOne, tOne, _, tOffs fun _ => .i32, tEntry, 2, ta, 0, 0x20000,
    tTrans 0x20000, { tLine with dirty := 0xFF }, actsOne _ _, begins _ _, .inl rfl, rfl, by decide, by decide, by decide +kernel, rfl,
    (show PType.rel ≠ .seq by decide), roomy _ rfl rfl, rfl, rfl, (fun _ h => nomatch h)⟩

theorem wit_Fences : ∃ (s s' : State) (c : Cur) (t : Team) (g : Gang) (e : Entry) (sc : BitVec 3) (k : BitVec 2),
    (Acts s c t g ∧ g.entry? c.eid = some e ∧ e.progress = 0 ∧ g.ops = [] ∧ g.stq = [] ∧ wellFormed (.fence sc k) = true ∧ sc.toNat ≤ 4 ∧
      s.fabricOpen c.launch c.team c.gang = false ∧ (s.core t.core).markers.length < Config.markerMax ∧ (s.core t.core).fifo = []) ∧
    Acts s' c t g ∧ s'.fabricOpen c.launch c.team c.gang = false ∧ (s'.core t.core).markers.length < Config.markerMax ∧
      (s'.core t.core).fifo ≠ [] ∧ k ≠ 1 ∧ 2 ≤ sc.toNat :=
  ⟨tOn (tMem []) (tTeam (tg .i32)) tOne, tOn { State.reset with cores := [{ Core.reset 0 with fifo := [⟨1024, 0⟩] }] } (tTeam (tg .i32)) tOne,
    tOne, _, tg .i32, tEntry, 4, 0, ⟨actsOne _ _, rfl, rfl, rfl, rfl, by decide, by decide, by decide +kernel, by decide, rfl⟩, actsOne _ _,
    by decide +kernel, by decide, by decide, by decide, by decide⟩

theorem wit_TranslationFences : ∃ (s s' : State) (c : Cur) (t t' : Team) (g g' : Gang) (e e' : Entry) (f : TFence),
    (Acts s c t g ∧ g.entry? c.eid = some e ∧ g.stq = [] ∧ (s.core t.core).markers.length < Config.markerMax ∧ (s.core t.core).fifo = [] ∧
      e.resume = .none ∧ e.progress = 0 ∧ s.fabricOpen c.launch c.team c.gang = false) ∧
    Acts s' c t' g' ∧ g'.entry? c.eid = some e' ∧ e'.resume = .op f.id ∧ s'.tfences.find? (fun x => x.id == f.id) = some f ∧
      s'.fenceOpen f = false ∧ f.cores = [] := by
  let e' : Entry := { tEntry with resume := .op 9 }
  let f : TFence := ⟨9, none, [], [], [], [], [], none⟩
  exact ⟨tOn (tMem []) (tTeam (tg .i32)) tOne, tOn { tMem [] with tfences := [f] } (tTeam (tFront [e'])) tOne, tOne, _, _, tg .i32, tFront [e'],
    tEntry, e', f, ⟨actsOne _ _, rfl, rfl, by decide, rfl, rfl, rfl, by decide +kernel⟩, actsOne _ _, rfl, rfl, rfl,
    by decide +kernel, rfl⟩

/-! ### Hypotheses of the statements on tiles -/

/-- Tile registers 0 to 3: 8 rows of 64 bytes in tile 1 of WB, of AB and of SB, and 4 rows of 8 words of I32 in AB. -/
def tDesc (buf tag rows cols pitch : Nat) : BitVec 128 :=
  BitVec.ofNat 128 (buf + 2 ^ 8 + rows * 2 ^ 16 + cols * 2 ^ 32 + tag * 2 ^ 48 + pitch * 2 ^ 64)
def tTiled (T : Nat → Tag) : Gang :=
  { tOffs T with tregs := [tDesc 0 5 8 64 64, tDesc 1 5 8 64 64, tDesc 3 5 8 64 64, tDesc 1 1 4 8 32] ++ List.replicate 12 0 }
/-- Tile 1 of WB is armed and EMPTY. -/
def tEmptyTile : State := { State.reset with cores := [{ Core.reset 0 with wb := ⟨[], [], [(1, ⟨false, true, false, 64, 1⟩)]⟩ }] }
theorem actsAll (s : State) (g : Gang) : Acts (tOn s (tTeam g) tCur) tCur (tTeam g) g := ⟨⟨rfl, rfl, rfl⟩, by decide⟩
theorem shapedTiled (T : Nat → Tag) : Shaped (tTiled T) := ⟨rfl, rfl, rfl, rfl, rfl, rfl, rfl⟩
theorem tDescs : ∀ k, k < 4 → (descOf ((tTiled fun _ => .u32).treg k)).sib = false ∧
    (descOf ((tTiled fun _ => .u32).treg k)).last < (tTeam (tTiled fun _ => .u32)).tilesIn (descOf ((tTiled fun _ => .u32).treg k)).buf := by
  decide +kernel
theorem onTiles (s : State) (k : Nat) (h : k < 4) :
    OnTiles (tOn s (tTeam (tTiled fun _ => .u32)) tCur) tCur (tTeam (tTiled fun _ => .u32)) (tTiled fun _ => .u32) k
      (descOf ((tTiled fun _ => .u32).treg k)) :=
  ⟨actsAll _ _, rfl, rfl, by show k < 16; omega, rfl, (tDescs k h).1, (tDescs k h).2⟩
theorem tOffs_val : ∀ i, i < 32 → ((tTiled fun _ => .u32).srcA ta).val i = 8 * i := by decide +kernel
theorem buffersOk_cores (s : State) (t : Team) (c : Cur) (h : s.cores = []) : (tOn s t c).buffersOk := by
  intro k b
  simp only [State.core, tOn, h, List.find?_nil, Option.getD_none]
  cases b <;> rfl

theorem wit_TileLoads : ∃ (s : State) (c : Cur) (t : Team) (g : Gang) (d : BitVec 6) (k k' f : BitVec 4) (a : Opnd) (x x' : Desc),
    OnTiles s c t g k.toNat x ∧ Ample s c ∧ Shaped g ∧ d.toNat + 3 < 64 ∧ ((s.core t.core).buf x.buf).poison = [] ∧ x.buf = .wb ∧
    LanesInside s c t g x a (widthBytes f.toNat) true ∧ OnTiles s c t g k'.toNat x' ∧ ((s.core t.core).buf x'.buf).poison = [] ∧
    x'.buf = .sb ∧ LanesInside s c t g x' a 2 true :=
  ⟨_, tCur, _, tTiled fun _ => .u32, 4, 0, 2, 1, ta, _, _, onTiles State.reset 0 (by decide), ample _, shapedTiled _, by decide, rfl, rfl,
    ⟨.inr (.inl rfl), by decide +kernel⟩, onTiles State.reset 2 (by decide), rfl, rfl, ⟨.inr (.inl rfl), by decide +kernel⟩⟩

theorem wit_TileStores : ∃ (s : State) (c : Cur) (t : Team) (g : Gang) (d : BitVec 6) (k f : BitVec 4) (a : Opnd) (x : Desc),
    s.buffersOk ∧ OnTiles s c t g k.toNat x ∧ x.buf = .ab ∧ LanesInside s c t g x a (widthBytes f.toNat) false ∧
    (∀ j, j < widthRegs f.toNat → g.tag (d.toNat + j) ≠ .poison) ∧
    (∀ i, i < 32 → ∀ j, j < 32 → i ≠ j → c.mask.getLsbD i = true → c.mask.getLsbD j = true → (g.srcA a).val i ≠ (g.srcA a).val j) :=
  ⟨_, tCur, _, tTiled fun _ => .u32, 4, 1, 1, ta, _, buffersOk_cores State.reset _ _ rfl, onTiles State.reset 1 (by decide), rfl,
    ⟨.inr (.inl rfl), by decide +kernel⟩, by decide, fun i h1 j h2 h _ _ h3 => by rw [tOffs_val i h1, tOffs_val j h2] at h3; omega⟩

theorem wit_PresenceControl : ∃ (s s' : State) (c : Cur) (t : Team) (g : Gang) (k : BitVec 4) (x : Desc),
    (OnTiles s c t g k.toNat x ∧ Ample s c ∧ Shaped g ∧ 0 < x.extent ∧ ∀ n ∈ x.set, s.tileEmpty t.core x.buf (x.tile t n) = false) ∧
    OnTiles s' c t g k.toNat x ∧ s'.tileEmpty t.core x.buf (x.tile t 1) = true ∧ 1 ∈ x.set ∧
      (∀ m ∈ x.set, m < 1 → s'.tileEmpty t.core x.buf (x.tile t m) = false) ∧ s'.waiters t.core < Config.waitTable :=
  ⟨_, _, tCur, _, tTiled fun _ => .u32, 0, _, ⟨onTiles State.reset 0 (by decide), ample _, shapedTiled _, by decide, by decide⟩,
    onTiles tEmptyTile 0 (by decide), by decide, by decide, by decide, by decide⟩

theorem wit_TileFills : ∃ (s : State) (c : Cur) (t : Team) (g : Gang) (k : BitVec 4) (d : BitVec 6) (a : Opnd) (x : Desc),
    Acts s c t g ∧ g.resumeOf c.eid = none ∧ g.acquiring c.seq = false ∧ Shaped g ∧ wellFormed (.tdef d a) = true ∧ d.toNat < t.tiles ∧
    d.toNat < 16 ∧ badDesc (g.uni (a.reg.toNat + 1) ++ g.uniOp a) = false ∧ s.buffersOk ∧ OnTiles s c t g k.toNat x ∧ x.buf = .ab ∧
    x.cols * elemSize x.tag ≤ x.pitch ∧ 0 < x.rows := by
  let g : Gang := { tTiled fun _ => .u32 with smap := setAt (setAt (tTiled fun _ => .u32).smap 2 (some 0x0005000800040100)) 3 (some 64) }
  refine ⟨tOn State.reset (tTeam g) tCur, tCur, tTeam g, g, 3, 15, tb, descOf (g.treg 3), ⟨⟨rfl, rfl, rfl⟩, by decide⟩, rfl, rfl,
    ⟨rfl, rfl, rfl, rfl, rfl, rfl, rfl⟩, by decide, by decide, by decide, by decide, buffersOk_cores State.reset _ _ rfl,
    ⟨⟨⟨rfl, rfl, rfl⟩, by decide⟩, rfl, rfl, by decide, rfl, by decide, by decide⟩, by decide, by decide, by decide⟩

/-! ### Hypotheses of the statements on copies -/

/-- Four elements of four bytes from AB to memory at 0x20000. -/
def tWords : List W64 := [0x4020000, 0, 0x20000, 0x0001000001000004, 0, 0, 0, 0x900000000]
def tCopier : Gang := { tg .i64 with smap := (tWords.map some) ++ List.replicate 56 none }
theorem okOf {x : Option (Except Flt Trans)} {t : Trans} (h : (match x with | some (.ok y) => decide (y = t) | _ => false) = true) :
    x = some (.ok t) := by
  match x, h with
  | some (.ok y), h => rw [of_decide_eq_true h]

theorem wit_CopiesBegin : ∃ (i : Instr) (s : State) (c : Cur) (t : Team) (g : Gang) (e : Entry) (r : BitVec 6) (b : BitVec 5) (o : Bool),
    Acts s c t g ∧ g.acquiring c.seq = false ∧ g.entry? c.eid = some e ∧ e.setB < 12 ∧ g.flag e.setB < 63 ∧ g.flags.length = 12 ∧
    copyForm i (cdescOf (descWords g r)) r b o ∧ s.checkDesc (some t) (descWords g r) = none ∧
    (cdescOf (descWords g r)).seq s t.core t.func = false ∧ (b.toNat < 16 → (t.bar b.toNat).set = true) ∧
    (s.core t.core).copies.length < 16 ∧ (s.core t.core).locks.length + ((cdescOf (descWords g r)).locks 0 0).length ≤ 64 ∧
    ∀ why, s.ahead t.core c.seq why = 0 :=
  ⟨.cpy 0 16 true, _, _, _, tCopier, tEntry, 0, 16, true, actsAll (tMem []) _, rfl, rfl, by decide, by decide, rfl,
    .inl ⟨rfl, by decide +kernel, by decide +kernel⟩, by decide +kernel, by decide +kernel, by decide, by decide, by decide +kernel,
    fun _ => rfl⟩

def tChunk (phase : Nat) (st : ChunkSt) : Chunk := ⟨0, 1, phase, st, 0, 0x1234, false⟩
def tCopy (y : Chunk) : Copy := ⟨5, .gang 1 0 0, tWords, 0x20000, 0, 0xF, 2, 16, false, 0, false, none, [y], []⟩
def tCopying (y : Chunk) : State :=
  tOn { State.reset with cores := [{ Core.reset 0 with tlb := [tTlb], copies := [tCopy y] }] } (tTeam (tg .i32)) tCur

theorem wit_CopyElements : ∃ (s s' : State) (core id k l tn gi : Nat) (t : Team) (x x' : Copy) (y y' : Chunk) (tr : Trans) (a : Nat),
    (s.copy? core id = some x ∧ x.store = none ∧ x.owner = .gang l tn gi ∧ s.team? l tn = some t ∧ t.core = core ∧ x.waitSeq = 0 ∧
      x.sectors = [] ∧ x.chunks[k]? = some y ∧ y.st = .running ∧ (cdescOf x.words).ragged = 0 ∧ (cdescOf x.words).size ≤ 16 ∧ (cdescOf x.words).e0 ≠ 0 ∧ (cdescOf x.words).e1 ≠ 0 ∧
      y.phase = 1 ∧ (cdescOf x.words).skind = 2 ∧ 0 ≤ (cdescOf x.words).srcAt y.next 0 ∧
      (cdescOf x.words).srcAt y.next 0 + (cdescOf x.words).size ≤ t.abTiles * 4096 ∧
      (t.abBase * 4096 + ((cdescOf x.words).srcAt y.next y.row).toNat) % (cdescOf x.words).size = 0 ∧
      s.tileEmpty core .ab ((t.abBase * 4096 + ((cdescOf x.words).srcAt y.next y.row).toNat) / 4096) = false) ∧
    s'.copy? core id = some x' ∧ x'.store = none ∧ x'.owner = .gang l tn gi ∧ s'.team? l tn = some t ∧ x'.waitSeq = 0 ∧ x'.sectors = [] ∧
      x'.chunks[k]? = some y' ∧ y'.st = .idle ∧ y'.phase = 2 ∧ (cdescOf x'.words).dkind = 0 ∧ (cdescOf x'.words).red = 0 ∧
      (cdescOf x'.words).ragged = 0 ∧ (cdescOf x'.words).e0 ≠ 0 ∧ (cdescOf x'.words).e1 ≠ 0 ∧ Roomy s' ∧
      s'.copyCheck core t.func ((cdescOf x'.words).dstAt y'.next % 2 ^ 64).toNat (cdescOf x'.words).size true false true = some (.ok tr) ∧
      tr.tgt = .mem a ∧ a % (cdescOf x'.words).size = 0 ∧ (cdescOf x'.words).size ≤ 16 :=
  ⟨tCopying (tChunk 1 .running), tCopying (tChunk 2 .idle), 0, 5, 0, 1, 0, 0, _, tCopy (tChunk 1 .running), tCopy (tChunk 2 .idle),
    tChunk 1 .running, tChunk 2 .idle, tTrans 0x20000, 0x20000,
    ⟨rfl, rfl, rfl, rfl, rfl, rfl, rfl, rfl, rfl, by decide +kernel, by decide +kernel, by decide +kernel, by decide +kernel, rfl,
      by decide +kernel, by decide +kernel, by decide +kernel, by decide +kernel, by decide +kernel⟩,
    rfl, rfl, rfl, rfl, rfl, rfl, rfl, rfl, rfl, by decide +kernel, by decide +kernel, by decide +kernel, by decide +kernel, by decide +kernel,
    roomy _ rfl rfl, okOf (by decide +kernel), rfl, by decide +kernel,
    by decide +kernel⟩

def tLane (n : Nat) (st : ElSt) : CpytLane := ⟨n, 32 * n, 32, 0x20000, st, 32, 0xABCD, false⟩
def tCpyt (ls : List CpytLane) : Cpyt := ⟨6, 1, 0, 0, 3, 2, 0x20000, 0, 0, false, ls⟩

theorem wit_CopiesComplete : ∃ (s : State) (core id id' l tn gi : Nat) (g : Gang) (x : Copy) (x' : Cpyt),
    s.gang? l tn gi = some g ∧ g.frontier ≠ [] ∧ g.ended = false ∧ s.copy? core id = some x ∧ x.owner = .gang l tn gi ∧
    (∀ y ∈ x.chunks, y.st = .done ∨ y.st = .fault) ∧ s.cpyt? core id' = some x' ∧ x'.launch = l ∧ x'.team = tn ∧ x'.gang = gi ∧
    (∀ y ∈ x'.lanes, y.st = .done ∨ y.st = .ended) :=
  ⟨tOn { State.reset with cores := [{ Core.reset 0 with copies := [tCopy (tChunk 1 .done)], cpyts := [tCpyt [tLane 0 .done, tLane 31 .ended]] }] }
      (tTeam (tg .i32)) tCur, 0, 5, 6, 1, 0, 0, tg .i32, tCopy (tChunk 1 .done), tCpyt [tLane 0 .done, tLane 31 .ended],
    rfl, by decide, rfl, rfl, rfl, by decide, rfl, rfl, rfl, rfl, by decide⟩

/-- Register 4 holds 32 × lane and register 6 zero in lane 0, 32 elsewhere. -/
def tRows : Gang :=
  let off : VReg := ⟨lanes32.map fun i => BitVec.ofNat 32 (32 * i), .u32, .full⟩
  let num : VReg := ⟨lanes32.map fun i => if i = 0 then 0 else 32, .none, .full⟩
  let adr : VReg := ⟨lanes32.map fun i => BitVec.ofNat 32 (0x20000 + 32 * i), .i64, .full⟩
  let hi : VReg := ⟨lanes32.map fun _ => 0, .i64, .full⟩
  { tg .u32 with vmap := setAt (setAt (setAt (setAt (tg .u32).vmap 0 (some adr)) 1 (some hi)) 4 (some off)) 6 (some num) }

theorem wit_TileRowCopies : ∃ (s : State) (c : Cur) (t : Team) (g : Gang) (e : Entry) (o : BitVec 6) (a : Opnd) (n : BitVec 5) (k : BitVec 3),
    Acts s c t g ∧ g.acquiring c.seq = false ∧ g.entry? c.eid = some e ∧ e.setB < 12 ∧ g.flag e.setB < 63 ∧ Shaped g ∧
    (g.srcA a).tag = .i64 ∧ (g.srcA1 a).tag = (g.srcA a).tag ∧ OffsetTag (g.tag o.toNat) ∧ OffsetTag (g.tag n.toNat) ∧
    g.ctags.getD k.toNat 0 < 255 ∧ (s.core t.core).cpyts = [] ∧ (s.core t.core).locks.length < 64 ∧
    (∀ why, s.ahead t.core c.seq why = 0) ∧ (∀ x ∈ g.frontier, x.st ≠ .stalled .cpytRecord) ∧
    (∀ i, i < 32 → c.mask.getLsbD i = true → (g.srcD o.toNat).val i % 32 = 0 ∧ (g.srcD o.toNat).val i + 32 ≤ t.abTiles * 4096 ∧
      ((g.srcD n.toNat).val i = 0 ∨ (srcLane (g.opA a) true i % 32 = 0 ∧
        s.touchesSeq t.core t.func .read (srcLane (g.opA a) true i, srcLane (g.opA a) true i) = false))) :=
  ⟨_, _, _, tRows, tEntry, 4, ta, 6, 7, actsAll (tMem []) _, rfl, rfl, by decide, by decide, ⟨rfl, rfl, rfl, rfl, rfl, rfl, rfl⟩, by decide,
    by decide, .inr (.inl rfl), .inr (.inr rfl), by decide, rfl, by decide, (fun _ => rfl), by decide, by decide +kernel⟩

theorem wit_TileRowLands : ∃ (s : State) (core id : Nat) (t : Team) (x : Cpyt) (y : CpytLane),
    s.buffersOk ∧ s.copy? core id = none ∧ s.cpyt? core id = some x ∧ s.team? x.launch x.team = some t ∧ x.waitSeq = 0 ∧ y ∈ x.lanes ∧
    y.st = .pending ∧ (x.lanes.map (·.lane)).Nodup ∧ y.valid ≤ y.got ∧ y.off % 32 = 0 ∧ y.poison = false := by
  refine ⟨tOn { State.reset with cores := [{ Core.reset 0 with cpyts := [tCpyt [tLane 0 .done, tLane 31 .pending]] }] } (tTeam (tg .i32)) tCur, 0, 6,
    tTeam (tg .i32), tCpyt [tLane 0 .done, tLane 31 .pending], tLane 31 .pending, ?_, rfl, rfl, rfl, rfl, by decide, rfl, by decide, by decide,
    by decide, rfl⟩
  intro k b
  by_cases h : k = 0
  · subst h; cases b <;> rfl
  · have : ¬ (0 == k) = true := by simpa using fun e => h e.symm
    simp only [State.core, tOn, List.find?_cons, Core.reset, List.find?_nil]
    cases b <;> simp [Core.buf, this, BufState.reset] <;> rfl

theorem wit_CopyControl : ∃ (s s' : State) (c : Cur) (t : Team) (g : Gang) (m : BitVec 8) (x : Copy) (rest : List Copy),
    (Acts s c t g ∧ Ample s c ∧ Shaped g ∧ (∀ k, k < 8 → m.getLsbD k = true → g.ctags.getD k 0 = 0) ∧
      ((s.core t.core).copies.filter fun x => x.owner == .gang c.launch c.team c.gang) = x :: rest ∧
      (∀ x ∈ (s.core t.core).copies, ∀ y ∈ (s.core t.core).copies, x.id = y.id → x = y)) ∧
    Acts s' c t g ∧ ((s'.core t.core).copies.filter fun x => x.owner == .gang c.launch c.team c.gang) = [] :=
  ⟨tOn { State.reset with cores := [{ Core.reset 0 with copies := [tCopy (tChunk 1 .done), { tCopy (tChunk 1 .idle) with id := 9 }] }] }
      (tTeam (tg .i32)) tCur, tState (tg .i32), tCur, _, tg .i32, 0xFF, tCopy (tChunk 1 .done), [{ tCopy (tChunk 1 .idle) with id := 9 }],
    ⟨actsAll _ _, ⟨rfl, by show 256 ≤ 32768; decide, by show 256 ≤ 32768; decide, rfl⟩, shapedT _, by decide, rfl, by decide⟩, acts _, rfl⟩

/-- A queue of two slots at 0x21000, its header at 0x20000: ring, slots, priority, write and read index 3. -/
def tQueue : State :=
  { tMem [] with mem := cellPut [] 0x20000 (leBytes 0x21000 8 ++ leBytes 2 4 ++ leBytes 0 4 ++ leBytes 3 8 ++ leBytes 3 8) }

theorem wit_QueuePacketsWritten : ∃ (s : State) (c : Cur) (t : Team) (g : Gang) (e : Entry) (a : Opnd) (sc : BitVec 3) (h sl : Nat)
    (tw th ts : Trans) (hdr ring slots w rd slot : Nat),
    Acts s c t g ∧ g.acquiring c.seq = false ∧ g.entry? c.eid = some e ∧ e.resume = .none ∧ e.progress = 0 ∧ g.stq = [] ∧
    2 ≤ sc.toNat ∧ sc.toNat ≤ 3 ∧ (s.core t.core).cache = [] ∧ (s.core t.core).fifo = [] ∧ (s.core t.core).markers.length < Config.markerMax ∧
    s.flips = [] ∧ s.poison = [] ∧ s.home = [] ∧ s.stack = [] ∧ s.reds = [] ∧
    (s.core t.core).locks = [] ∧ s.fabricOpen c.launch c.team c.gang = false ∧ hdr = (g.uniOp a).toNat ∧ ring = leNat (s.homeRead h 8) ∧
    slots = leNat (s.homeRead (h + 8) 4) ∧ w = leNat (s.homeRead (h + 16) 8) ∧ rd = leNat (s.homeRead (h + 24) 8) ∧
    slot = (ring + 64 * (w % slots)) % 2 ^ 64 ∧ hdr % 64 = 0 ∧ addrOk (BitVec.ofNat 64 (hdr + 16)) = true ∧
    addrOk (BitVec.ofNat 64 hdr) = true ∧ addrOk (BitVec.ofNat 64 slot) = true ∧ hdr + 64 ≤ 2 ^ 64 ∧ slot % 64 = 0 ∧ h % 64 = 0 ∧
    sl % 64 = 0 ∧ h + 64 ≤ sl ∧ rd ≤ w ∧ w - rd < slots ∧
    s.lookup t.core t.func ((hdr + 16) % 2 ^ 55) .rw .atomic = some (.ok tw) ∧ tw.tgt = .mem (h + 16) ∧ tw.ty = .rel ∧
    s.lookup t.core t.func (hdr % 2 ^ 55) .read (.thread 8) = some (.ok th) ∧ th.tgt = .mem h ∧ th.ty = .rel ∧
    s.lookup t.core t.func (slot % 2 ^ 55) .write (.thread 8) = some (.ok ts) ∧ ts.tgt = .mem sl ∧ ts.ty = .rel :=
  ⟨_, _, _, tg .i32, tEntry, tb, 3, 0x20000, 0x21040, tTrans 0x20010, tTrans 0x20000, tTrans 0x21040, 0x20000, 0x21000, 2, 3, 3, 0x21040,
    actsAll tQueue _, rfl, rfl, rfl, rfl, rfl, by decide, by decide, rfl, rfl, by decide, rfl, rfl, rfl, rfl, rfl, rfl,
    by decide +kernel, by decide, by decide +kernel, by decide +kernel, by decide +kernel, by decide +kernel, by decide, by decide, by decide +kernel, by decide +kernel,
    by decide +kernel, by decide, by decide, by decide, by decide, by decide, by decide, by decide, okOf (by decide +kernel), rfl, rfl,
    okOf (by decide +kernel), rfl, rfl, okOf (by decide +kernel), rfl, rfl⟩

/-! ### Hypotheses of the statements on the matrix engine -/

def tSign (w : W32) : Signer := ⟨0, 2, true, w, 0x20000⟩
/-- MMA acc1, cv0, t1, t0, initialising, and its word. -/
def tMma : Instr := .mma 1 0 1 0 1
def tMmaWord : W32 := BitVec.ofNat 32 (encodeWord tMma)
def tEng (begun : Bool) (p : Nat) : MatOp :=
  ⟨30, 1, 0, tMmaWord, 0, tDesc 1 5 8 64 64, tDesc 0 5 8 64 64, 0, 0, [], 0, [tSign tMmaWord], p, begun, begun, none⟩
def tTeamM (v : Conv) (mbase mfmt : W64) : Team :=
  { tTeam (tTiled fun _ => .u32) with cv := v :: List.replicate 7 ⟨0, [], none⟩, mbase := mbase, mfmt := mfmt }
def tEngine (l : List MatOp) : State := { State.reset with cores := [{ Core.reset 0 with engine := l }] }

theorem actsM (s : State) (v : Conv) (x y : W64) : Acts (tOn s (tTeamM v x y) tCur) tCur (tTeamM v x y) (tTiled fun _ => .u32) :=
  actsIn _ _ _ rfl rfl (by decide) _ rfl (by decide)

theorem wit_MatrixSignatures : ∃ (i : Instr) (s s' : State) (c : Cur) (t t' : Team) (g : Gang) (e : Entry) (k cc : BitVec 3) (a b : BitVec 4)
    (ix : Option (BitVec 6)) (v v' : Conv) (w : W32) (o : MatOp),
    (matrixForm i = some (k, cc, a, b, ix) ∧ wellFormed i = true ∧ Acts s c t g ∧ FullTeam t ∧ g.entry? c.eid = some e ∧ e.setB < 12 ∧
      g.flag e.setB < 63 ∧ g.flags.length = 12 ∧ k.toNat < t.acc ∧ a.toNat < t.tiles ∧ b.toNat < t.tiles ∧ t.cv[cc.toNat]? = some v ∧
      w = BitVec.ofNat 32 (encodeWord i) ∧ (∀ y ∈ v.signers, y.matrix = true → y.word = w) ∧ v.signers.length + 1 < v.declared) ∧
    Acts s' c t' g ∧ FullTeam t' ∧ k.toNat < t'.acc ∧ a.toNat < t'.tiles ∧ b.toNat < t'.tiles ∧ t'.cv[cc.toNat]? = some v' ∧
      (∀ y ∈ v'.signers, y.matrix = true → y.word = w) ∧ v'.declared ≤ v'.signers.length + 1 ∧ (s'.core t'.core).engine.length < 16 ∧
      o = ⟨s'.fresh, c.launch, c.team, w, g.idx, g.treg a.toNat, g.treg b.toNat, g.treg (t'.mscale.toNat % 16),
        g.treg (t'.mscale.toNat / 16 % 16), (Claims.captured g w ix).idx, t'.mscale, v'.signers ++ [⟨c.gang, e.setB, true, w, c.pc⟩], 0, false,
        false, none⟩ ∧ s'.matCheck t' o (Claims.captured g w ix).ixTags = none ∧ ∀ n, n < 1 → t'.gangs[n]?.map (·.idx) = some n :=
  ⟨tMma, _, _, tCur, _, _, tTiled fun _ => .u32, tEntry, 1, 0, 1, 0, none, ⟨3, [tSign tMmaWord], none⟩, ⟨1, [], none⟩, tMmaWord, _,
    ⟨rfl, by decide, actsM State.reset ⟨3, [tSign tMmaWord], none⟩ 0 0, ⟨rfl, rfl⟩, rfl, by decide, by decide, rfl, by decide, by decide,
      by decide, rfl, rfl, by decide +kernel, by decide⟩,
    actsM State.reset ⟨1, [], none⟩ 0 0, ⟨rfl, rfl⟩, by decide, by decide, by decide, rfl, by decide, by decide, by decide, rfl,
    by decide +kernel, by decide⟩

theorem wit_AccumulatorAccess : ∃ (s : State) (c : Cur) (t : Team) (g : Gang) (d : BitVec 6) (k : BitVec 3) (f : BitVec 4) (a : Opnd)
    (m : BitVec 2) (w : BitVec 3),
    s.buffersOk ∧ Acts s c t g ∧ Ample s c ∧ Shaped g ∧ k.toNat < t.acc ∧ d.toNat + 3 < 64 ∧ f.toNat ≤ 2 ∧
    s.accBusy t k.toNat true = false ∧
    wellFormed (.mzero k m) = true ∧ OffsetTag (g.srcA a).tag ∧
    (∀ i, i < 32 → c.mask.getLsbD i = true → (g.srcA a).val i + widthRegs f.toNat ≤ 128 * 128 ∧ (f = 2 → (g.srcA a).val i % 4 = 0)) ∧
    (∀ i, i < 32 → (g.srcA a).val i ≤ 16382) ∧ ((s.core t.core).buf .cb).poison = [] ∧
    s.tileEmpty t.core .cb (t.accBase + k.toNat) = false ∧
    (∀ j, j < widthRegs f.toNat → g.tag (d.toNat + j) = (if t.accInt k.toNat then Tag.i32 else Tag.f32) ∨ g.tag (d.toNat + j) = .none) ∧
    (∀ i j, i < 32 → j < 32 → i ≠ j → c.mask.getLsbD i = true → c.mask.getLsbD j = true →
      (g.srcA a).val i + widthRegs f.toNat ≤ (g.srcA a).val j ∨ (g.srcA a).val j + widthRegs f.toNat ≤ (g.srcA a).val i) ∧
    wellFormed (.mprogWrite tb w) = true ∧ (w = 0 → mscaleOk (g.uniOp tb) = true) ∧ (w = 2 → mfmtOk (g.uniOp tb) = true) ∧
    wellFormed (.mprogRead d w) = true := by
  have hv : ∀ i, i < 32 → ((tOffs fun _ => .none).srcA ta).val i = 8 * i := by decide +kernel
  exact ⟨tOn State.reset (tTeam (tOffs fun _ => .none)) tCur, tCur, _, tOffs fun _ => .none, 4, 7, 1, ta, 0, 1, buffersOk_cores State.reset _ _ rfl,
    actsAll _ _, ample _, ⟨rfl, rfl, rfl, rfl, rfl, rfl, rfl⟩, by decide, by decide, by decide, by decide +kernel, by decide, .inr (.inr rfl),
    by decide +kernel, by decide +kernel, rfl, by decide, by decide +kernel,
    fun i j h1 h2 h _ _ => by rw [hv i h1, hv j h2]; show 8 * i + 2 ≤ 8 * j ∨ 8 * j + 2 ≤ 8 * i; omega, by decide, by decide, by decide, by decide⟩

theorem wit_AccumulatorStores : ∃ (s : State) (c : Cur) (t : Team) (g : Gang) (e : Entry) (k : BitVec 3),
    Acts s c t g ∧ g.entry? c.eid = some e ∧ e.setB < 12 ∧ g.flag e.setB < 63 ∧ g.flags.length = 12 ∧ k.toNat < t.acc ∧
    mfmtOk t.mfmt = true ∧ t.mfmt ≠ 0 ∧ t.mbase.toNat % elemSize (t.mfmt.toNat / 2 ^ 32 % 16) = 0 ∧
    s.touchesSeq t.core t.func .write (MStore.span ⟨k.toNat, t.mbase, t.mfmt, []⟩) = false ∧
    (s.core t.core).copies.length < 16 ∧ (s.core t.core).locks.length < 64 ∧ ∀ why, s.ahead t.core c.seq why = 0 :=
  ⟨_, _, _, tTiled fun _ => .u32, tEntry, 7, actsM (tMem []) ⟨0, [], none⟩ 0x20000 0x0004020600000010, rfl, by decide, by decide, rfl, by decide,
    by decide +kernel, by decide, by decide +kernel, by decide +kernel, by decide, by decide, fun _ => rfl⟩

theorem buffersOk_engine (l : List MatOp) (t : Team) (c : Cur) : (tOn (tEngine l) t c).buffersOk := by
  intro k b
  by_cases h : k = 0
  · subst h; cases b <;> rfl
  · have : ¬ (0 == k) = true := by simpa using fun e => h e.symm
    simp only [State.core, tOn, tEngine, List.find?_cons, Core.reset, List.find?_nil]
    cases b <;> simp [Core.buf, this, BufState.reset] <;> rfl

theorem wit_OperationsStart : ∃ (s : State) (core id : Nat) (t : Team) (o : MatOp),
    s.buffersOk ∧ s.matOp? core id = some o ∧ s.team? o.launch o.team = some t ∧ t.core = core ∧ o.begun = false ∧ o.progress = 0 ∧
    s.mayStart core o = true ∧ (∀ x ∈ (s.core core).engine, x.id < id → s.mayStart core x = false) ∧ (s.func t.func).frozen = false ∧
    (∀ x ∈ s.matTiles t o, s.tileEmpty x.1 x.2.1 x.2.2 = false) ∧ (s.core core).engine.length ≤ 16 ∧ mmaMode o.word = 1 ∧ 0 < o.m ∧ 0 < o.n ∧
    o.m ≤ 128 ∧ o.n ≤ 128 :=
  ⟨tOn (tEngine [tEng false 0]) (tTeamM ⟨0, [], none⟩ 0 0) tCur, 0, 30, _, tEng false 0, buffersOk_engine _ _ _, rfl, rfl, rfl, rfl, rfl,
    by decide +kernel, by decide +kernel, rfl, by decide +kernel, by decide, by decide +kernel, by decide +kernel, by decide +kernel,
    by decide +kernel, by decide +kernel⟩

theorem wit_IntegerSteps : ∃ (s : State) (core id : Nat) (t : Team) (o : MatOp),
    s.buffersOk ∧ s.matOp? core id = some o ∧ s.team? o.launch o.team = some t ∧ t.core = core ∧ o.begun = true ∧ o.progress < o.k ∧
    (s.func t.func).frozen = false ∧ (s.core core).engineUpsets = [] ∧ o.latch = none ∧ o.group = 2 ∧ mmaScaled o.word = false ∧ mmaGather o.word = false ∧ o.m ≤ 128 ∧ o.n ≤ 128 ∧
    (descOf o.descA).sib = false ∧ (descOf o.descB).sib = false ∧ ((s.core core).buf .cb).poison = [] ∧
    ((s.core core).buf (descOf o.descA).buf).poison = [] ∧ ((s.core core).buf (descOf o.descB).buf).poison = [] ∧
    (descOf o.descA).buf ≠ .cb ∧ (descOf o.descB).buf ≠ .cb ∧ groupOf (descOf o.descB).tag = 2 :=
  ⟨tOn (tEngine [tEng true 32]) (tTeamM ⟨0, [], none⟩ 0 0) tCur, 0, 30, _, tEng true 32, buffersOk_engine _ _ _, rfl, rfl, rfl, rfl,
    by decide +kernel, rfl, rfl, rfl, by decide +kernel, by decide +kernel, by decide +kernel, by decide +kernel, by decide +kernel, by decide +kernel,
    by decide +kernel, rfl, by decide +kernel, by decide +kernel, by decide +kernel, by decide +kernel, by decide +kernel⟩

theorem wit_OperationsComplete : ∃ (s : State) (core id : Nat) (t : Team) (o : MatOp) (y : Signer) (g : Gang),
    s.matOp? core id = some o ∧ s.team? o.launch o.team = some t ∧ t.core = core ∧ o.begun = true ∧ o.k ≤ o.progress ∧
    o.signers = [y] ∧ y.matrix = true ∧ t.gangs[y.gang]? = some g ∧ g.frontier ≠ [] ∧ g.ended = false ∧
    (descOf o.descA).sib = false ∧ (descOf o.descB).sib = false ∧ (descOf o.descA).buf ≠ .cb ∧ (descOf o.descB).buf ≠ .cb ∧
    (descOf o.descA).buf ≠ (descOf o.descB).buf :=
  ⟨tOn (tEngine [tEng true 64]) (tTeamM ⟨0, [], none⟩ 0 0) tCur, 0, 30, _, tEng true 64, _, tTiled fun _ => .u32, rfl, rfl, rfl, rfl,
    by decide +kernel, rfl, rfl, rfl, by decide, rfl, by decide +kernel, by decide +kernel, by decide +kernel, by decide +kernel,
    by decide +kernel⟩

/-! ### Hypotheses of the statements on the checks of results -/

/-- Team of `tg .u32` whose launch checks its results or does not; core 0 with something about to strike its pipes. -/
def tChecked (check : Bool) : Team := { tTeam (tg .u32) with check := check }
def tUpset (pass slot : Nat) : PipeUpset := ⟨0, 0, pass, slot, 1, false⟩
def tStruck (check : Bool) (us : List PipeUpset) : State :=
  tOn { State.reset with cores := [{ Core.reset 0 with upsets := us }] } (tChecked check) tCur
theorem meets (pass slot : Nat) (h : (maskCount (tCur.mask &&& lowMask 0) % 8 + pass % 2) % 8 = slot) : Meets tCur (tUpset pass slot) :=
  ⟨rfl, by show (1 : BitVec 64) ≠ 0; decide, 0, by decide, by decide, by show 0 = _; decide, h.symm⟩
theorem actsStruck (check : Bool) (us : List PipeUpset) : Acts (tStruck check us) tCur (tChecked check) (tg .u32) :=
  actsIn _ _ _ rfl rfl (by show _ ∧ _ ∧ _; exact ⟨rfl, rfl, rfl⟩) _ rfl (by decide)
theorem ampleStruck (check : Bool) (us : List PipeUpset) : Ample (Calm (tStruck check us) 0) tCur :=
  ⟨rfl, by show 256 ≤ 32768; decide, by show 256 ≤ 32768; decide, rfl⟩

theorem wit_PassesAreCompared : ∃ (i : Instr) (s s1 s2 : State) (c : Cur) (t t2 : Team) (g : Gang) (d : BitVec 6) (os : List Opnd)
    (ss : List (Src × Src)) (T : Tag) (u w u2 : PipeUpset),
    (intForm g i = some (d, os, ss) ∧ Shaped g ∧ TypedBy false (intTags i) ss (some d.toNat) T) ∧
    (Acts s c t g ∧ Ample (Calm s t.core) c ∧ Meets c u ∧ t.check = true ∧ u.pass < 2 ∧ (s.core t.core).upsets = [u]) ∧
    (Acts s1 c t g ∧ Ample (Calm s1 t.core) c ∧ Meets c w ∧ 2 ≤ w.pass ∧ w.pass < 4 ∧ u.beat = w.beat ∧ (s1.core t.core).upsets = [u, w]) ∧
    Acts s2 c t2 g ∧ Ample (Calm s2 t2.core) c ∧ Meets c u2 ∧ t2.check = false ∧ u2.pass ≠ 0 ∧ (s2.core t2.core).upsets = [u2] :=
  ⟨.iadd 4 ta tb, tStruck true [tUpset 0 0], tStruck true [tUpset 0 0, tUpset 3 1], tStruck false [tUpset 1 1], tCur, tChecked true,
    tChecked false, tg .u32, 4, _, _, .u32, tUpset 0 0, tUpset 3 1, tUpset 1 1,
    ⟨rfl, shapedT _, ⟨by decide, by decide, by decide, by decide⟩⟩,
    ⟨actsStruck _ _, ampleStruck _ _, meets 0 0 (by decide), rfl, by decide, rfl⟩,
    ⟨actsStruck _ _, ampleStruck _ _, meets 3 1 (by decide), by decide, by decide, rfl, rfl⟩,
    actsStruck _ _, ampleStruck _ _, meets 1 1 (by decide), rfl, by decide, rfl⟩

def tEngineStruck (again : Bool) : State :=
  tOn { State.reset with cores := [{ Core.reset 0 with engine := [tEng true 32], engineUpsets := [again] }] } (tTeamM ⟨0, [], none⟩ 0 0) tCur

theorem wit_StepsAreChecked : ∃ (s s1 : State) (core id : Nat) (t : Team) (o : MatOp) (rows rows1 : List (List Nat)) (y : Signer) (g : Gang),
    (s.matOp? core id = some o ∧ s.team? o.launch o.team = some t ∧ t.core = core ∧ o.begun = true ∧ o.progress < o.k ∧
      (s.func t.func).frozen = false ∧ s.kStep t o = some rows ∧ (s.core core).engineUpsets = [false]) ∧
    s1.matOp? core id = some o ∧ s1.team? o.launch o.team = some t ∧ (s1.func t.func).frozen = false ∧ s1.kStep t o = some rows1 ∧
      (s1.core core).engineUpsets = [true] ∧ o.signers = [y] ∧ y.matrix = true ∧ t.gangs[y.gang]? = some g := by
  have h : ∀ b, ((tEngineStruck b).kStep (tTeamM ⟨0, [], none⟩ 0 0) (tEng true 32)).isSome = true := by decide +kernel
  exact ⟨tEngineStruck false, tEngineStruck true, 0, 30, _, tEng true 32, _, _, tSign tMmaWord, tTiled fun _ => .u32,
    ⟨rfl, rfl, rfl, rfl, by decide +kernel, rfl, (Option.some_get (h false)).symm, rfl⟩,
    rfl, rfl, rfl, (Option.some_get (h true)).symm, rfl, rfl, rfl, rfl⟩

/-! ### Hypotheses of the statements on entries, walks, page requests and pools -/

/-- Stage-1 and stage-2 tables of function 1 that map the first 512 MB of each space to the same addresses, readable and executable. -/
def tTables : State :=
  { State.reset with
    mem := cellPut (cellPut (cellPut (cellPut [] 0x200000 (leBytes 0x210001 8)) 0x210000 (leBytes 0xF 8)) 0x220000 (leBytes 0x230001 8)) 0x230000
      (leBytes 7 8)
    funcs := [{ Func.reset 1 with s1root := 0x220000, s2root := 0x200000 }] }
def tTables' : State := { tTables with cores := [Core.reset 0] }
/-- The lane 2 of operation 3 waits for walk 9 of the page of `va`. -/
def tWalker (va : Nat) (k : OpKind) : Gang := tFlight (tOp k [{ tElem 2 .walking with va := va, trans := none }])
def tWalk (va : Nat) (n : Need) : Walk := ⟨9, 1, va / 65536, true, false, 0, [⟨.op 1 0 0 3 2, n, va⟩]⟩
def tWalking (va : Nat) (k : OpKind) (n : Need) : State :=
  tOn { tTables' with dies := [{ Die.reset 0 with walks := [tWalk va n] }] } (tTeam (tWalker va k)) tCur
theorem tWalking_walking (va : Nat) (k : OpKind) (n : Need) : Walking (tWalking va k n) 0 (tWalk va n) ⟨.op 1 0 0 3 2, n, va⟩ 1 0 0 3 2
    (tWalker va k) (tOp k [{ tElem 2 .walking with va := va, trans := none }]) { tElem 2 .walking with va := va, trans := none } :=
  ⟨rfl, rfl, rfl, rfl, rfl, rfl, rfl, rfl⟩

theorem wit_EntriesPromotedAndRetested :
    (∃ (s : State) (l tn k eid : Nat) (g : Gang) (e : Entry),
      s.gang? l tn k = some g ∧ g.entry? eid = some e ∧ 256 ≤ e.age ∧ e.promoted = none) ∧
    ∃ (s : State) (l tn k eid core n since : Nat) (b : Buf) (g : Gang) (e : Entry),
      s.gang? l tn k = some g ∧ g.entry? eid = some e ∧ e.st = .polling core b n since ∧ since + 64 ≤ s.now :=
  ⟨⟨tState (tFront [{ tEntry with age := 256 }]), 1, 0, 0, 7, _, _, rfl, rfl, by decide, rfl⟩,
    ⟨{ tState (tFront [{ tEntry with st := .polling 0 .ab 3 36 }]) with now := 100 }, 1, 0, 0, 7, 0, 3, 36, .ab, _, _, rfl, rfl, rfl,
      by decide⟩⟩

def tWaiting (id f p : Nat) : Walk := ⟨id, f, 8, false, false, p, []⟩
def tDieOf (ws : List Walk) : State := { State.reset with dies := [{ Die.reset 0 with walks := ws, lastFunc := 63 }] }

theorem wit_WalksStart : ∃ (s s' : State) (die : Nat),
    (((s.die die).walks.filter fun w => !w.started) ≠ [] ∧ ((s.die die).walks.filter (·.started)).length < 32 ∧
      ((s.die die).walks.map (·.id)).Nodup ∧ (∀ w ∈ (s.die die).walks, w.func < 64) ∧
      ∀ x ∈ ((s.die die).walks.filter fun w => !w.started), x.passed < 63) ∧
    ((s'.die die).walks.filter fun w => !w.started) ≠ [] ∧ ((s'.die die).walks.filter (·.started)).length < 32 ∧
      ((s'.die die).walks.map (·.id)).Nodup ∧ (∀ w ∈ (s'.die die).walks, w.func < 64) ∧
      ∃ x, ((s'.die die).walks.filter fun w => !w.started).find? (fun y => decide (63 ≤ y.passed)) = some x :=
  ⟨tDieOf [tWaiting 1 5 0, tWaiting 2 0 62, tWaiting 3 5 1], tDieOf [tWaiting 1 5 0, tWaiting 2 0 63], 0,
    ⟨by decide, by decide, by decide, by decide, by decide⟩, by decide, by decide, by decide, by decide, _, rfl⟩

theorem errOf {α : Type} {x : Except Flt α} {f : Flt} (h : (match x with | .error y => decide (y = f) | _ => false) = true) : x = .error f := by
  match x, h with
  | .error y, h => rw [of_decide_eq_true h]
theorem okIs {x : Except Flt Trans} {t : Trans} (h : (match x with | .ok y => decide (y = t) | _ => false) = true) : x = .ok t := by
  match x, h with
  | .ok y, h => rw [of_decide_eq_true h]

theorem wit_WalksEnd :
    (∃ (s : State) (die : Nat) (w : Walk) (sh : Sharer) (l tn k id lane : Nat) (g : Gang) (o : MemOp) (x : Elem) (tr : Trans) (a : Nat),
      Walking s die w sh l tn k id lane g o x ∧
      judgeEnd (s.walk w.func (w.page * 65536) [sh.need]).1 sh.gva sh.need (o.kind.use.access o.kind.size) = .ok tr ∧ tr.tgt = .mem a ∧
      typeAllows o.kind.use tr.ty tr.tgt = true ∧ kindFor o.kind.use tr.tgt = true ∧ (s.core (s.coreOf l tn)).locks = [] ∧
      w.noInstall = false ∧ sh.gva / 65536 = w.page ∧ Roomy s ∧ o.once = 0) ∧
    (∃ (s : State) (die : Nat) (w : Walk) (sh : Sharer) (l tn k id lane : Nat) (g : Gang) (o : MemOp) (x : Elem) (f : Flt) (owner : Nat),
      Walking s die w sh l tn k id lane g o x ∧
      judgeEnd (s.walk w.func (w.page * 65536) [sh.need]).1 sh.gva sh.need (o.kind.use.access o.kind.size) = .error f ∧
      ((f.code = .s1Miss ∧ owner = w.func) ∨ (f.code = .s2Miss ∧ owner = 0)) ∧ s.pageReqs = [] ∧ Roomy s ∧ o.once = 0) ∧
    ∃ (s : State) (die : Nat) (w : Walk) (sh : Sharer) (l tn k id lane : Nat) (g : Gang) (o : MemOp) (x : Elem) (f : Flt),
      Walking s die w sh l tn k id lane g o x ∧
      judgeEnd (s.walk w.func (w.page * 65536) [sh.need]).1 sh.gva sh.need (o.kind.use.access o.kind.size) = .error f ∧ f.code = .perm ∧ Roomy s ∧ o.once = 0 :=
  ⟨⟨_, _, _, _, _, _, _, _, _, _, _, _, tTrans 0x20010, 0x20010, tWalking_walking 0x20010 (.ld 2) .read, okIs (by decide +kernel), rfl, rfl, rfl,
      rfl, rfl, rfl, roomy _ rfl rfl, rfl⟩,
    ⟨_, _, _, _, _, _, _, _, _, _, _, _, ⟨.s1Miss, 0x40000000⟩, 1, tWalking_walking 0x40000000 (.ld 2) .read, errOf (by decide +kernel),
      .inl ⟨rfl, rfl⟩, rfl, roomy _ rfl rfl, rfl⟩,
    ⟨_, _, _, _, _, _, _, _, _, _, _, _, ⟨.perm, 1⟩, tWalking_walking 0x20010 (.store (.st 4)) .write, errOf (by decide +kernel), rfl, roomy _ rfl rfl, rfl⟩⟩

def tReq : PageReq := ⟨1, 44, .s1Miss, 1, 0x40001000, .read, true, [⟨.op 1 0 0 33 2, .read, 0x40001000⟩]⟩
def tParked : State := { tState (tFront [{ tEntry with st := .parked 1 44 }, tMate 0x20040 .ready]) with pageReqs := [tReq] }

theorem wit_PageRequestsAnswered : ∃ (s : State) (p : PageReq) (l tn k : Nat) (g : Gang) (e : Entry),
    s.pageReq? p.owner p.id = some p ∧ s.parkedEntries p.owner p.id = [(l, tn, k, e)] ∧ s.gang? l tn k = some g ∧
    s.parkedElems p.owner p.id = [] ∧ s.parkedChunks p.owner p.id = [] ∧ s.parkedCpyts p.owner p.id = [] ∧
    ∀ sh ∈ p.sharers, ∃ l tn k id n, sh.who = .op l tn k id n :=
  ⟨tParked, tReq, 1, 0, 0, _, _, rfl, rfl, rfl, rfl, rfl, rfl, by
    intro sh h
    obtain rfl := List.mem_singleton.mp h
    exact ⟨_, _, _, _, _, rfl⟩⟩

def tClaim (uni : Bool) (n : Nat) (k : ClaimKind) : Claim := ⟨1, 0, 0, 7, uni, n, k⟩
def tClaimer : Gang := { tg .i32 with qv := 4, qs := 40, vmap := List.replicate 64 none, smap := List.replicate 64 none }
def tClaims (k : ClaimKind) : State :=
  tOn { State.reset with cores := [{ Core.reset 0 with claims := [tClaim true 5 k, tClaim false 60 k] }] } (tTeam tClaimer) tCur

theorem wit_PoolsGrant : ∃ (s s' : State) (core : Nat) (x y x' y' : Claim) (g : Gang) (e : Entry),
    ((s.core core).claims.find? (fun z => z.uni == x.uni) = some x ∧ s.coreOf x.launch x.team = core ∧
      s.gang? x.launch x.team x.gang = some g ∧ g.entry? x.ref = some e ∧ g.hv ≤ g.qv ∧ g.hs ≤ g.qs ∧ g.qv ≤ 64 ∧ g.qs ≤ 64 ∧
      x.count ≤ (if x.uni then (s.core core).poolS else (s.core core).poolV) ∧ x.kind = .write ∧ x.uni = true) ∧
    ((s.core core).claims.find? (fun z => z.uni == y.uni) = some y ∧ y.launch = x.launch ∧ y.team = x.team ∧ y.gang = x.gang ∧ y.ref = x.ref ∧
      y.count ≤ (if y.uni then (s.core core).poolS else (s.core core).poolV) ∧ y.kind = .write ∧ y.uni = false) ∧
    ((s'.core core).claims.find? (fun z => z.uni == x'.uni) = some x' ∧ s'.coreOf x'.launch x'.team = core ∧
      s'.gang? x'.launch x'.team x'.gang = some g ∧ g.entry? x'.ref = some e ∧
      x'.count ≤ (if x'.uni then (s'.core core).poolS else (s'.core core).poolV) ∧ x'.kind = .regclaim ∧ g.lent = [] ∧
      g.region.heldV = 0 ∧ g.region.heldS = 0 ∧ (if x'.uni then g.qs else g.qv) + x'.count ≤ 64 ∧ x'.uni = true) ∧
    (s'.core core).claims.find? (fun z => z.uni == y'.uni) = some y' ∧ y'.launch = x'.launch ∧ y'.team = x'.team ∧ y'.gang = x'.gang ∧
      y'.ref = x'.ref ∧ y'.count ≤ (if y'.uni then (s'.core core).poolS else (s'.core core).poolV) ∧ y'.kind = .regclaim ∧
      (if y'.uni then g.qs else g.qv) + y'.count ≤ 64 ∧ y'.uni = false :=
  ⟨tClaims .write, tClaims .regclaim, 0, tClaim true 5 .write, tClaim false 60 .write, tClaim true 5 .regclaim, tClaim false 60 .regclaim,
    tClaimer, tEntry,
    ⟨rfl, rfl, rfl, rfl, by decide, by decide, by decide, by decide, by decide, rfl, rfl⟩, ⟨rfl, rfl, rfl, rfl, rfl, by decide, rfl, rfl⟩,
    ⟨rfl, rfl, rfl, rfl, by decide, rfl, rfl, rfl, rfl, by decide, rfl⟩, rfl, rfl, rfl, rfl, rfl, by decide, rfl, by decide, rfl⟩

/-! ### Hypotheses of the statements on store queues, caches and stacks -/

def tStored (ty : PType) (tgt : Tgt) : Elem := { tElem 2 .pending with trans := some ⟨0x20000, tgt, ty, 0⟩, src := 0xABCD }
def tHead (k : StKind) (sent : Bool) (e : Elem) : StqEntry := ⟨5, 70, k, 0x20000, 0, .i32, none, false, sent, [e]⟩
def tQueued (q : List StqEntry) : Gang := { tg .i32 with stq := q }
def tStoring (q : List StqEntry) : State := tState (tQueued q)
theorem tHeads (k : StKind) (sent : Bool) (e : Elem) (h : e.st = .pending ∧ e.lane < 32) (rest : List StqEntry)
    (hr : ∀ y ∈ rest, y.id ≠ 5) :
    Head (tStoring (tHead k sent e :: rest)) 1 0 0 (tTeam (tQueued (tHead k sent e :: rest))) (tQueued (tHead k sent e :: rest))
      (tHead k sent e) rest e :=
  ⟨rfl, rfl, rfl, hr, rfl, by show 0 ≤ Config.requesters; decide, rfl, h.1, h.2⟩
def tNext : StqEntry := { tHead (.st 4) false (tStored .rel (.mem 0x20040)) with id := 6 }

theorem wit_QueuedStoresDrain :
    (∃ (s : State) (l tn k n a : Nat) (t : Team) (g : Gang) (x : StqEntry) (rest : List StqEntry) (e : Elem) (tr : Trans),
      Head s l tn k t g x rest e ∧ e.trans = some tr ∧ n = 16 ∧ a % n = 0 ∧ x.kind = .st n ∧ tr.tgt = .mem a ∧ tr.ty = .rel ∧ x.sent = false ∧
      s.yieldSector t.core a (some (l, tn)) = s ∧ CoreRoomy s t.core ∧ (s.core t.core).fifo.length < Config.fifoSize) ∧
    (∀ sent, ∃ (s : State) (l tn k n a : Nat) (t : Team) (g : Gang) (x : StqEntry) (rest : List StqEntry) (e : Elem) (tr : Trans),
      Head s l tn k t g x rest e ∧ e.trans = some tr ∧ n = 1 ∧ a % n = 0 ∧ x.kind = .st n ∧ tr.tgt = .mem a ∧ tr.ty = .seq ∧ x.sent = sent ∧
      findLine (s.core t.core).cache (a / 128) = none ∧ Roomy s) ∧
    (∃ (s : State) (l tn k n a : Nat) (t : Team) (g : Gang) (x : StqEntry) (rest : List StqEntry) (e : Elem) (tr : Trans) (o3 sc : BitVec 3)
        (wide : Bool),
      Head s l tn k t g x rest e ∧ e.trans = some tr ∧ a % n = 0 ∧ x.kind = .atomr o3 sc wide ∧ n = (if wide then 8 else 4) ∧ 2 ≤ sc.toNat ∧
      sc.toNat ≤ 4 ∧ x.sent = false ∧ x.tag = .i32 ∧ e.src.toNat < 2 ^ (8 * n) ∧ tr.tgt = .mem a ∧ tr.ty = .rel ∧
      findLine (s.core t.core).cache (a / 128) = none ∧ s.homePoison (a / 32) = false ∧ (∀ f ∈ s.flips, f.1 ≠ a / 32) ∧ Roomy s) ∧
    ∃ (s : State) (l tn k n c off sl : Nat) (t : Team) (g : Gang) (x : StqEntry) (rest : List StqEntry) (e : Elem) (tr : Trans),
      Head s l tn k t g x rest e ∧ e.trans = some tr ∧ n = 8 ∧ s.buffersOk ∧ x.kind = .rstarv n ∧ tr.tgt = .buf c .ab off sl ∧ off % n = 0 ∧
      x.sent = false :=
  ⟨⟨_, 1, 0, 0, 16, 0x20000, _, _, _, _, _, ⟨0x20000, .mem 0x20000, .rel, 0⟩,
      tHeads (.st 16) false (tStored .rel (.mem 0x20000)) ⟨rfl, by decide⟩ [tNext] (by decide), rfl, rfl, rfl, rfl, rfl, rfl, rfl,
      by decide +kernel, (by unfold CoreRoomy; decide), by decide⟩,
    (fun sent => ⟨_, 1, 0, 0, 1, 0x20001, _, _, _, _, _, ⟨0x20000, .mem 0x20001, .seq, 0⟩,
      tHeads (.st 1) sent (tStored .seq (.mem 0x20001)) ⟨rfl, by decide⟩ [tNext] (by decide), rfl, rfl, rfl, rfl, rfl, rfl, rfl, rfl, roomy _ rfl rfl⟩),
    ⟨_, 1, 0, 0, 4, 0x20000, _, _, _, _, _, ⟨0x20000, .mem 0x20000, .rel, 0⟩, 7, 4, false,
      tHeads (.atomr 7 4 false) false (tStored .rel (.mem 0x20000)) ⟨rfl, by decide⟩ [] (by decide), rfl, rfl, rfl, rfl, by decide, by decide,
      rfl, rfl, by decide, rfl, rfl, rfl, rfl, (fun _ h => nomatch h), roomy _ rfl rfl⟩,
    ⟨_, 1, 0, 0, 8, 2, 4096, 0x10000, _, _, _, _, _, ⟨0x20000, .buf 2 .ab 4096 0x10000, .rel, 0⟩,
      tHeads (.rstarv 8) false (tStored .rel (.buf 2 .ab 4096 0x10000)) ⟨rfl, by decide⟩ [tNext] (by decide), rfl, rfl,
      buffersOk_cores State.reset _ _ rfl, rfl, rfl, rfl, rfl⟩⟩

/-- A sector is on its way to core 0 for lane 2 of a load. -/
def tArriving (tgt sector : Tgt) (ty : PType) (alloc : Bool) : State :=
  tOn { State.reset with cores := [{ Core.reset 0 with slots := [⟨8, 1, sector, alloc, none, false, none⟩] }] }
    (tTeam (tFlight (tOp (.ld 2) [{ tStored ty tgt with st := .slot 8 }]))) tCur

theorem wit_SectorsArrive :
    (∀ alloc, ∃ (s : State) (core l tn k id lane a n q : Nat) (x : MissSlot) (g : Gang) (o : MemOp) (e : Elem) (tr : Trans),
      (s.core core).slots.find? (·.id == x.id) = some x ∧ s.onSlot core x.id = [⟨q, lane, (l, tn, k, id)⟩] ∧ s.gang? l tn k = some g ∧
      g.stq = [] ∧ g.op? id = some o ∧ o.elems.find? (·.lane == lane) = some e ∧ e.trans = some tr ∧ o.kind.size = n ∧ a % 32 + n ≤ 32 ∧
      tr.tgt = .mem a ∧ x.tgt = .mem (a / 32 * 32) ∧ x.alloc = alloc ∧ Roomy s ∧
      ((x.alloc = true ∧ tr.ty ≠ .seq ∧ CoreRoomy s core ∧ s.yieldSector core a (some (l, tn)) = s) ∨
        (x.alloc = false ∧ tr.ty = .seq ∧ findLine (s.core core).cache (a / 128) = none))) ∧
    ∃ (s : State) (core l tn k id lane a n q : Nat) (x : MissSlot) (g : Gang) (o : MemOp) (e : Elem) (tr : Trans),
      (s.core core).slots.find? (·.id == x.id) = some x ∧ s.onSlot core x.id = [⟨q, lane, (l, tn, k, id)⟩] ∧ s.gang? l tn k = some g ∧
      g.stq = [] ∧ g.op? id = some o ∧ o.elems.find? (·.lane == lane) = some e ∧ e.trans = some tr ∧ o.kind.size = n ∧ a % 32 + n ≤ 32 ∧
      tr.tgt = .host a ∧ x.tgt = .host (a / 32 * 32) := by
  refine ⟨fun alloc => ⟨tArriving (.mem 0x20010) (.mem 0x20000) (if alloc then .rel else .seq) alloc, 0, 1, 0, 0, 3, 2, 0x20010, 16, 70,
      ⟨8, 1, .mem 0x20000, alloc, none, false, none⟩, _, _, _, _, rfl, ?_, rfl, rfl, rfl, rfl, rfl, rfl, by decide, rfl, rfl, rfl,
      roomy _ rfl rfl, ?_⟩,
    ⟨tArriving (.host 0x20010) (.host 0x20000) .rel false, 0, 1, 0, 0, 3, 2, 0x20010, 16, 70, ⟨8, 1, .host 0x20000, false, none, false, none⟩, _,
      _, _, _, rfl, by decide +kernel, rfl, rfl, rfl, rfl, rfl, rfl, by decide, rfl, rfl⟩⟩
  · cases alloc <;> decide +kernel
  · cases alloc
    · exact .inr ⟨rfl, rfl, rfl⟩
    · exact .inl ⟨rfl, (show PType.rel ≠ .seq by decide), (by unfold CoreRoomy; decide), by decide +kernel⟩

def tDirty : Line := { tLine with dirty := 0xFF00, owner := [some (1, 0), none, none, none] }
def tDirtyState : State :=
  { tOn { State.reset with cores := [{ Core.reset 0 with cache := [tDirty], fifo := [⟨1024, 4⟩], markers := [⟨4, 1, 0, [1024]⟩] }] }
      (tTeam (tg .i32)) tCur with now := 65540 }

theorem wit_DirtyLinesGoHome : ∃ (s : State) (core line : Nat) (ln : Line),
    Cached s core line ln ∧ Roomy s ∧ (∃ m ∈ (s.core core).markers, line ∈ m.lines) ∧ ∃ f ∈ (s.core core).fifo, f.line = line ∧ f.since + 65536 ≤ s.now :=
  ⟨tDirtyState, 0, 1024, tDirty, ⟨rfl, rfl⟩, roomy _ rfl rfl, by decide, by decide⟩

def tHomeLine : Line := { tLine with dirty := 0xFF, way := 3 }
def tHomes : State :=
  { State.reset with
    home := [tHomeLine]
    stack := [tHomeLine]
    dies := [{ Die.reset (homeDie 0x20000) with fifo := [1024] }]
    funcs := [{ Func.reset 1 with oldHways := 8, oldSways := 8, cfg := { FConfig.reset with bays := 1, hways := 0xFFFFF7, sways := 0xFFF7 } }] }

theorem tLine_whole : tHomeLine.whole := by unfold Line.whole; decide +kernel
theorem tHomes_roomy : Roomy tHomes :=
  ⟨⟨fun l h => List.mem_singleton.mp h ▸ tLine_whole, fun l h => List.mem_singleton.mp h ▸ tLine_whole⟩, by decide, by decide⟩

theorem wit_HomeLinesLeave : ∃ (s s' : State) (line func : Nat) (ln : Line),
    (Roomy s ∧ findLine s.home line = some ln ∧ (s.die (homeDie (line * 128))).fifo.head? = some line ∧ ln.func = func ∧
      (s.func func).oldHways.getLsbD ln.way = true ∧ (s.func func).cfg.hways.getLsbD ln.way = false ∧ findLine s.stack line = some ln ∧
      (s.func func).oldSways.getLsbD ln.way = true ∧ (s.func func).cfg.sways.getLsbD ln.way = false ∧ s.memOk ∧ ln.dirty &&& sectorMask 0 ≠ 0) ∧
    (s'.func func).oldHways ≠ 0 ∧ (∀ l ∈ s'.home, l.func = func → (s'.func func).goneHome l.way = false) ∧
      ∀ l ∈ s'.stack, l.func = func → (s'.func func).goneStack l.way = false :=
  ⟨tHomes, { tHomes with home := [{ tHomeLine with way := 4 }], stack := [] }, 1024, 1, tHomeLine,
    ⟨tHomes_roomy, rfl, by decide +kernel, rfl, by decide, by decide, rfl, by decide, by decide, (show Memory.wf [] = true by decide), by decide⟩, by decide, by decide,
    (fun _ h => nomatch h)⟩

def tTagged : Func := { Func.reset 1 with cfg := { FConfig.reset with bays := 1, hways := 8, sways := 8 } }
theorem wit_MemoryErrors : ∃ (s : State) (sec sec' sec2 line core : Nat) (ln ln' : Line) (t : Team) (f : Func) (p : Nat × Nat),
    (32 * sec < 0xC000000000 ∧ sec ∉ s.dieFlips ∧ s.flips.filter (·.1 == sec) = [p]) ∧ (32 * sec' < 0xC000000000 ∧ 2 ≤ (s.flips.filter (·.1 == sec')).length) ∧
    (32 * sec2 < 0xC000000000 ∧ sec2 ∈ s.dieFlips ∧ s.flips.filter (·.1 == sec2) = []) ∧
    (findLine s.home line = some ln ∧ ln.addr = line ∧ s.funcs = [f] ∧ f.cfg.bays ≠ 0 ∧ f.cfg.hways.getLsbD ln.way = true) ∧
    (findLine s.stack line = some ln ∧ f.cfg.sways.getLsbD ln.way = true) ∧
    Cached s core line ln' ∧ s.teams.filter (·.core == core) = [t] ∧ s.team? t.launch t.num = some t ∧ t.st ≠ .waiting ∧ s.agenda = [] :=
  ⟨{ tDirtyState with
      dieFlips := [7]
      flips := [(0, 3), (0x5FFFFFFFF, 0), (0x5FFFFFFFF, 255)]
      home := [tHomeLine]
      stack := [tHomeLine]
      funcs := [tTagged] }, 0, 0x5FFFFFFFF, 7, 1024, 0, tHomeLine, tDirty, _, tTagged, (0, 3),
    ⟨by decide, by decide, rfl⟩, ⟨by decide, by decide⟩, ⟨by decide, by decide, by decide⟩, ⟨rfl, rfl, rfl, by decide, by decide⟩, ⟨rfl, by decide⟩, ⟨rfl, rfl⟩, rfl, rfl, by decide, rfl⟩

/-! ### Hypotheses of the statements on the fabric -/

/-- Device 0x11 of a grid of 4 × 4; function 1 has key slot 3 and virtual devices 0 to 4, the first of them device 0x12. -/
def tFab : State :=
  { tTables' with
    mem := cellPut tTables.mem 0x300010 (leBytes (1 + 0x12 * 16 + 9 * 4096 + 5 * 2 ^ 18 + 6 * 2 ^ 24) 8)
    funcs := [{ Func.reset 1 with s1root := 0x220000, s2root := 0x200000, cfg := { FConfig.reset with bays := 1, kslot := 3, vbase := 2, vlimit := 5 } }]
    keys := [(3, 77)]
    grid := 0x1133
    vdntab := 0x300000
    ports := List.replicate 32 ⟨true⟩ }
def tPkt (k : PktKind) (n : Nat) : Packet :=
  { (⟨0x11, 1, 3, 6⟩ : Dest).packet k 0x20040 n 0xBEEF with
    src := 0x13, req := 12, key := some 77, launch := 4, team := 5, gang := 6, seg := 7 }
def tOut (k : PktKind) : Packet := { tPkt k 4 with src := 0x11, dst := 0x12 }
def tFReq (o : ReqOwner) (k : PktKind) (n : Nat) (at_ : Option Nat) : FabReq := ⟨12, o, 3, .rel, 1, 0, tOut k, n, false, 5, at_, false⟩
def tReqs (r : FabReq) (g : Gang) : State :=
  { tOn { tFab with cores := [{ Core.reset 0 with reqs := [r] }] } (tTeam g) tCur with now := 5 + 2000 * 2250 }
def tAtomOp : MemOp := tOp (.atom 7 4 false) [tElem 1 .pending, tElem 31 (.fabric 12)]
theorem tRequests (n : Nat) : Requests (tReqs (tFReq (.op 1 0 0 3 31) .atom n none) (tFlight tAtomOp)) 0 (tFReq (.op 1 0 0 3 31) .atom n none)
    1 0 0 3 31 (tFlight tAtomOp) tAtomOp (tElem 31 (.fabric 12)) :=
  ⟨rfl, rfl, rfl, rfl, rfl, ⟨7, 4, false, rfl⟩, rfl, rfl, rfl, by decide⟩
def tReply : Reply := ⟨⟨0x11, 0x12, 0, 12⟩, ⟨3, 1, 6, some 77, 0⟩⟩
theorem answersTo (n : Nat) : AnswerTo (tReqs (tFReq (.op 1 0 0 3 31) .atom n none) (tFlight tAtomOp)) tReply 0 12 :=
  ⟨by show tReply.dst = tFab.device; decide, rfl, rfl, rfl, rfl⟩

/-- Lane 31 of a load waits for a sector of device 0x12, for which slot 8 stands. -/
def tFetchElem : Elem := { tElem 31 (.slot 8) with trans := some ⟨0x20000, .peer 0 0x20010, .rel, 0⟩ }
def tFetchOp : MemOp := tOp (.ld 2) [tFetchElem]
def tFetchReq : FabReq := { tFReq (.fill 0 8 true) .read 0 none with pkt := { tOut .read with launch := 1, team := 0, gang := 0 } }
def tPeerSlot : MissSlot := ⟨8, 1, .peer 0 0x20000, true, some (0x12, 9), false, none⟩
def tFetching : State :=
  tOn { tFab with cores := [{ Core.reset 0 with reqs := [tFetchReq], slots := [tPeerSlot] }] } (tTeam (tFlight tFetchOp)) tCur
theorem tFetches : Fetches tFetching 0 tFetchReq tPeerSlot true 1 0 0 3 31 0x20010 (tFlight tFetchOp) tFetchOp tFetchElem :=
  ⟨rfl, rfl, rfl, ⟨rfl, rfl, rfl⟩, rfl, ⟨70, by decide +kernel⟩, rfl, rfl, rfl, rfl, rfl, rfl, ⟨_, 0, rfl, rfl⟩, ⟨by decide, by decide⟩, by decide⟩

theorem resolves {x : Except Flt Dest} {t : Dest} (h : (match x with | .ok y => decide (y = t) | _ => false) = true) : x = .ok t := by
  match x, h with
  | .ok y, h => rw [of_decide_eq_true h]

theorem wit_RepliesReachTheirLanes :
    (∀ n ∈ [3, 4], ∃ (s : State) (core l tn k id lane : Nat) (r : FabReq) (g : Gang) (o : MemOp) (e : Elem) (y : Reply),
      AnswerTo s y core r.id ∧ Requests s core r l tn k id lane g o e ∧ (s.func r.func).recmode = none ∧ r.retries = n ∧ r.moved = false ∧
      ∃ d, s.resolve r.func r.vdn = .ok d) ∧
    ∃ (s : State) (core l tn k id lane a : Nat) (r : FabReq) (x : MissSlot) (plain : Bool) (g : Gang) (o : MemOp) (e : Elem) (y : Reply),
      AnswerTo s y core r.id ∧ Fetches s core r x plain l tn k id lane a g o e := by
  refine ⟨fun n h => ?_, ⟨tFetching, 0, 1, 0, 0, 3, 31, 0x20010, tFetchReq, tPeerSlot, true, _, _, _, tReply, ⟨by decide, rfl, rfl, rfl, rfl⟩, tFetches⟩⟩
  rcases List.mem_cons.mp h with rfl | h
  · exact ⟨_, _, _, _, _, _, _, _, _, _, _, tReply, answersTo 3, tRequests 3, rfl, rfl, rfl, ⟨0x12, 9, 5, 6⟩, resolves (by decide +kernel)⟩
  · obtain rfl := List.mem_singleton.mp h
    exact ⟨_, _, _, _, _, _, _, _, _, _, _, tReply, answersTo 4, tRequests 4, rfl, rfl, rfl, ⟨0x12, 9, 5, 6⟩, resolves (by decide +kernel)⟩

theorem wit_RequestsAreTimed :
    (∃ (s : State) (core : Nat) (r : FabReq) (l tn k id lane at_ : Nat),
      (s.core core).reqs = [r] ∧ r.owner = .op l tn k id lane ∧ r.retryAt = some at_ ∧ at_ ≤ s.now) ∧
    (∃ (s : State) (core slot : Nat) (r : FabReq),
      (s.core core).reqs = [r] ∧ r.held = false ∧ r.retryAt = none ∧ r.sentAt + 2000 * 2250 ≤ s.now ∧ r.owner = .fill core slot true ∧
      r.retries < 4) ∧
    ∃ (s : State) (core : Nat) (r : FabReq) (l tn k lane pc : Nat) (word : W32) (g : Gang),
      (s.core core).reqs = [r] ∧ r.held = false ∧ r.retryAt = none ∧ r.sentAt + 2000 * 2250 ≤ s.now ∧ r.pkt.kind ≠ .read ∧
      r.owner = .store l tn k lane pc word ∧ s.gang? l tn k = some g ∧ g.ops = [] :=
  ⟨⟨tReqs (tFReq (.op 1 0 0 3 31) .atom 2 (some 9)) (tFlight tAtomOp), 0, _, 1, 0, 0, 3, 31, 9, rfl, rfl, rfl, by decide⟩,
    ⟨tReqs (tFReq (.fill 0 8 true) .read 3 none) (tFlight tFetchOp), 0, 8, _, rfl, rfl, rfl, by decide, rfl, by decide⟩,
    ⟨tReqs (tFReq (.store 1 0 0 5 0x20000 8) .store 0 none) (tg .i32), 0, _, 1, 0, 0, 5, 0x20000, 8, _, rfl, rfl, rfl, by decide, by decide, rfl,
      rfl, rfl⟩⟩

theorem wit_PacketsAreRouted : ∃ (s s' : State) (p q : Packet) (rest : List Packet) (port : Nat),
    (s.router = p :: rest ∧ p.dst ≠ s.device ∧ p.src ≠ s.device ∧ s.minPorts p.dst = [port] ∧ s.portUp port = true) ∧
    (s'.router = q :: rest ∧ q.dst ≠ s'.device ∧ q.src ≠ s'.device ∧ 2000 < q.age ∧ ∀ x ∈ s'.minPorts q.dst, s'.portUp x = false) :=
  ⟨{ tFab with router := [{ tPkt .store 4 with dst := 0x12 }, tPkt .read 4] },
    { tFab with router := [{ tPkt .store 4 with dst := 0x12, age := 2001 }, tPkt .read 4], ports := List.replicate 32 ⟨false⟩ }, _, _, _, 2,
    ⟨rfl, by decide, by decide, by decide, by decide⟩, rfl, by decide, by decide, by decide, by decide⟩

theorem wit_LinksChange : ∃ (s : State) (port port' : Nat),
    port < s.ports.length ∧ s.portUsed port = true ∧ port' < s.ports.length ∧ s.portUsed port' = false :=
  ⟨tFab, 16, 31, by decide, by decide, by decide, by decide⟩

/-- Stage 2 leads to `t`, and permits the packet. -/
def tLeads (r : Leaf2) (k : PktKind) (gpa : Nat) (t : Tgt) : Bool :=
  match r with
  | .leaf e lvl => permits2 e (pktNeed k) && (targetOf e lvl gpa == t)
  | .fault _ => false
theorem leads_of {r : Leaf2} {k : PktKind} {gpa : Nat} {t : Tgt} (h : tLeads r k gpa t = true) :
    ∃ e lvl, r = .leaf e lvl ∧ permits2 e (pktNeed k) = true ∧ targetOf e lvl gpa = t := by
  cases r with
  | fault f => exact nomatch h
  | leaf e lvl =>
    simp only [tLeads, Bool.and_eq_true, beq_iff_eq] at h
    exact ⟨e, lvl, rfl, h.1, h.2⟩

theorem tTaken (s : State) (h : s.grid = tFab.grid ∧ s.funcs = tFab.funcs ∧ s.keys = tFab.keys ∧ s.segments.length < 4 ∧ s.home = [] ∧ s.stack = []) (k : PktKind) (n : Nat)
    (hn : n = 2 ∨ n = 4 ∨ n = 8 ∨ n = 16) (hx : tLeads (s.stage2 1 0x20040).1 k 0x20040 (.mem 0x20040) = true) :
    Taken s (tPkt k n) (.mem 0x20040) := by
  obtain ⟨h2, h3, h4, h5, h6, h7⟩ := h
  have hd : s.device = 0x11 := by simp only [State.device, h2]; decide
  have hf : s.func 1 = tFab.func 1 := by simp only [State.func, h3]
  refine ⟨hd.symm, ?_, ?_, ?_, ?_, leads_of hx, ?_, ?_, roomy s h6 h7⟩
  · rw [hd]; exact (show (0x13 : Nat) ≠ 0x11 by decide)
  · have h : s.func (tPkt k n).func = tFab.func 1 := hf
    rw [h]; exact ⟨rfl, rfl, rfl, rfl⟩
  · refine ⟨rfl, ?_⟩; simp only [State.keyOf, h4]; rfl
  · exact Nat.lt_trans h5 (by decide)
  · intro a h; cases h; decide
  · rcases hn with h | h | h | h
    · exact .inl h
    · exact .inr (.inl h)
    · exact .inr (.inr (.inl h))
    · exact .inr (.inr (.inr (.inl h)))

theorem tTakenFab (k : PktKind) (n : Nat) (hn : n = 2 ∨ n = 4 ∨ n = 8 ∨ n = 16) (hk : k ∈ [PktKind.read, .store, .cas, .reduce, .rstrel, .close]) :
    Taken tFab (tPkt k n) (.mem 0x20040) :=
  tTaken tFab ⟨rfl, rfl, rfl, by decide, rfl, rfl⟩ k n hn (by
    have : ∀ k ∈ [PktKind.read, .store, .cas, .reduce, .rstrel, .close], tLeads (tFab.stage2 1 0x20040).1 k 0x20040 (.mem 0x20040) = true := by
      decide +kernel
    exact this k hk)

/-- A stage-2 leaf of a buffer window: core 2, AB, slice 0, at 0x20000000. -/
def tWindow : State :=
  let leaf := 0xF + 3 * 16 + 2 * 2 ^ 23 + 1 * 2 ^ 26
  { tFab with mem := cellPut (cellPut tFab.mem 0x210008 (leBytes 0x240001 8)) 0x240000 (leBytes leaf 8) }

theorem wit_TargetsPerform :
    (∃ (s : State) (p q r x : Packet) (a : Nat),
      (Taken s p (.mem a) ∧ a % p.size = 0 ∧ p.kind = .read) ∧ (Taken s q (.mem a) ∧ a % q.size = 0 ∧ q.kind = .store) ∧
      (Taken s r (.mem a) ∧ a % r.size = 0 ∧ r.kind = .cas ∧ r.size = 8 ∧ r.rtype ≤ 1 ∧ s.homePoison (a / 32) = false ∧ s.flips = []) ∧
      Taken s x (.mem a) ∧ a % x.size = 0 ∧ x.kind = .reduce ∧ x.rtype = 2 ∧ x.size = 4 ∧ x.op = 3) ∧
    (∃ (s : State) (p : Packet) (core off sl : Nat),
      Taken s p (.buf core .ab off sl) ∧ s.buffersOk ∧ p.kind = .rstarv ∧ off % p.size = 0 ∧ off + p.size ≤ sl ∧ off + p.size ≤ 786432) ∧
    (∃ (s : State) (p q : Packet) (t : Tgt), (Taken s p t ∧ p.kind = .rstrel) ∧ Taken s q t ∧ q.kind = .close) ∧
    ∃ (s : State) (p : Packet), p.dst = s.device ∧ p.src ≠ s.device ∧ (s.func p.func).mirror = none ∧ (s.func p.func).moved = false ∧
      (s.func p.func).migration = none ∧ (s.func p.func).hold = [] ∧ p.kind = .store ∧ s.keyOf p.kslot ≠ p.key ∧ p.key ≠ none := by
  refine ⟨⟨tFab, tPkt .read 16, tPkt .store 2, tPkt .cas 8, { tPkt .reduce 4 with rtype := 2, op := 3 }, 0x20040,
      ⟨tTakenFab _ _ (by decide) (by decide), by decide, rfl⟩, ⟨tTakenFab _ _ (by decide) (by decide), by decide, rfl⟩,
      ⟨tTakenFab _ _ (by decide) (by decide), by decide, rfl, rfl, by decide, by decide +kernel, rfl⟩, ?_, by decide, rfl, rfl, rfl, rfl⟩,
    ⟨tWindow, { tPkt .rstarv 8 with gpa := 0x2000FFF8 }, 2, 0xFFF8, 0x10000, ⟨by decide, by decide, ⟨rfl, rfl, rfl, rfl⟩, ⟨rfl, rfl⟩, by decide, ?_,
        (fun a h => nomatch h), by decide, roomy _ rfl rfl⟩, ?_, rfl, by decide, by decide, by decide⟩,
    ⟨tFab, tPkt .rstrel 8, tPkt .close 4, _, ⟨tTakenFab _ _ (by decide) (by decide), rfl⟩, tTakenFab _ _ (by decide) (by decide), rfl⟩,
    ⟨tFab, { tPkt .store 4 with key := some 78 }, by decide, by decide, rfl, rfl, rfl, rfl, rfl, by decide, by decide⟩⟩
  · obtain ⟨h1, h2, h3, h4, h5, h6, h7, h8, h9⟩ := tTakenFab .reduce 4 (by decide) (by decide)
    exact ⟨h1, h2, h3, h4, h5, h6, h7, h8, h9⟩
  · exact leads_of (by decide +kernel)
  · intro k b
    by_cases h : k = 0
    · subst h; cases b <;> rfl
    · have : ¬ (0 == k) = true := by simpa using fun e => h e.symm
      simp only [State.core, tWindow, tFab, tTables', List.find?_cons, Core.reset, List.find?_nil]
      cases b <;> simp [Core.buf, this, BufState.reset] <;> rfl

def tHeldPkt : Packet := { tPkt .rstrel 8 with group := 1, count := 8 }
def tSegments : State := { tFab with segments := [⟨0x13, 4, 5, 6, 1, 7, 8, [tHeldPkt]⟩] }
theorem wit_ReleasesPerform : ∃ (s : State) (x : Segment) (p : Packet) (a : Nat),
    x ∈ s.segments ∧ x.held = [p] ∧ p.group ≤ 1 ∧ p.count ≤ x.settled ∧ x.owns p = true ∧
    (∀ y ∈ s.segments, y.src = x.src → y.launch = x.launch → y.team = x.team → y.gang = x.gang → y = x) ∧
    Taken s p (.mem a) ∧ a % p.size = 0 ∧ p.kind = .rstrel := by
  refine ⟨tSegments, ⟨0x13, 4, 5, 6, 1, 7, 8, [tHeldPkt]⟩, tHeldPkt, 0x20040, by decide, rfl, by decide, by decide, by decide,
    fun y hy _ _ _ _ => List.mem_singleton.mp hy, ?_, by decide, rfl⟩
  obtain ⟨h1, h2, h3, h4, h5, h6, h7, h8, h9⟩ :=
    tTaken tSegments ⟨rfl, rfl, rfl, by decide, rfl, rfl⟩ .rstrel 8 (by decide) (by decide +kernel)
  exact ⟨h1, h2, h3, h4, h5, h6, h7, h8, h9⟩

def tHolding : State := { tFab with funcs := modIf (fun _ => true) (fun f => { f with hold := [tPkt .store 8, tPkt .store 4] }) tFab.funcs }
def tForwards : State := { tFab with forwards := [(0x44, 9, 0, 1)] }
theorem wit_MovedRequestsPerform :
    (∃ (s : State) (p : Packet) (a : Nat) (rest : List Packet), a % p.size = 0 ∧ p.kind = .store ∧ s.tileWait = [] ∧ (s.func p.func).hold = p :: rest ∧
      (s.func p.func).migration = none ∧ (s.func p.func).receive = none ∧ Taken (s.modFunc p.func fun f => { f with hold := [] }) p (.mem a)) ∧
    (∃ (s : State) (p q : Packet) (a d f : Nat), a % p.size = 0 ∧ p.kind = .store ∧ s.tileWait = [] ∧
      s.forwards.find? (fun x => x.1 == p.dst && x.2.1 == p.func) = some (p.dst, p.func, d, f) ∧
      q = { p with func := f, dst := s.device, kslot := (s.func f).cfg.kslot } ∧ Taken s q (.mem a) ∧ (s.func f).receive = none) ∧
    ∃ (s : State) (p : Packet) (a : Nat), a % p.size = 0 ∧ p.kind = .store ∧ s.tileWait = [] ∧
      s.forwards.find? (fun x => x.1 == p.dst && x.2.1 == p.func) = none ∧ p.src ≠ s.device := by
  refine ⟨⟨tHolding, tPkt .store 8, 0x20040, _, by decide, rfl, rfl, rfl, rfl, rfl, ?_⟩,
    ⟨tForwards, { tPkt .store 4 with func := 9, dst := 0x44, kslot := 60 }, tPkt .store 4, 0x20040, 0, 1, by decide, rfl, rfl, rfl, by decide, ?_, rfl⟩,
    ⟨tForwards, tPkt .store 4, 0x20040, by decide, rfl, rfl, rfl, by decide⟩⟩
  · exact tTaken (tHolding.modFunc 1 fun f => { f with hold := [] }) ⟨rfl, rfl, rfl, by decide, rfl, rfl⟩ .store 8 (by decide) (by decide +kernel)
  · exact tTaken tForwards ⟨rfl, rfl, rfl, by decide, rfl, rfl⟩ .store 4 (by decide) (by decide +kernel)

/-! ### Hypotheses of the statements on queues, launches and teams -/

def tLaunchBytes (range : Bool) : List Byte :=
  leBytes (1 + 2 ^ 8 + (if range then 2 ^ 16 else 0) + 2 ^ 24 + 2 * 2 ^ 32 + 32 * 2 ^ 40 + 8 * 2 ^ 48 + 4 * 2 ^ 56) 8 ++
    leBytes (3 + 2 * 2 ^ 8 + 2 ^ 16 + 2 ^ 24 + 4 * 2 ^ 32) 8 ++ leBytes 0x20000 8 ++ leBytes 77 8 ++ leBytes 0 16 ++
    (if range then leBytes 5 8 ++ leBytes 50 8 else leBytes 3 8 ++ leBytes 0 8)
/-- A packet of the type, ready, with words from its second on. -/
def tPacket (w0 : Nat) (ws : List Nat) : List Byte := leBytes (w0 + 256) 8 ++ (ws.flatMap fun w => leBytes w 8) ++ leBytes 0 (56 - 8 * ws.length)
def tUserQ (running : List QPacket) : Queue := ⟨7, 0x1000000, 0, false, true, false, 0, 3, true, running, false, 0, 0, 0⟩
/-- Function 1 has one queue: header at 0x1000000, slots from 0x1000040, index 3 in the second slot at 0x1000080; a word at 0x1000140, and
tiles of core 2's AB at 0x20000000. -/
def tQFunc (running : List QPacket) : Func :=
  { Func.reset 1 with s1root := 0x220000, s2root := 0x200000, queues := [tUserQ running], cfg := { FConfig.reset with bays := 1 } }
def tQAt (b : List Byte) (running : List QPacket) : State :=
  { State.reset with
    mem := cellPut (cellPut (cellPut (cellPut (cellPut (cellPut (cellPut tTables.mem 0x230000 (leBytes 0x1F 8)) 0x1000000
      (leBytes 0x1000040 8 ++ leBytes 2 4 ++ leBytes 0 4 ++ leBytes 9 8 ++ leBytes 3 8)) 0x1000080 b) 0x1000140 (leBytes 0x1253 8)) 0x210008
      (leBytes 0x240001 8)) 0x230008 (leBytes 0x2000001F 8)) 0x240000 (leBytes (0xF + 3 * 16 + 2 * 2 ^ 23 + 2 ^ 26) 8)
    funcs := [tQFunc running]
    teams := [tTeam (tg .i32)] }
def tDirectCopy : List Byte := tPacket (2 + 2 * 2 ^ 25) [0x1000100, 0x1000180, 4 + 2 * 2 ^ 24 + 2 ^ 48, 4, 4, 0, 9 * 2 ^ 32]

def tLeads? (r : Except Flt Trans) (a : Nat) : Bool :=
  match r with
  | .ok tr => tr.tgt == .mem a
  | .error _ => false
theorem leadsOf {s : State} {func va n : Nat} {u : Use} {a : Nat} (h : tLeads? (s.qAccess func va n u).1 a = true) : Leads s func va n u a := by
  unfold Leads
  cases hx : (s.qAccess func va n u).1 with
  | error f => rw [hx] at h; exact nomatch h
  | ok tr => rw [hx] at h; exact ⟨tr, rfl, eq_of_beq h⟩

theorem tNoErrors (s : State) (h : s.flips = [] ∧ s.home = [] ∧ s.stack = [] ∧ s.poison = []) : NoErrors s := by
  obtain ⟨h1, h2, h3, h4⟩ := h
  refine ⟨roomy s h2 h3, h1, fun sec => ?_⟩
  simp [State.homePoison, State.stackPoison, findLine, h2, h3, h4]

theorem tAtPacket (s : State) (b : List Byte) (h : s = tQAt b [] ∨ (s = { tQAt b [] with cores := [Core.reset 0] }))
    (hx : (tLeads? (s.qAccess 1 0x1000000 8 .ldacq).1 0x1000000 && tLeads? (s.qAccess 1 0x1000018 8 .strel).1 0x1000018 &&
      (badHeader (s.homeRead 0x1000000 64)).isNone &&
      (leNat (s.homeRead 0x1000000 8) + 64 * (3 % leNat (s.homeRead 0x1000008 4))) % 2 ^ 64 == 0x1000080 &&
      tLeads? (s.qAccess 1 0x1000080 8 .ldacq).1 0x1000080 && tLeads? (s.qAccess 1 0x1000080 8 .store).1 0x1000080 &&
      s.homeRead 0x1000080 64 == b && b.getD 1 0 == 1) = true) : AtPacket s 1 7 3 0x1000000 0x1000080 (tUserQ []) b := by
  simp only [Bool.and_eq_true, beq_iff_eq, Option.isNone_iff_eq_none] at hx
  obtain ⟨⟨⟨⟨⟨⟨⟨h1, h2⟩, h3⟩, h4⟩, h5⟩, h6⟩, h7⟩, h8⟩ := hx
  have hu : ∀ u ∈ [Use.ldacq, Use.store], Leads s 1 0x1000080 8 u 0x1000080 := by
    intro u hm
    rcases List.mem_cons.mp hm with rfl | hm
    · exact leadsOf h5
    · obtain rfl := List.mem_singleton.mp hm
      exact leadsOf h6
  rcases h with rfl | rfl <;>
    exact ⟨rfl, rfl, ⟨rfl, rfl, rfl, rfl, rfl, rfl, rfl, rfl⟩, ⟨rfl, rfl⟩, rfl, (fun c hc => by first | exact absurd hc List.not_mem_nil | (obtain rfl := List.mem_singleton.mp hc; rfl)), tNoErrors _ ⟨rfl, rfl, rfl, rfl⟩,
      ⟨leadsOf h1, leadsOf h2, h3, rfl⟩, fun u hm => by rw [h4]; exact hu u hm, ⟨rfl, by decide⟩, h7, h8, by decide⟩

theorem zeros {b : List Byte} {lo hi : Nat} (h : ((List.range hi).all fun k => decide (k < lo) || b.getD k 0 == 0) = true) :
    ∀ k, lo ≤ k → k < hi → b.getD k 0 = 0 := by
  intro k h1 h2
  have := List.all_eq_true.mp h k (List.mem_range.mpr h2)
  rw [Bool.or_eq_true, decide_eq_true_eq, beq_iff_eq] at this
  exact this.resolve_left (Nat.not_lt.mpr h1)

theorem wit_QueuesTakePackets :
    (∃ (s : State) (func page i h a : Nat) (q : Queue) (b : List Byte),
      AtPacket s func page i h a q b ∧ b.getD 0 0 = 0 ∧ ∀ k, 2 ≤ k → k < 64 → b.getD k 0 = 0) ∧
    (∀ range, ∃ (s : State) (func page i h a : Nat) (q : Queue) (b : List Byte),
      AtPacket s func page i h a q b ∧ b.getD 0 0 = 1 ∧ badLaunch b false = none ∧ s.cannotFit func (launchOf b) = false ∧
      ((launchOf b).range = true → (launchOf b).lo ≠ (launchOf b).hi) ∧ (launchOf b).range = range) ∧
    ∃ (s : State) (func page i h a core : Nat) (q : Queue) (b : List Byte) (ws : List W64),
      AtPacket s func page i h a q b ∧ b.getD 0 0 = 2 ∧ ws = (rangeFrom 0 8).map (fun k => BitVec.ofNat 64 (leField b (8 * k) 8)) ∧
      staticChecks ws = none ∧ (cdescOf ws).skind = 0 ∧ (cdescOf ws).dkind = 0 ∧ s.clusterChecks none ws = none ∧
      (s.func func).hasBay (core / 8) = true ∧ core / 8 < 80 ∧ (s.core core).outOfUse = false ∧ (s.core core).copies.length < 16 ∧
      (s.core core).locks.length ≤ 62 ∧ ∀ why, s.ahead core s.fresh why = 0 := by
  refine ⟨⟨tQAt (tPacket 0 []) [], 1, 7, 3, _, _, _, _, tAtPacket _ _ (.inl rfl) (by decide +kernel), by decide, zeros (by decide +kernel)⟩, fun range => ?_,
    ⟨tQAt tDirectCopy [], 1, 7, 3, _, _, 7, _, _, _, tAtPacket _ _ (.inl rfl) (by decide +kernel), by decide, rfl, by decide +kernel,
      by decide +kernel, by decide +kernel, by decide +kernel, by decide, by decide, rfl, by decide, by decide, fun _ => rfl⟩⟩
  cases range
  · exact ⟨tQAt (tLaunchBytes false) [], 1, 7, 3, _, _, _, _, tAtPacket _ _ (.inl rfl) (by decide +kernel), by decide, by decide +kernel,
      by decide +kernel, by decide +kernel, by decide +kernel⟩
  · exact ⟨tQAt (tLaunchBytes true) [], 1, 7, 3, _, _, _, _, tAtPacket _ _ (.inl rfl) (by decide +kernel), by decide, by decide +kernel,
      by decide +kernel, by decide +kernel, by decide +kernel⟩

def tWaitTile : List Byte := tPacket 3 [0x20003000, 2]
def tWaitVal : List Byte := tPacket (4 + 3 * 2 ^ 16) [0x1000140, 0x55, 0xFF]
theorem tWaits (p : QPacket) : Waits (tQAt [] [p]) 1 7 (tUserQ [p]) p :=
  ⟨rfl, rfl, rfl, rfl, (fun _ h => nomatch h), rfl, tNoErrors _ ⟨rfl, rfl, rfl, rfl⟩⟩

theorem wit_QueuesWait :
    (∃ (s : State) (func page i h a core off sl n : Nat) (k : Buf) (tr : Trans) (q : Queue) (b : List Byte),
      AtPacket s func page i h a q b ∧ b.getD 0 0 = 3 ∧ (∀ j, 2 ≤ j → j < 8 → b.getD j 0 = 0) ∧ (∀ j, 18 ≤ j → j < 64 → b.getD j 0 = 0) ∧
      n = leField b 16 2 ∧ 0 < n ∧ n ≤ 192 ∧ addrOk (BitVec.ofNat 64 (leField b 8 8)) = true ∧
      (s.translate func (gvaOf (BitVec.ofNat 64 (leField b 8 8))) .read .copy).1 = .ok tr ∧ tr.tgt = .buf core k off sl ∧
      off / tileSize k + n ≤ bufSize k / tileSize k) ∧
    (∃ (s : State) (func page i h a w : Nat) (q : Queue) (b : List Byte),
      AtPacket s func page i h a q b ∧ b.getD 0 0 = 4 ∧ leField b 2 1 ≤ 3 ∧ (∀ j, 3 ≤ j → j < 8 → b.getD j 0 = 0) ∧ leField b 8 8 % 8 = 0 ∧
      (∀ j, 32 ≤ j → j < 64 → b.getD j 0 = 0) ∧ Leads (started s func i h a) func (leField b 8 8) 8 .ldacq w) ∧
    ∃ (s : State) (func page w : Nat) (q : Queue) (p : QPacket),
      Waits s func page q p ∧ p.type = 4 ∧ Leads s func (leField p.bytes 8 8) 8 .ldacq w :=
  ⟨⟨tQAt tWaitTile [], 1, 7, 3, _, _, 2, 0x3000, 0x10000, 2, .ab, ⟨0x20003000, .buf 2 .ab 0x3000 0x10000, .rel, 0⟩, _, _,
      tAtPacket _ _ (.inl rfl) (by decide +kernel), by decide, zeros (by decide +kernel), zeros (by decide +kernel), by decide +kernel, by decide,
      by decide, by decide +kernel, okIs (by decide +kernel), rfl, by decide +kernel⟩,
    ⟨tQAt tWaitVal [], 1, 7, 3, _, _, 0x1000140, _, _, tAtPacket _ _ (.inl rfl) (by decide +kernel), by decide, by decide +kernel,
      zeros (by decide +kernel), by decide +kernel, zeros (by decide +kernel), leadsOf (by decide +kernel)⟩,
    ⟨_, _, _, 0x1000140, _, _, tWaits ⟨9, 4, tWaitVal, true, none⟩, rfl, leadsOf (by decide +kernel)⟩⟩

theorem wit_WaitConditions : ∀ c, c < 4 → leField (tPacket (4 + c * 2 ^ 16) [0x1000140, 0x55, 0xFF]) 2 1 = c := by decide +kernel

theorem wit_QueuesSignal :
    (∀ add, add < 2 → ∃ (s : State) (func page w : Nat) (q : Queue) (p : QPacket),
      Waits s func page q p ∧ w % 8 = 0 ∧ p.type = 5 ∧ leField p.bytes 2 1 = add ∧
      Leads s func (leField p.bytes 8 8) 8 (if add = 0 then .strel else .atomic 4) w) ∧
    ∃ (s : State) (func page w : Nat) (q : Queue) (p : QPacket),
      Waits s func page q p ∧ w % 8 = 0 ∧ p.type = 6 ∧ p.slot + 1 < 2 ^ 64 ∧ Leads s func (leField p.bytes 8 8) 8 .strel w := by
  refine ⟨fun add h => ?_, ⟨_, _, _, 0x1000140, _, _, tWaits ⟨9, 6, tPacket 6 [0x1000140, 7], false, none⟩, rfl, rfl, by decide,
    leadsOf (by decide +kernel)⟩⟩
  rcases add with _ | _ | _
  · exact ⟨_, _, _, 0x1000140, _, _, tWaits ⟨9, 5, tPacket 5 [0x1000140, 7], false, none⟩, rfl, rfl, by decide +kernel,
      leadsOf (by decide +kernel)⟩
  · exact ⟨_, _, _, 0x1000140, _, _, tWaits ⟨9, 5, tPacket (5 + 2 ^ 16) [0x1000140, 7], false, none⟩, rfl, rfl, by decide +kernel,
      leadsOf (by decide +kernel)⟩
  · omega

theorem wit_DoorbellsRing : ∃ (s : State) (func page : Nat) (q : Queue), (s.func func).queues = [q] ∧ q.page = page ∧ page ≤ 4095 :=
  ⟨tQAt [] [], 1, 7, _, rfl, rfl, by decide⟩

def tLaunchRec (range : Bool) (q : Option (Nat × Nat)) (next : Nat) : Launch :=
  ⟨1, 1, q, some (7, 2), 0, 0, launchOf (tLaunchBytes range), next, next, 0, 0, 0, true⟩
def tOfLaunch (f : Team → Team) : Team := f (tTeam (tg .i32))
def tPlacing (range : Bool) (ts : List Team) : State :=
  { tQAt (tLaunchBytes false) [] with launches := [tLaunchRec range none 1], teams := ts, launchCount := 6 }

theorem wit_TeamsStart :
    (∃ (s : State) (l : Launch) (core : Nat),
      s.launch? l.id = some l ∧ (∀ x ∈ s.launches, x.id = l.id → x = l) ∧ 0 < l.pkt.quotav ∧ l.pkt.quotav ≤ 64 ∧ l.pkt.quotas ≤ 64 ∧
      s.dispatchNext l.func = some l ∧ s.clusterFits l.func (core / 8) [core] l.pkt = true ∧ (l.nextCluster ≠ 0 ∨ l.queue = none) ∧
      (s.func l.func).recmode = none) ∧
    ∃ (s : State) (l : Launch) (core : Nat) (x : Team) (lo hi : Nat),
      s.launch? l.id = some l ∧ (∀ x ∈ s.launches, x.id = l.id → x = l) ∧ 0 < l.pkt.quotav ∧ l.pkt.quotav ≤ 64 ∧ l.pkt.quotas ≤ 64 ∧
      l.pkt.range = true ∧ l.pkt.teams = 1 ∧ (s.func l.func).recmode = none ∧ (s.func l.func).frozen = false ∧
      (s.func l.func).hasBay (core / 8) = true ∧ (s.fits core l.pkt).isSome = true ∧ s.teams = [x] ∧ x.launch = l.id ∧
      x.cur = BitVec.ofNat 64 lo ∧ x.stop = BitVec.ofNat 64 hi ∧ lo + 2 ≤ hi ∧ hi < 2 ^ 64 :=
  ⟨⟨tPlacing false [], tLaunchRec false none 1, 5, rfl, fun x h _ => List.mem_singleton.mp h, by decide +kernel, by decide +kernel,
      by decide +kernel, by decide +kernel, by decide +kernel, .inl (by decide), rfl⟩,
    ⟨tPlacing true [tOfLaunch fun t => { t with range := true, cur := 10, stop := 12 }], tLaunchRec true none 1, 5, _, 10, 12, rfl,
      fun x h _ => List.mem_singleton.mp h, by decide +kernel, by decide +kernel, by decide +kernel, by decide +kernel, by decide +kernel, rfl, rfl,
      by decide, by decide +kernel, rfl, rfl, by decide, by decide, by decide, by decide⟩⟩

def tEnding (st : TSt) (sn : Nat) : Team := tOfLaunch fun t => { t with st := st, sn := sn, slist := 0x1000080 }
theorem wit_TeamsEnd :
    (∀ sn, sn < 2 → ∃ (s : State) (t : Team) (l : Launch), s.team? t.launch t.num = some t ∧ s.launch? t.launch = some l ∧ t.st = .ending ∧
      (∀ g ∈ t.gangs, g.stq = [] ∧ s.fabricOpen t.launch t.num g.idx = false) ∧ t.openSegs = 0 ∧ (s.core t.core).fifo = [] ∧ t.sn = sn ∧
      t.faulted = false) ∧
    (∃ (s : State) (t : Team) (l : Launch) (f : FifoEntry) (ln : Line), s.team? t.launch t.num = some t ∧ s.launch? t.launch = some l ∧
      t.st = .ending ∧ (∀ g ∈ t.gangs, g.stq = [] ∧ s.fabricOpen t.launch t.num g.idx = false) ∧ t.openSegs = 0 ∧
      (s.core t.core).fifo = [f] ∧ Cached s t.core f.line ln ∧ Roomy s) ∧
    ∃ (s : State) (t : Team) (l : Launch) (a : Nat) (tr : Trans), s.team? t.launch t.num = some t ∧ s.launch? t.launch = some l ∧
      t.st = .reading ∧ t.sn = 1 ∧ s.pageReqs = [] ∧ NoErrors s ∧ addrOk (BitVec.ofNat 64 t.slist) = true ∧
      (s.translate t.func (gvaOf (BitVec.ofNat 64 t.slist)) .read (.thread 8)).1 = .ok tr ∧ tr.tgt = .mem a ∧ a % 64 = 0 ∧
      s.checkTail schedulerCore t.func .ldacq t.slist 64 tr = none ∧
      badLaunch (s.homeRead a 64) true = none ∧ s.cannotFit t.func (launchOf (s.homeRead a 64)) = false ∧
      (launchOf (s.homeRead a 64)).inPlace = false ∧ s.launches = [l] ∧ l.parent = 0 ∧ l.id ≠ s.launchId ∧ l.id ≠ 0 ∧ l.queue = none := by
  refine ⟨fun sn h => ?_,
    ⟨{ tPlacing false [tEnding .ending 0] with cores := [{ Core.reset 0 with cache := [tDirty], fifo := [⟨1024, 4⟩] }] }, tEnding .ending 0, _, _,
      tDirty, rfl, rfl, rfl, by decide, rfl, rfl, ⟨rfl, rfl⟩, roomy _ rfl rfl⟩,
    ⟨tPlacing false [tEnding .reading 1], tEnding .reading 1, _, 0x1000080, tTrans 0x1000080, rfl, rfl, rfl, rfl, rfl,
      tNoErrors _ ⟨rfl, rfl, rfl, rfl⟩, by decide, okIs (by decide +kernel), rfl, rfl,
      by decide +kernel, by decide +kernel, by decide +kernel, by decide +kernel, rfl, rfl, by decide, by decide, rfl⟩⟩
  exact ⟨tPlacing false [tEnding .ending sn], tEnding .ending sn, _, rfl, rfl, rfl, (fun g hg => by
    obtain rfl := List.mem_singleton.mp hg
    exact ⟨rfl, rfl⟩), rfl, rfl, rfl, rfl⟩

theorem wit_LaunchesComplete : ∃ (s : State) (l : Launch) (page i : Nat) (q : Queue) (p : QPacket),
    s.launches = [l] ∧ l.pkt.clusters ≤ l.nextCluster ∧ l.left = 0 ∧ l.succ = 0 ∧ (∀ t ∈ s.teams, t.launch ≠ l.id) ∧ l.queue = some (page, i) ∧
    (s.func l.func).queues = [q] ∧ q.page = page ∧ q.running = [p] ∧ p.slot = i :=
  ⟨{ tQAt [] [⟨9, 1, [], false, none⟩] with launches := [tLaunchRec false (some (7, 9)) 4], teams := [] }, _, 7, 9, _, _, rfl, by decide +kernel, rfl,
    rfl, (fun _ h => nomatch h), rfl, rfl, rfl, rfl, rfl⟩

/-! ### Hypotheses of the statements on remote fences, reports, rollback and resets -/

/-- The page at 0x20000 is the window of virtual device 0, from 0x770000 there. -/
def tPeer : State :=
  { tFab with cores := [{ Core.reset 0 with tlb := [⟨1, 2, false, codeLeaf1, 2, 0x77001F, 2⟩] }] }

theorem wit_RemoteFencesBegin : ∃ (s : State) (c : Cur) (t : Team) (g : Gang) (e : Entry) (a : Opnd) (wide : Bool) (v gpa n va : Nat) (tr : Trans)
    (to_ : Dest), Acts s c t g ∧ Claims.Begins s c g e ∧ e.setB < 12 ∧ g.flag e.setB < 63 ∧ g.flags.length = 12 ∧ g.ops = [] ∧ g.stq = [] ∧
    (s.core t.core).reqs = [] ∧ n = (if wide then 8 else 4) ∧ va = (g.uniOp a).toNat ∧ s.verdict t.core t.func .rfence va n = .ok tr ∧
    tr.tgt = .peer v gpa ∧ tr.ty ≠ .seq ∧ s.resolve t.func v = .ok to_ :=
  ⟨tOn tPeer (tTeam (tg .i32)) tCur, tCur, _, tg .i32, tEntry, tb, true, 0, 0x770000, 8, 0x20000, ⟨0x20000, .peer 0 0x770000, .rel, 0⟩, ⟨0x12, 9, 5, 6⟩,
    actsAll tPeer _, ⟨rfl, rfl, rfl, (fun _ h => nomatch h), by decide⟩, by decide, by decide, rfl, rfl, rfl, rfl, rfl, by decide,
    by decide +kernel, rfl, (show PType.rel ≠ .seq by decide), resolves (by decide +kernel)⟩

def tRing : Ring := ⟨0x1000000, 6, true, 65, 3, 9⟩
def tRecord : Record := ⟨1, .perm, 3, 1, 5, 6, 7, 8, 9, 10, 11, 12, 13, 14, .rw, false, some (7, 4), none, false⟩
def tReport : Func := { tQFunc [] with rings := [tRing, tRing, tRing], pend := [tRecord, { tRecord with ring := 2 }] }
def tStopped : Team :=
  tOfLaunch fun t => { t with stopped := true, gangs := [tFront [{ tEntry with st := .stalled .resume }, tMate 0x20040 .reconv]] }

theorem wit_ReportsAndReplies :
    (∃ (s : State) (func : Nat) (x : Func) (r : Record) (rest : List Record) (z : Ring), s.funcs = [x] ∧ x.id = func ∧ func < 64 ∧
      x.pend = r :: rest ∧ s.reportRound = [] ∧ s.flips = [] ∧ Roomy s ∧ r.corrupt = false ∧ x.rings[r.ringOf]? = some z ∧ z.free = true ∧
      (∀ y ∈ rest, x.takes y = true ∨ y.waited = true) ∧ (z.base + 64 * (z.wr % 2 ^ z.k)) % 64 = 0 ∧
      inDevice (z.base + 64 * (z.wr % 2 ^ z.k)) = true ∧
      ∃ page slot, r.queue = some (page, slot) ∧ r.func = func ∧ r.ring = 1 ∧ classOf r.code = .terminal ∧ ∃ q, s.queue? func page = some q) ∧
    (∃ (s : State) (func : Nat) (x : Func) (r : Record) (rest : List Record), s.func func = x ∧ func ∈ s.funcs.map (·.id) ∧ 0 < func ∧
      func < 64 ∧ x.pend = r :: rest ∧ r.func = func ∧ r.ring ≠ 3 ∧ r.corrupt = true ∧ x.takes r = true ∧
      (∀ y ∈ rest, x.takes y = true ∨ y.waited = true) ∧ s.reportRound = [func]) ∧
    (∃ (s : State) (func : Nat) (t : Team), s.team? t.launch t.num = some t ∧ t.func = func ∧ t.stopped = true ∧ t.num < 2 ^ 32 ∧
      ∀ x ∈ s.teams, x.func = func → x.stopped = true → x.num = t.num → x.launch % 2 ^ 32 = t.launch % 2 ^ 32 → x = t) ∧
    ∃ (s : State) (func q : Nat), s.bringUp = 5 ∧ (s.func func).svcSeq = some q ∧ (∃ y ∈ (s.func func).svcWait, y.1 = q) ∧
      ∀ y ∈ (s.func func).svcGot, y.1 ≠ q :=
  ⟨⟨{ State.reset with funcs := [tReport] }, 1, tReport, tRecord, _, tRing, rfl, rfl, by decide, rfl, rfl, rfl, roomy _ rfl rfl, rfl, rfl, by decide, by decide +kernel,
      by decide, by decide, 7, 4, rfl, rfl, rfl, rfl, _, rfl⟩,
    ⟨{ State.reset with funcs := [{ tReport with pend := [{ tRecord with corrupt := true }] }], reportRound := [1] }, 1, _, _, _, rfl, by decide,
      by decide, by decide, rfl, rfl, by decide, rfl, by decide +kernel, by decide, rfl⟩,
    ⟨tOn State.reset tStopped tCur, 1, tStopped, rfl, rfl, rfl, by decide, fun x h _ _ _ _ => List.mem_singleton.mp h⟩,
    ⟨{ State.reset with bringUp := 5, funcs := [{ tQFunc [] with svcSeq := some 7, svcWait := [(5, (1, 0, 0, 3)), (7, (1, 0, 0, 4))], svcGot := [(5, 55)] }] },
      1, 7, rfl, rfl, by decide, by decide⟩⟩

def tRolled (bays : BitVec 80) : State :=
  { tPlacing false [tEnding .running 0] with funcs := [{ tQFunc [] with cfg := { FConfig.reset with bays := bays } }] }
theorem wit_PartitionsRecover :
    (∀ bay, bay < 2 → ∃ (s : State) (l : Launch) (t : Team) (k : Nat), s.launch? t.launch = some l ∧ s.teams = [t] ∧ t.st ≠ .waiting ∧
      t.launch = l.id ∧ (s.func l.func).frozen = false ∧
      0 < l.pkt.teams ∧ t.cluster = t.num / l.pkt.teams ∧ 0 < l.pkt.quotav ∧ l.pkt.quotav ≤ 64 ∧ l.pkt.quotas ≤ 64 ∧
      (bay ≠ bayOf t.core ∧ k = 8 * bay + t.core % 8 ∨ (s.func l.func).bayList = [bayOf t.core] ∧ bay = bayOf t.core ∧ k = t.core) ∧
      (s.pullTeam t).clusterFits l.func bay [k] l.pkt = true) ∧
    (∃ (s : State) (l : Launch) (t : Team), s.launch? t.launch = some l ∧ s.teams = [t] ∧ t.st ≠ .waiting ∧ t.launch = l.id ∧ 0 < l.pkt.teams ∧
      (∀ k, k < 640 → (s.func l.func).hasBay (bayOf k) = true → (s.pullTeam t).fits k l.pkt = none) ∧
      (s.pullTeam t).cannotFit l.func l.pkt = false) ∧
    ∃ (s : State) (func : Nat), s.pendingWork func = true ∧ (s.func func).retired + 100000 * 2250 ≤ s.now ∧ func ≠ 0 ∧
      ∀ q ∈ (s.func func).queues, q.seen = false := by
  refine ⟨fun bay h => ?_, ⟨{ tRolled 1 with cores := (rangeFrom 0 8).map (fun k => { Core.reset k with poolV := 0 }), teams := [{ tEnding .running 0 with gangs := [] }] }, tLaunchRec false none 1, _, rfl,
    rfl, by decide, rfl, by decide +kernel, by decide +kernel, by decide +kernel⟩, ⟨{ tRolled 1 with funcs := [{ tQFunc [] with queues := [] }], now := 100000 * 2250 }, 1, by decide +kernel, by decide,
    by decide, (fun _ h => nomatch h)⟩⟩
  rcases bay with _ | _ | _
  · exact ⟨tRolled 1, tLaunchRec false none 1, _, 0, rfl, rfl, by decide, rfl, rfl, by decide +kernel, by decide +kernel, by decide +kernel, by decide +kernel,
      by decide +kernel, .inr ⟨by decide +kernel, rfl, rfl⟩, by decide +kernel⟩
  · exact ⟨tRolled 3, tLaunchRec false none 1, _, 8, rfl, rfl, by decide, rfl, rfl, by decide +kernel, by decide +kernel, by decide +kernel, by decide +kernel,
      by decide +kernel, .inl ⟨by decide, rfl⟩, by decide +kernel⟩
  · omega

/-! ### Hypotheses of the statements on pre-emption, images, invalidations, migration, checkpoints, record and replay -/

/-- Bring-up is over, and MARG0 to MARG3 of function 1 hold these; a range table of one entry stands at 0x400000. -/
def tCmd (f : Func → Func) (margs : List W64) : State :=
  { State.reset with
    mem := cellPut (cellPut [] 0x400000 (leBytes 0x1000000 8 ++ leBytes 0x20000 8)) 0x300010 (leBytes (1 + 0x12 * 16 + 9 * 4096) 8)
    bringUp := 5
    grid := 0x1133
    vdntab := 0x300000
    now := 40000 * 2250
    funcs := [f { Func.reset 1 with margs := margs, cfg := { FConfig.reset with bays := 1 } }] }
theorem tTableIs {s : State} (h : (decide ([(0x1000000, 0x20000)] =
    (rangeFrom 0 1).map fun k => (leNat (s.homeRead (0x400000 + 16 * k) 8), leNat (s.homeRead (0x400000 + 16 * k + 8) 8)))) = true) :
    TableOf s 0x400000 1 [(0x1000000, 0x20000)] :=
  ⟨⟨by decide, by decide, by decide⟩, of_decide_eq_true h, by decide⟩

/-- An image by 14 Tables 14-6 to 14-9: header, launch 1, team 0 of one gang of 32 lanes, and the gang, with one entry of 8 lanes at 0x20000. -/
def tImageWords : List Nat :=
  [0x4000000001, 0x401010001, 1168] ++ List.replicate 5 0 ++
    [0x7000000002, 1, 0, 2 ^ 32, 1, 0, 0x0408200201000101, 0x401010203, 0x20000, 77, 0, 0, 3, 0] ++
    [0x23800000003, 1, 0, 0x1000200100] ++ List.replicate 67 0 ++ [0x1A800000004, 0x40400100] ++ List.replicate 49 0 ++ [0x20000, 0x80000000FF]
def tImage : List Byte := tImageWords.flatMap fun w => leBytes w 8
def tVacant : State := { tQAt [] [] with teams := [] }
theorem tCleanCores (s : State) (func : Nat) (h : ∀ c ∈ s.cores, c.cache = []) : Clean s func := fun c hc _ => h c hc
def tFrozen (f : Func) : Func := { f with frozen := true }

theorem wit_PartitionsStopAndReturn :
    (∃ (s : State) (func : Nat), (s.func func).frozen = true ∧ (s.func func).image = none ∧ (s.func func).migration = none ∧
      (s.func func).checkpoint = none ∧ s.quiescent func = true ∧ Clean s func ∧ ∃ t ∈ s.teams, t.func = func) ∧
    (∃ (s : State) (func : Nat) (img : List Byte), (s.func func).frozen = false ∧ s.checkedImage func img = none) ∧
    ∃ (s : State) (func : Nat) (img h r2 r3 r4 : List Byte) (bay k : Nat), s.checkedImage func img = some [h, r2, r3, r4] ∧ leField h 0 2 = 1 ∧
      leField r2 0 2 = 2 ∧ leField r3 0 2 = 3 ∧ leField r4 0 2 = 4 ∧ leField r2 16 8 = 0 ∧ leField r2 40 8 = 0 ∧
      (∀ l ∈ s.launches, l.id ≠ leField r2 8 8) ∧ (∀ t ∈ s.teams, t.launch ≠ leField r2 8 8) ∧ leField r3 8 8 = leField r2 8 8 ∧
      leField r3 25 1 = 1 ∧ leField r3 57 1 = 0 ∧ (∀ j, j < 8 → leField r3 (88 + 8 * j + 1) 1 = 0) ∧ leField r4 8 1 = 0 ∧ leField r4 9 1 = 1 ∧
      leField r4 (408 + 13) 1 = 0 ∧ bay < 80 ∧ (s.func func).hasBay bay = true ∧ k = 8 * bay + leField r3 61 1 % 8 ∧
      (∀ t ∈ s.teams, t.core ≠ k) ∧ (s.core k).outOfUse = false ∧ 256 ≤ (s.core k).poolV ∧ 256 ≤ (s.core k).poolS ∧
      leField r3 29 1 ≤ 192 ∧ leField r3 30 1 ≤ 192 ∧ leField r3 31 1 ≤ 16 ∧ leField r3 27 1 ≤ 8 := by
  refine ⟨⟨{ tQAt [] [] with funcs := [tFrozen (tQFunc [])] }, 1, rfl, rfl, rfl, rfl, by decide +kernel, tCleanCores _ _ (fun _ h => nomatch h),
      ⟨_, List.mem_singleton.mpr rfl, rfl⟩⟩, ⟨tQAt [] [], 1, [1, 2], rfl, by decide +kernel⟩, ?_⟩
  let r2 := (tImage.drop 64).take 112
  let r3 := (tImage.drop 176).take 568
  exact ⟨tVacant, 1, tImage, tImage.take 64, r2, r3, tImage.drop 744, 0, 0, by decide +kernel, by decide +kernel, by decide +kernel,
    by decide +kernel, by decide +kernel, by decide +kernel, by decide +kernel, (fun _ h => nomatch h), (fun _ h => nomatch h), by decide +kernel,
    by decide +kernel, by decide +kernel, by decide +kernel, by decide +kernel, by decide +kernel, by decide +kernel, by decide, by decide,
    by decide +kernel, (fun _ h => nomatch h), rfl, by decide, by decide, by decide +kernel, by decide +kernel, by decide +kernel,
    by decide +kernel⟩

def tInvFence : TFence := ⟨9, some 1, [], [], [], [], [], none⟩
theorem wit_TranslationsAreDropped :
    (∃ (s : State) (l tn k : Nat) (t : Team) (g : Gang), s.team? l tn = some t ∧ t.gangs[k]? = some g ∧
      ∃ e ∈ g.frontier, e.st = .stalled .hostRead) ∧
    (∃ (s s' : State) (func : Nat) (t : Team) (g : Gang) (x : StqEntry) (e : Elem),
      (s.tfences = [] ∧ (∀ t ∈ s.teams, t.func = func → ∀ g ∈ t.gangs, g.ops = [] ∧ g.stq = []) ∧
        ∀ c ∈ s.cores, c.fifo = [] ∧ ∀ r ∈ c.reqs, r.func ≠ func) ∧
      s'.tfences = [] ∧ s'.team? t.launch t.num = some t ∧ t.core < 640 ∧ t.func = func ∧ t.gangs[g.idx]? = some g ∧ x ∈ g.stq ∧ e ∈ x.elems ∧
        e.st = .pending ∧ ∀ c ∈ s'.cores, c.fifo = []) ∧
    (∃ (s : State) (func : Nat) (v v' v'' : W64), Ready s ∧ (s.func func).invCmd.getLsbD 63 = false ∧ v.toNat / 2 ^ 38 = 0 ∧ v.toNat % 2 ^ 32 = 0 ∧
      v'.toNat / 2 ^ 38 = 0 ∧ v'.toNat % 2 ^ 32 ≠ 0 ∧ v''.toNat / 2 ^ 38 ≠ 0) ∧
    ∃ (s : State) (func : Nat) (f : TFence), s.tfences.find? (fun x => x.func == some func) = some f ∧ s.fenceOpen f = false ∧ f.cores = [] :=
  ⟨⟨tState (tFront [tMate 0x20040 .ready, { tEntry with st := .stalled .hostRead }]), 1, 0, 0, _, _, rfl, rfl, _,
      List.mem_cons_of_mem _ (List.mem_singleton.mpr rfl), rfl⟩,
    ⟨tState (tg .i32), tStoring [tNext], codeFunc, tTeam (tQueued [tNext]), tQueued [tNext], tNext, tStored .rel (.mem 0x20040), ⟨rfl, by decide, (fun _ h => nomatch h)⟩, rfl,
      rfl, by decide, rfl, rfl, List.mem_singleton.mpr rfl, List.mem_singleton.mpr rfl, rfl, (fun _ h => nomatch h)⟩,
    ⟨tCmd id [], 1, 0x100000000, 0x3F00000001, 0x4000000000, rfl, by decide, by decide, by decide, by decide, by decide, by decide⟩,
    ⟨{ tCmd id [] with tfences := [tInvFence] }, 1, tInvFence, rfl, by decide +kernel, rfl⟩⟩

def tMoving (phase round last : Nat) (f : Func) : Func := { f with migration := some ⟨0x22, 3, [(0x1000000, 0x20000)], round, last, 0, phase⟩ }
def tStartArgs : List W64 := [0x305, 0x400000, 1, 7]

theorem wit_MigrationCommands :
    (∃ (s : State) (func : Nat) (l : List (Nat × Nat)), Ready s ∧
      TableOf s ((s.func func).margs.getD 1 0).toNat ((s.func func).margs.getD 2 0).toNat l ∧ Still (s.func func)) ∧
    (∃ (s : State) (func : Nat) (l : List (Nat × Nat)), Ready s ∧
      TableOf s ((s.func func).margs.getD 1 0).toNat ((s.func func).margs.getD 2 0).toNat l ∧ (s.func func).migration ≠ none) ∧
    (∃ (s s' : State) (func : Nat), Ready s ∧ ((s.func func).margs.getD 2 0).toNat = 0 ∧ Ready s' ∧ 256 < ((s'.func func).margs.getD 2 0).toNat) ∧
    (∃ (s s' : State) (func : Nat) (m m' : Migration), (Ready s ∧ (s.func func).frozen = false ∧ (s.func func).migration = some m ∧ m.phase = 0 ∧
        0 < m.round ∧ m.last ≤ 524288) ∧
      Ready s' ∧ (s'.func func).frozen = false ∧ (s'.func func).migration = some m' ∧ m'.phase = 0 ∧ 524288 < m'.last) ∧
    (∃ (s : State) (func : Nat), Ready s ∧ (s.func func).migration = none ∧ (s.func func).frozen = false) ∧
    (∃ (s : State) (func : Nat) (l : List (Nat × Nat)), Ready s ∧
      TableOf s ((s.func func).margs.getD 2 0).toNat ((s.func func).margs.getD 3 0).toNat l ∧ Still (s.func func) ∧
      ((s.func func).margs.getD 0 0).toNat % 2 ^ 30 = 0 ∧ ((s.func func).margs.getD 0 0).toNat + 2 ^ 30 ≤ 0xC000000000 ∧ s.forwards.length < 64) ∧
    ∃ (s s' : State) (func : Nat) (m : Mirror), (Ready s ∧ (s.func func).mirror = some m ∧ m.until_ ≤ s.now) ∧
      Ready s' ∧ (s'.func func).mirror = some m ∧ s'.now < m.until_ :=
  ⟨⟨tCmd id tStartArgs, 1, _, rfl, tTableIs (by decide +kernel), ⟨rfl, rfl, rfl⟩⟩,
    ⟨tCmd (tMoving 0 0 0) tStartArgs, 1, _, rfl, tTableIs (by decide +kernel), by decide⟩,
    ⟨tCmd id [0, 0, 0, 0], tCmd id [0, 0, 257, 0], 1, rfl, rfl, rfl, by decide⟩,
    ⟨tCmd (tMoving 0 1 524288) [], tCmd (tMoving 0 1 524289) [], 1, _, _, ⟨rfl, rfl, rfl, rfl, by decide, by decide⟩, rfl, rfl, rfl, rfl, by decide⟩,
    ⟨tCmd id [], 1, rfl, rfl, rfl⟩,
    ⟨tCmd id [0x40000000, 0x305, 0x400000, 1], 1, _, rfl, tTableIs (by decide +kernel), ⟨rfl, rfl, rfl⟩, by decide, by decide, by decide⟩,
    ⟨tCmd (fun f => { f with mirror := some ⟨1, 2, 90000000⟩ }) [], { tCmd (fun f => { f with mirror := some ⟨1, 2, 90000000⟩ }) [] with now := 89999999 },
      1, _, ⟨rfl, rfl, by decide⟩, rfl, rfl, by decide⟩⟩

/-- Empty caches have room for the range of these tests. -/
theorem tRoomyFor (s : State) (h : s.home = []) (k : s.stack = []) (f : s.flips = []) : RoomyFor s [(0x1000000, 0x20000)] := by
  refine ⟨(roomy s h k).whole, f, ?_, ?_⟩ <;> rw [h] <;> (try rw [k]) <;> decide

theorem wit_MigrationProceeds :
    (∀ ph, ph = 0 ∨ ph = 2 ∨ ph = 3 → ∀ r, ∃ (s : State) (func : Nat) (m : Migration),
      (s.func func).migration = some m ∧ m.dev ≠ s.device ∧ RoomyFor s m.ranges ∧ m.phase = ph ∧ m.round = r) ∧
    (∃ (s s' : State) (func : Nat) (m : Migration), ((s.func func).migration = some m ∧ m.dev ≠ s.device ∧ RoomyFor s m.ranges ∧ m.phase = 1 ∧
        s.quiescent func = true ∧ Clean s func ∧ (∀ d ∈ s.dies, d.fifo = []) ∧ s.reds = []) ∧
      (s'.func func).migration = some m ∧ m.dev ≠ s'.device ∧ RoomyFor s' m.ranges ∧ s'.quiescent func = false) ∧
    ∃ (s s' : State) (func : Nat) (m : Migration), ((s.func func).migration = some m ∧ m.dev ≠ s.device ∧ RoomyFor s m.ranges ∧ m.phase = 4 ∧
        (s.func func).cfg.vlimit = 0) ∧
      (s'.func func).migration = some m ∧ m.dev ≠ s'.device ∧ RoomyFor s' m.ranges ∧ Roomy s' ∧ (s'.func func).cfg.vlimit = 1 ∧ m.dev < 256 ∧ m.func < 64 ∧
      inDevice (s'.vdnAddr func 0) = true ∧ leNat (s'.homeRead (s'.vdnAddr func 0) 8) % 2 = 1 ∧
      leNat (s'.homeRead (s'.vdnAddr func 0) 8) / 256 % 16 * 16 + leNat (s'.homeRead (s'.vdnAddr func 0) 8) / 16 % 16 = s'.device ∧
      leNat (s'.homeRead (s'.vdnAddr func 0) 8) / 4096 % 64 = func :=
  ⟨fun ph _ r => ⟨tCmd (tMoving ph r 4) [], 1, _, rfl, (show (0x22 : Nat) ≠ (tCmd id []).device by decide),
      tRoomyFor _ rfl rfl rfl, rfl, rfl⟩,
    ⟨tCmd (tMoving 1 2 4) [], { tCmd (tMoving 1 2 4) [] with teams := [tEnding .ending 0] }, 1, _,
      ⟨rfl, by decide, tRoomyFor _ rfl rfl rfl, rfl, by decide +kernel, tCleanCores _ _ (fun _ h => nomatch h), (fun _ h => nomatch h), rfl⟩, rfl,
      by decide, tRoomyFor _ rfl rfl rfl, by decide +kernel⟩,
    ⟨tCmd (tMoving 4 2 4) [],
      { tCmd (fun f => tMoving 4 2 4 { f with cfg := { f.cfg with vlimit := 1, vbase := 2 } }) [] with
        mem := cellPut [] 0x300010 (leBytes (1 + 0x11 * 16 + 1 * 4096 + 5 * 2 ^ 18 + 255 * 2 ^ 24) 8) }, 1, _,
      ⟨rfl, by decide, tRoomyFor _ rfl rfl rfl, rfl, rfl⟩, rfl, by decide, tRoomyFor _ rfl rfl rfl, roomy _ rfl rfl, rfl, by decide, by decide,
      by decide +kernel, by decide +kernel, by decide +kernel,
      by decide +kernel⟩⟩

def tArmed (k : Checkpoint) (f : Func) : Func := { f with checkpoint := some k }
def tPoint : Checkpoint := ⟨0x500000, [(0x1000000, 0x20000)], some 5, none, 0, some 3, [], none, false⟩
def tReached (b : Bool) : Team := tTeam { tg .i32 with reachedStep := b }

theorem wit_CheckpointsAreTaken :
    (∃ (s : State) (func : Nat) (l : List (Nat × Nat)), Ready s ∧
      TableOf s ((s.func func).margs.getD 1 0).toNat ((s.func func).margs.getD 2 0).toNat l ∧ Still (s.func func) ∧
      ((s.func func).margs.getD 0 0).toNat < 0xC000000000 ∧ 0 < ((s.func func).margs.getD 3 0).toNat ∧
      ((s.func func).margs.getD 3 0).toNat < 2 ^ 32) ∧
    (∃ (s : State) (func : Nat) (l : List (Nat × Nat)), Ready s ∧
      TableOf s ((s.func func).margs.getD 1 0).toNat ((s.func func).margs.getD 2 0).toNat l ∧ Still (s.func func) ∧
      ((s.func func).margs.getD 0 0).toNat < 0xC000000000 ∧ ((s.func func).margs.getD 3 0).toNat = 0) ∧
    (∃ (s s' : State) (func at_ : Nat) (k : Checkpoint), ((s.func func).checkpoint = some k ∧ k.firstStop = some at_ ∧ k.partial_ = false ∧
        s.allReached func = false ∧ (s.func func).frozen = false ∧ at_ + 10000 * 2250 ≤ s.now) ∧
      (s'.func func).checkpoint = some k ∧ s'.allReached func = true ∧ (s'.func func).frozen = false) ∧
    ∀ cap, ∃ (s : State) (func at_ : Nat) (k : Checkpoint), (s.func func).checkpoint = some k ∧ k.firstStop = some at_ ∧ (s.func func).frozen = true ∧
      k.period = none ∧ k.partial_ = false ∧ Empty s func ∧ s.quiescent func = true ∧ func < 64 ∧ (∀ ln ∈ s.home, ln.dirty = 0) ∧ RoomyFor s k.ranges ∧
      k.image % 4096 = 0 ∧ (∀ r ∈ k.ranges, k.image + 4096 ≤ r.1 ∨ r.1 + r.2 ≤ k.image) ∧
      (∀ r ∈ k.ranges, r.1 % 65536 = 0 ∧ r.2 % 65536 = 0) ∧ (s.func func).captured = cap := by
  refine ⟨⟨tCmd id tStartArgs, 1, _, rfl, tTableIs (by decide +kernel), ⟨rfl, rfl, rfl⟩, by decide, by decide, by decide⟩,
    ⟨tCmd id [0x305, 0x400000, 1, 0], 1, _, rfl, tTableIs (by decide +kernel), ⟨rfl, rfl, rfl⟩, by decide, rfl⟩,
    ⟨{ tCmd (tArmed tPoint) [] with teams := [tReached false] }, { tCmd (tArmed tPoint) [] with teams := [tReached true] }, 1, 3, tPoint,
      ⟨rfl, rfl, rfl, by decide +kernel, rfl, by decide⟩, rfl, by decide +kernel, rfl⟩, fun cap => ?_⟩
  have hq : ∀ c, (tCmd (fun f => tArmed tPoint (tFrozen { f with captured := c })) []).quiescent 1 = true := by decide +kernel
  exact ⟨tCmd (fun f => tArmed tPoint (tFrozen { f with captured := cap })) [], 1, 3, tPoint, rfl, rfl, rfl, rfl, rfl,
    ⟨(fun _ h => nomatch h), (fun _ h => nomatch h), rfl, tCleanCores _ _ (fun _ h => nomatch h)⟩, hq cap, by decide, (fun _ h => nomatch h),
    tRoomyFor _ rfl rfl rfl,    by decide, by decide, by decide, rfl⟩

def tAgree (vlimit : Nat) (rs : List (Nat × W64)) : State :=
  { tCmd (fun f => tArmed { tPoint with target := none, period := some 7, replies := rs } { f with cfg := { f.cfg with vlimit := vlimit, vbase := 2 } }) [] with
    teams := [tTeam { tg .i32 with step := 9 }] }
theorem tHighest (n : Nat) (rs : List (Nat × W64)) : Highest (tAgree n rs) 1 9 := by
  refine ⟨fun t ht _ g hg _ => ?_, .inr ⟨_, List.mem_singleton.mpr rfl, rfl, _, List.mem_singleton.mpr rfl, rfl, rfl⟩⟩
  obtain rfl := List.mem_singleton.mp ht
  obtain rfl := List.mem_singleton.mp hg
  exact Nat.le_refl _

theorem wit_CheckpointStepIsAgreed :
    (∃ (s s' : State) (func : Nat) (k : Checkpoint) (h : W64), ((s.func func).checkpoint = some k ∧ Highest s func h ∧ k.period ≠ none ∧
        k.target = none ∧ k.replies = [] ∧ k.hold = none ∧ k.timerAt ≤ s.now ∧ s.tenantPeers func ≠ [] ∧
        (∀ d ∈ s.tenantPeers func, d.1 ≠ s.device) ∧ (s.func func).migration = none ∧
        ∃ src b, (s.tenantPeers func).find? (fun d => d.1 == src) = some (src, b)) ∧
      (s'.func func).checkpoint = some k ∧ Highest s' func h ∧ k.timerAt ≤ s'.now ∧ s'.tenantPeers func = []) ∧
    ∃ (s : State) (func : Nat) (k : Checkpoint) (h high n : W64) (src : Nat), (s.func func).checkpoint = some k ∧ Highest s func h ∧ k.replies ≠ [] ∧
      (∃ b, (s.tenantPeers func).find? (fun d => d.1 == src) = some (src, b)) ∧ s.device < src ∧ (∀ r ∈ k.replies, r.1 ≠ src) ∧
      (∃ d ∈ s.tenantPeers func, ∀ r ∈ k.replies ++ [(0x77, high)], r.1 ≠ d.1) ∧
      (∀ d ∈ s.tenantPeers func, ∃ r ∈ k.replies ++ [(src, high)], r.1 = d.1) ∧ (∀ r ∈ k.replies ++ [(src, high)], r.2.toNat ≤ n.toNat) ∧
      ∃ r ∈ k.replies ++ [(src, high)], r.2 = n :=
  ⟨⟨tAgree 1 [], tAgree 0 [], 1, _, 9, ⟨rfl, tHighest _ _, by decide, rfl, rfl, rfl, by decide, by decide +kernel, by decide +kernel, rfl, 0x12, 9,
      by decide +kernel⟩, rfl, tHighest _ _, by decide, by decide +kernel⟩,
    ⟨tAgree 1 [(0x11, 9)], 1, _, 9, 77, 77, 0x12, rfl, tHighest _ _, by decide, ⟨9, by decide +kernel⟩, by decide, by decide, by decide +kernel,
      by decide +kernel, by decide, by decide⟩⟩

theorem wit_RecordAndReplayModes : ∃ (s s' s'' : State) (func : Nat) (l : List (Nat × Nat)),
    (Ready s ∧ s.inputTable func ((s.func func).margs.getD 2 0).toNat ((s.func func).margs.getD 3 0).toNat = (some l, s) ∧
      ((s.func func).margs.getD 3 0).toNat = 0 ∧ ((s.func func).margs.getD 1 0).toNat % 32 = 0 ∧
      ((s.func func).margs.getD 0 0).toNat + ((s.func func).margs.getD 1 0).toNat ≤ 0xC000000000) ∧
    (Ready s' ∧ s'.inputTable func ((s'.func func).margs.getD 2 0).toNat ((s'.func func).margs.getD 3 0).toNat = (some l, s') ∧
      ((s'.func func).margs.getD 1 0).toNat % 32 ≠ 0) ∧
    Ready s'' ∧ s''.inputTable func ((s''.func func).margs.getD 2 0).toNat ((s''.func func).margs.getD 3 0).toNat = (some l, s'') ∧
      0xC000000000 < ((s''.func func).margs.getD 0 0).toNat + ((s''.func func).margs.getD 1 0).toNat :=
  ⟨tCmd id [0xBFFFFFFFE0, 32, 0, 0], tCmd id [0x600000, 33, 0, 0], tCmd id [0xBFFFFFFFE0, 64, 0, 0], 1, [],
    ⟨rfl, rfl, rfl, by decide, by decide⟩, ⟨rfl, rfl, by decide⟩, rfl, rfl, by decide⟩

/-! ### Hypotheses of the statements on host and module -/

theorem wit_DeviceComesUp : (∀ k, k ≤ 5 → ∃ s : State, s.bringUp = k) ∧ ∃ (s : State) (v : W64),
    (∀ k, k < 32 → v.getLsbD k = s.portUp k) ∧ v.getLsbD 32 = s.linkUp ∧ ∀ k, 33 ≤ k → v.getLsbD k = false :=
  ⟨fun k _ => ⟨{ State.reset with bringUp := k }, rfl⟩, State.reset, 0, by decide, rfl, fun k _ => by simp⟩

/-- Bring-up is over; stage 2 of function 1 maps its pages to the same addresses: the first 512 MB readable, writable, executable, the next not
writable, the third a window of another core's buffer. -/
def tHost : State :=
  { State.reset with
    mem := cellPut (cellPut (cellPut (cellPut (cellPut [] 0x200000 (leBytes 0x210001 8)) 0x210000 (leBytes 0xF 8)) 0x210008 (leBytes 0x20000007 8)) 0x210010
      (leBytes 0x240001 8)) 0x240000 (leBytes 0x900003F 8)
    bringUp := 5
    linkUp := true
    sriov := true
    funcs := [{ Func.reset 1 with s2root := 0x200000 }] }
def tHostLeads? (r : Leaf2) (need : Need) (x a : Nat) : Bool :=
  match r with
  | .leaf e lvl => permits2 e need && targetOf e lvl x == .mem a && inDevice a
  | .fault _ => false
theorem tHostLeads {s : State} {func : Nat} {need : Need} {x a : Nat} (h : tHostLeads? (s.stage2 func x).1 need x a = true) :
    HostLeads s func need x a := by
  unfold HostLeads
  cases hx : (s.stage2 func x).1 with
  | fault f => rw [hx] at h; exact nomatch h
  | leaf e lvl =>
    rw [hx] at h
    simp only [tHostLeads?, Bool.and_eq_true, beq_iff_eq] at h
    exact ⟨e, lvl, rfl, h.1.1, h.1.2, h.2⟩

theorem tHostRange (need : Need) (h : need = .read ∨ need = .write) : ∀ k, k < 4 → HostLeads tHost 1 need (0x5FFFE + k) (0x5FFFE + k) := by
  intro k hk
  have : ∀ need ∈ [Need.read, .write], ∀ k, k < 4 → tHostLeads? (tHost.stage2 1 (0x5FFFE + k)).1 need (0x5FFFE + k) (0x5FFFE + k) = true := by
    decide +kernel
  exact tHostLeads (this need (by rcases h with rfl | rfl <;> decide) k hk)

/-- A device whose stage 2 leads 0x60000000 out of device memory, and one whose stage-2 root table is poisoned. -/
def tHostHole : State := { tHost with mem := cellPut tHost.mem 0x210018 (leBytes 0xC000000007 8) }
def tHostBad : State := { tHost with poison := [0x210000 / 32] }

theorem wit_HostWindow :
    (∃ (s : State) (func off n : Nat) (at_ : Nat → Nat), (Reached s func ∧ s.flips = [] ∧ Roomy s) ∧ off + n ≤ 2 ^ 36 ∧ 0 < n ∧
      s.home.length + 8 * n + 64 ≤ Config.wayLines ∧ s.stack.length + 8 * n + 64 ≤ Config.wayLines ∧
      ∀ k, k < n → HostLeads s func .read (off + k) (at_ k)) ∧
    (∃ (s : State) (func off : Nat) (bytes : List Byte) (a : Nat), (Reached s func ∧ s.flips = [] ∧ Roomy s) ∧ off + bytes.length ≤ 2 ^ 36 ∧
      bytes ≠ [] ∧ s.home.length + 8 * bytes.length + 64 ≤ Config.wayLines ∧ s.stack.length + 8 * bytes.length + 64 ≤ Config.wayLines ∧
      ∀ k, k < bytes.length → HostLeads s func .write (off + k) (a + k)) ∧
    (∃ (s : State) (func off : Nat) (e : W64) (lvl : Nat), (Reached s func ∧ s.flips = [] ∧ Roomy s) ∧ off + 1 ≤ 2 ^ 36 ∧
      (s.stage2 func off).1 = .leaf e lvl ∧ permits2 e .write = false) ∧
    (∃ (s : State) (func off : Nat) (e : W64) (lvl : Nat), (Reached s func ∧ s.flips = [] ∧ Roomy s) ∧ off + 1 ≤ 2 ^ 36 ∧
      (s.stage2 func off).1 = .leaf e lvl ∧ permits2 e .read = true ∧ ∀ a, targetOf e lvl off ≠ .mem a) ∧
    (∃ (s : State) (func off : Nat) (e : W64) (lvl a : Nat), (Reached s func ∧ s.flips = [] ∧ Roomy s) ∧ off + 1 ≤ 2 ^ 36 ∧
      (s.stage2 func off).1 = .leaf e lvl ∧ permits2 e .read = true ∧ targetOf e lvl off = .mem a ∧ inDevice a = false) ∧
    ∀ code, code = .s2Miss ∨ code = .uncorrData → ∃ (s : State) (func off g : Nat), (Reached s func ∧ s.flips = [] ∧ Roomy s) ∧ off + 1 ≤ 2 ^ 36 ∧
      (s.stage2 func off).1 = .fault ⟨code, g⟩ := by
  have h : Reached tHost 1 ∧ tHost.flips = [] ∧ Roomy tHost := ⟨⟨rfl, rfl, by decide, .inr rfl⟩, rfl, roomy _ rfl rfl⟩
  refine ⟨⟨tHost, 1, 0x5FFFE, 4, fun k => 0x5FFFE + k, h, by decide, by decide, by decide, by decide, tHostRange .read (.inl rfl)⟩,
    ⟨tHost, 1, 0x5FFFE, [1, 2, 3, 4], 0x5FFFE, h, by decide, by decide, by decide, by decide, tHostRange .write (.inr rfl)⟩,
    ⟨tHost, 1, 0x20000000, 0x20000007, 1, h, by decide, by decide +kernel, by decide⟩,
    ⟨tHost, 1, 0x40000000, 0x900003F, 2, h, by decide, by decide +kernel, by decide, fun a h => nomatch h⟩,
    ⟨tHostHole, 1, 0x60000000, 0xC000000007, 1, 0xC000000000, ⟨⟨rfl, rfl, by decide, .inr rfl⟩, rfl, roomy _ rfl rfl⟩, by decide,
      by decide +kernel, by decide, by decide +kernel, by decide⟩, ?_⟩
  rintro _ (rfl | rfl)
  · exact ⟨tHost, 1, 0x60000000, 0x60000000, h, by decide, by decide +kernel⟩
  · exact ⟨tHostBad, 1, 0x20000, 0x210000, ⟨⟨rfl, rfl, by decide, .inr rfl⟩, rfl, roomy _ rfl rfl⟩, by decide, by decide +kernel⟩

def tUp : State := { State.reset with bringUp := 5, funcs := [tTagged], keys := [(3, 77)] }
def tWithRing : State := { tUp with funcs := [{ tTagged with rings := [tRing, tRing, tRing] }] }

theorem wit_RegisterWindow :
    (∃ (s : State) (win off func : Nat), s.bringUp = 5 ∧ off < 0x200 ∧ win = func ∧ off = 0x10) ∧
    (∃ (s : State) (win off func o : Nat), s.bringUp = 5 ∧ win = 0 ∧ o < 0x200 ∧ func < 64 ∧ off = 0x4000 + 0x200 * func + o ∧ off % 0x200 = 0x198 + 8 * 3 ∧
      0x4000 ≤ off) ∧
    (∃ o : Nat, o < 0x200 ∧ o ∉ [0x10, 0x18, 0x80, 0x88, 0x180, 0x190, 0x198, 0x1A0, 0x1A8, 0x1B0]) ∧
    (∃ v w : W64, (6 ≤ v.toNat % 32 ∧ v.toNat % 32 ≤ 16 ∧ v.toNat / 32 % 128 = 0 ∧ v.toNat / 2 ^ 52 = 0) ∧ 16 < w.toNat % 32) ∧
    (∃ (s : State) (func ring : Nat) (z : Ring) (v w : W64), s.bringUp = 5 ∧ (s.func func).rings[ring]? = some z ∧
      (v.toNat % 2 ^ 32 + 2 ^ 32 - z.rd) % 2 ^ 32 ≤ (z.wr + 2 ^ 32 - z.rd) % 2 ^ 32 ∧
      ¬ (w.toNat % 2 ^ 32 + 2 ^ 32 - z.rd) % 2 ^ 32 ≤ (z.wr + 2 ^ 32 - z.rd) % 2 ^ 32) ∧
    ∃ (s : State) (func k : Nat) (c : Nat × Nat), s.bringUp = 5 ∧ (s.func func).errcnt[k]? = some c ∧ c.1 < 2 ^ 32 ∧ c.2 < 2 ^ 32 :=
  ⟨⟨tUp, 1, 0x10, 1, rfl, by decide, rfl, rfl⟩, ⟨tUp, 0, 0x43B0, 1, 0x1B0, rfl, rfl, by decide, by decide, rfl, rfl, by decide⟩, ⟨0x20, by decide, by decide⟩,
    ⟨0x1000010, 17, ⟨by decide, by decide, by decide, by decide⟩, by decide⟩, ⟨tWithRing, 1, 2, tRing, 65, 66, rfl, rfl, by decide, by decide⟩,
    ⟨tUp, 1, 11, (0, 0), rfl, rfl, by decide, by decide⟩⟩

def tQueues (run : List QPacket) : State := { tUp with funcs := [{ tQFunc run with qaddr := 0x5000 }] }
theorem wit_QueueCommands : ∃ (s s' : State) (func page page' : Nat) (q q' : Queue),
    (s.bringUp = 5 ∧ page < 4096 ∧ (∀ q ∈ (s.func func).queues, q.page ≠ page) ∧ (s.func func).qaddr.toNat % 64 = 0) ∧
    ((∃ q ∈ (s.func func).queues, q.page = page') ∧ (s.func func).queues.find? (fun q => q.page == page') = some q ∧ q.running = []) ∧
    s'.bringUp = 5 ∧ (s'.func func).queues.find? (fun q => q.page == page') = some q' ∧ q'.running ≠ [] :=
  ⟨tQueues [], tQueues [⟨9, 1, [], false, none⟩], 1, 4095, 7, _, _, ⟨rfl, by decide, by decide, by decide⟩, ⟨by decide, rfl, rfl⟩, rfl, rfl, by decide⟩

/-- Function 1 holds bay 0 and function 2 bay 79; function 3 has a share and no bay. -/
def tShares : State :=
  { tUp with
    funcs := [{ tTagged with cfg := { tTagged.cfg with share := 400 } }, { Func.reset 2 with cfg := { FConfig.reset with bays := 1#80 <<< 79, share := 300 } },
      { Func.reset 3 with cfg := { FConfig.reset with share := 300 } }] }
theorem wit_ConfigurationWrites :
    (∃ (s : State) (func : Nat) (v v' : W64), s.bringUp = 5 ∧ (s.func func).moved = false ∧ (∀ t ∈ s.teams, t.func ≠ func) ∧
      (∀ k ∈ s.funcs, k.id ≠ func → k.cfg.bays &&& BitVec.ofNat 80 (v.toNat + (s.func func).cfg.bays.toNat / 2 ^ 64 * 2 ^ 64) = 0) ∧
      (s.func func).cfg.share ≠ 0 ∧ v'.toNat < 2 ^ 16 ∧
      ¬ ∀ k ∈ s.funcs, k.id ≠ func → k.cfg.bays &&& BitVec.ofNat 80 ((s.func func).cfg.bays.toNat % 2 ^ 64 + v'.toNat * 2 ^ 64) = 0) ∧
    (∃ (s : State) (func : Nat) (v : W64), s.bringUp = 5 ∧ (∃ t ∈ s.teams, t.func = func) ∧
      BitVec.ofNat 80 (v.toNat + (s.func func).cfg.bays.toNat / 2 ^ 64 * 2 ^ 64) ≠ (s.func func).cfg.bays) ∧
    (∃ (s : State) (func : Nat), s.bringUp = 5 ∧ (s.func func).cfg.share = 0) ∧
    (∃ (s : State) (func : Nat) (v v' : W64), s.bringUp = 5 ∧ v.toNat / 2 ^ 6 % 2 ^ 10 = 0 ∧ v.toNat / 2 ^ 26 % 2 ^ 6 = 0 ∧ v.toNat / 2 ^ 42 = 0 ∧
      v.toNat / 2 ^ 16 % 2 ^ 10 + s.otherShares func = 1000 ∧ v.toNat / 2 ^ 16 % 2 ^ 10 ≠ 0 ∧
      v'.toNat / 2 ^ 16 % 2 ^ 10 + s.otherShares func = 1001) ∧
    (∃ v w : W64, (v.toNat / 2 ^ 12 % 2 ^ 4 = 0 ∧ v.toNat / 2 ^ 29 = 0 ∧ v.toNat % 2 ^ 12 + v.toNat / 2 ^ 16 % 2 ^ 13 = 4096) ∧
      w.toNat % 2 ^ 12 + w.toNat / 2 ^ 16 % 2 ^ 13 = 4097) ∧
    (∃ v : W64, v.toNat / 2 ^ 24 % 2 ^ 8 = 0 ∧ v.toNat / 2 ^ 48 = 0 ∧ BitVec.ofNat 24 v.toNat ≠ 0#24 ∧ BitVec.ofNat 16 (v.toNat / 2 ^ 32) ≠ 0#16) ∧
    (∃ (s : State) (v : W64), s.bringUp = 5 ∧ v.toNat / 2 ^ 8 % 2 ^ 4 ≤ v.toNat % 2 ^ 4 ∧ v.toNat / 2 ^ 12 % 2 ^ 4 ≤ v.toNat / 2 ^ 4 % 2 ^ 4 ∧
      v.toNat / 2 ^ 16 = 0 ∧ ∀ k ∈ s.funcs, k.cfg.bays = 0) ∧
    ∃ (s : State) (v : W64), s.bringUp = 5 ∧ ¬ v.toNat / 2 ^ 8 % 2 ^ 4 ≤ v.toNat % 2 ^ 4 :=
  ⟨⟨tShares, 1, 0x7, 0x8000, rfl, rfl, (fun _ h => nomatch h), by decide, by decide, by decide, by decide⟩,
    ⟨{ tShares with teams := [tEnding .running 0] }, 1, 3, rfl, ⟨_, List.mem_singleton.mpr rfl, rfl⟩, by decide⟩, ⟨tUp, 1, rfl, rfl⟩,
    ⟨tShares, 1, 0x1900000, 0x1910000, rfl, by decide, by decide, by decide, by decide +kernel, by decide, by decide +kernel⟩,
    ⟨0x10FFF, 0x20FFF, ⟨by decide, by decide, by decide⟩, by decide⟩, ⟨0xFFFF00FFFFFF, by decide, by decide, by decide, by decide⟩,
    ⟨{ State.reset with bringUp := 5 }, 0x1133, rfl, by decide, by decide, by decide, (fun _ h => nomatch h)⟩, ⟨tUp, 0x400, rfl, by decide⟩⟩

/-! ### Hypotheses of the statements on the whole machine -/

def tWide : Cur := { tCur with len := 4, pc := 0x20004 }
theorem wit_BranchTargets : ∃ (s : State) (c : Cur) (t : Team) (g : Gang) (e : Entry),
    Acts s c t g ∧ Ample s c ∧ Shaped g ∧ g.entry? c.eid = some e ∧ c.mask &&& ~~~ e.mask = 0#32 ∧ c.len = 4 ∧ c.pc + 4 < 2 ^ 54 :=
  ⟨tOn State.reset (tTeam (tg .i32)) tWide, tWide, _, tg .i32, tEntry, ⟨⟨rfl, rfl, rfl⟩, by decide⟩,
    ⟨rfl, by show 256 ≤ 32768; decide, by show 256 ≤ 32768; decide, rfl⟩, shapedT _, rfl, by decide, rfl, by decide⟩

def tNexts (o : Out) : Bool :=
  match o with
  | .next _ => true
  | _ => false
theorem nexts {o : Out} (h : tNexts o = true) : ∃ u, o = .next u := by
  cases o with
  | next u => exact ⟨u, rfl⟩
  | fault f => exact nomatch h
  | refused r => exact nomatch h

/-- The invariants' premises, at reset, from which the next step goes on. -/
theorem wit_MemoryStaysCanonical : ∃ s t : State, s.memOk ∧ s.buffersOk ∧ s.linesWhole ∧ step s = .next t := by
  obtain ⟨u, hu⟩ := nexts (o := step State.reset) (by decide +kernel)
  exact ⟨State.reset, u, (show Memory.wf [] = true by decide), buffersOk_cores State.reset (tTeam (tg .i32)) tCur rfl,
    (roomy State.reset rfl rfl).whole, hu⟩

theorem wit_GangsKeepTheirShape : ∃ s u : State, (∀ t ∈ s.teams, ∀ g ∈ t.gangs, Shaped g) ∧ s.teams ≠ [] ∧ step s = .next u := by
  obtain ⟨u, hu⟩ := nexts (o := step (State.reset.withFetchWord 32 0x60C53)) (by decide +kernel)
  refine ⟨State.reset.withFetchWord 32 0x60C53, u, fun t ht g hg => ?_, by decide, hu⟩
  obtain rfl := List.mem_singleton.mp ht
  obtain rfl := List.mem_singleton.mp hg
  exact ⟨rfl, rfl, rfl, rfl, rfl, rfl, rfl⟩

theorem wit_NoInstructionStops : ∃ (s : State) (c : Cur) (t : Team) (g : Gang), Issues s c t g := ⟨_, _, _, _, (acts (tg .i32)).1⟩

/-- Quarter 0 chooses an entry, fetches there and decodes `i`; `more` holds of what the fetch gives. -/
def tIssuesAt (s : State) (i : Instr) (more : Team → Gang → Entry → Nat → Nat → State → Bool) : Bool :=
  match State.chooseGang { s with agenda := [] } 0 with
  | none => false
  | some (t, g) =>
    match chooseEntry (State.eligibles { s with agenda := [] } t g) with
    | none => false
    | some e =>
      match State.fetchWord { s with agenda := [] } t g.idx e.eid (stampOf s t) e.pc with
      | .gone _ => false
      | .word w len s1 =>
        (match decodeFetched w len with
          | .ok j => j == i
          | .error _ => false) &&
        match s1.screen t g.idx e.eid (stampOf s t) e.pc w len (e.setA == 16) with
        | .gone _ => false
        | .go j s2 => j == i && more t g e w len s2

/-- The instruction behind PRED is fetched and passes its checks. -/
def tBehind (s : State) (i j : Instr) (t : Team) (g : Gang) (e : Entry) (w len : Nat) (s2 : State) : Bool :=
  match exec i { issuing s2 t g e with cur := some (bundle s2 t g e w len) } with
  | .next s3 =>
    match s3.cur with
    | none => false
    | some c =>
      match State.fetchWord { s3 with cur := none } t g.idx e.eid (stampOf s t) c.pc with
      | .gone _ => false
      | .word w1 len1 s4 =>
        match s4.screen t g.idx e.eid (stampOf s t) c.pc w1 len1 false with
        | .gone _ => false
        | .go k _ => k == j
  | _ => false

theorem tIssuedAt {s : State} {i : Instr} {more} (h : tIssuesAt s i more = true) : ∃ (s1 s2 : State) (w len : Nat) (t : Team) (g : Gang) (e : Entry),
    State.chooseGang { s with agenda := [] } 0 = some (t, g) ∧ chooseEntry (State.eligibles { s with agenda := [] } t g) = some e ∧
    State.fetchWord { s with agenda := [] } t g.idx e.eid (stampOf s t) e.pc = .word w len s1 ∧ decodeFetched w len = .ok i ∧
    s1.screen t g.idx e.eid (stampOf s t) e.pc w len (e.setA == 16) = .go i s2 ∧ more t g e w len s2 = true := by
  unfold tIssuesAt at h
  split at h
  · exact nomatch h
  · next t g h1 =>
    split at h
    · exact nomatch h
    · next e h2 =>
      split at h
      · exact nomatch h
      · next w len s1 h3 =>
        rw [Bool.and_eq_true] at h
        obtain ⟨h4, h5⟩ := h
        split at h4
        · next j h6 =>
          obtain rfl := eq_of_beq h4
          split at h5
          · exact nomatch h5
          · next k s2 h7 =>
            rw [Bool.and_eq_true] at h5
            obtain rfl := eq_of_beq h5.1
            exact ⟨s1, s2, w, len, t, g, e, h1, h2, h3, h6, h7, h5.2⟩
        · exact nomatch h4

theorem tBehinds {s : State} {i j : Instr} {t : Team} {g : Gang} {e : Entry} {w len : Nat} {s2 : State} (h : tBehind s i j t g e w len s2 = true) :
    ∃ (s3 s4 s5 : State) (c : Cur) (w1 len1 : Nat), exec i { issuing s2 t g e with cur := some (bundle s2 t g e w len) } = .next s3 ∧ s3.cur = some c ∧
      State.fetchWord { s3 with cur := none } t g.idx e.eid (stampOf s t) c.pc = .word w1 len1 s4 ∧
      s4.screen t g.idx e.eid (stampOf s t) c.pc w1 len1 false = .go j s5 := by
  unfold tBehind at h
  split at h
  · next s3 h1 =>
    split at h
    · exact nomatch h
    · next c h2 =>
      split at h
      · exact nomatch h
      · next w1 len1 s4 h3 =>
        split at h
        · exact nomatch h
        · next k s5 h4 =>
          obtain rfl := eq_of_beq h
          exact ⟨s3, s4, s5, c, w1, len1, h1, h2, h3, h4⟩
  · exact nomatch h

def tFadd : Instr := .fadd 6 ⟨false, true, 10⟩ ⟨true, false, 11⟩
/-- PRED of predicate 2, negated, and a compressed NOP behind it. -/
def tPredWord : Nat := encodeWord (.pred 2 true) + 2 ^ 16 * 0x0022

theorem wit_StepRunsDecoded :
    (∃ (s s1 s2 : State) (q w len : Nat) (rest : List Act) (t : Team) (g : Gang) (e : Entry) (i : Instr), s.agenda = .issue q :: rest ∧
      State.chooseGang { s with agenda := rest } q = some (t, g) ∧ chooseEntry (State.eligibles { s with agenda := rest } t g) = some e ∧
      State.fetchWord { s with agenda := rest } t g.idx e.eid (stampOf s t) e.pc = .word w len s1 ∧ decodeFetched w len = .ok i ∧
      s1.screen t g.idx e.eid (stampOf s t) e.pc w len (e.setA == 16) = .go i s2 ∧ ∀ p n, i ≠ .pred p n) ∧
    ∃ (s s1 s2 : State) (q w len : Nat) (rest : List Act) (t : Team) (g : Gang) (e : Entry) (i : Instr), s.agenda = .issue q :: rest ∧
      State.chooseGang { s with agenda := rest } q = some (t, g) ∧ chooseEntry (State.eligibles { s with agenda := rest } t g) = some e ∧
      State.fetchWord { s with agenda := rest } t g.idx e.eid (stampOf s t) e.pc = .word w len s1 ∧ decodeFetched w len = .ok i ∧
      s1.screen t g.idx e.eid (stampOf s t) e.pc w len (e.setA == 16) = .go i s2 ∧
      ∃ (p : BitVec 3) (n : Bool) (s3 s4 s5 : State) (c : Cur) (w1 len1 : Nat) (j : Instr), i = .pred p n ∧
        exec i { issuing s2 t g e with cur := some (bundle s2 t g e w len) } = .next s3 ∧ s3.cur = some c ∧
        State.fetchWord { s3 with cur := none } t g.idx e.eid (stampOf s t) c.pc = .word w1 len1 s4 ∧
        s4.screen t g.idx e.eid (stampOf s t) c.pc w1 len1 false = .go j s5 := by
  constructor
  · obtain ⟨s1, s2, w, len, t, g, e, h1, h2, h3, h4, h5, -⟩ :=
      tIssuedAt (s := State.reset.withFetchWord 32 0x8B4A18F1) (i := tFadd) (more := fun _ _ _ _ _ _ => true) (by decide +kernel)
    exact ⟨_, s1, s2, 0, w, len, [], t, g, e, tFadd, rfl, h1, h2, h3, h4, h5, fun _ _ h => nomatch h⟩
  · obtain ⟨s1, s2, w, len, t, g, e, h1, h2, h3, h4, h5, h6⟩ :=
      tIssuedAt (s := State.reset.withFetchWord 32 tPredWord) (i := .pred 2 true)
        (more := tBehind (State.reset.withFetchWord 32 tPredWord) (.pred 2 true) .nopC) (by decide +kernel)
    obtain ⟨s3, s4, s5, c, w1, len1, h7, h8, h9, h10⟩ := tBehinds h6
    exact ⟨_, s1, s2, 0, w, len, [], t, g, e, _, rfl, h1, h2, h3, h4, h5, 2, true, s3, s4, s5, c, w1, len1, _, rfl, h7, h8, h9, h10⟩

def tIllegal (s : State) : Bool :=
  match s.teams with
  | [t] =>
    match t.gangs with
    | [g] =>
      match g.frontier with
      | [e] =>
        match s.fetchWord t g.idx e.eid (stampOf s t) e.pc with
        | .gone _ => false
        | .word w len s1 => decide (s1.teams = s.teams) && (match decodeFetched w len with
            | .error x => decide (x ≠ .short)
            | .ok _ => false) && decide (s.team? t.launch t.num = some t ∧ t.gangs[g.idx]? = some g ∧ g.entry? e.eid = some e ∧ e.setA ≠ 16 ∧ g.held e = false)
      | _ => false
    | _ => false
  | _ => false

theorem tIllegals {s : State} (h : tIllegal s = true) : ∃ (s1 : State) (w len : Nat) (t : Team) (g : Gang) (e : Entry) (err : DecodeErr),
    s.team? t.launch t.num = some t ∧ t.gangs[g.idx]? = some g ∧ g.entry? e.eid = some e ∧ e ∈ g.frontier ∧
    s.fetchWord t g.idx e.eid (stampOf s t) e.pc = .word w len s1 ∧ s1.teams = s.teams ∧ decodeFetched w len = .error err ∧ err ≠ .short ∧
    e.setA ≠ 16 ∧ g.held e = false := by
  unfold tIllegal at h
  split at h
  · next t h1 =>
    split at h
    · next g h2 =>
      split at h
      · next e h3 =>
        split at h
        · exact nomatch h
        · next w len s1 h4 =>
          rw [Bool.and_eq_true, Bool.and_eq_true] at h
          obtain ⟨⟨h5, h6⟩, h7⟩ := h
          split at h6
          · next x h8 =>
            have h9 := of_decide_eq_true h7
            exact ⟨s1, w, len, t, g, e, x, h9.1, h9.2.1, h9.2.2.1, by rw [h3]; exact List.mem_singleton.mpr rfl, h4, of_decide_eq_true h5, h8,
              of_decide_eq_true h6, h9.2.2.2⟩
          · exact nomatch h6
      · exact nomatch h
    · exact nomatch h
  · exact nomatch h

/-- A word of no instruction, and a PRED that a PRED follows. -/
theorem wit_IllegalEncodingFaults : ∀ x ∈ [0x121, 0x01000005], ∃ (s s1 : State) (w len : Nat) (t : Team) (g : Gang) (e : Entry) (err : DecodeErr),
    s = State.reset.withFetchWord 32 x ∧ s.team? t.launch t.num = some t ∧ t.gangs[g.idx]? = some g ∧ g.entry? e.eid = some e ∧ e ∈ g.frontier ∧
    s.fetchWord t g.idx e.eid (stampOf s t) e.pc = .word w len s1 ∧ s1.teams = s.teams ∧ decodeFetched w len = .error err ∧ err ≠ .short ∧
    e.setA ≠ 16 ∧ g.held e = false := by
  intro x hx
  have : ∀ x ∈ [0x121, 0x01000005], tIllegal (State.reset.withFetchWord 32 x) = true := by decide +kernel
  obtain ⟨s1, w, len, t, g, e, err, h⟩ := tIllegals (this x hx)
  exact ⟨_, s1, w, len, t, g, e, err, rfl, h⟩

theorem wit_TagFaults :
    (∃ (s : State) (c : Cur) (t : Team) (g : Gang) (a b : Opnd), Acts s c t g ∧ g.idx = c.gang ∧ t.launch = c.launch ∧ t.num = c.team ∧
      (g.srcA a).tag = .i32 ∧ (g.srcB b).tag = .f32) ∧
    ∃ (s : State) (c : Cur) (t : Team) (g : Gang) (a : Opnd), Acts s c t g ∧ g.idx = c.gang ∧ t.launch = c.launch ∧ t.num = c.team ∧
      (g.srcA a).tag = .f32 ∧ (g.srcA1 a).tag ≠ .poison :=
  ⟨⟨_, _, _, tGang fun r => if r < 2 then .i32 else .f32, ta, ⟨true, false, 2⟩, acts _, rfl, rfl, rfl, rfl, rfl⟩,
    ⟨_, _, _, tg .f32, ta, acts _, rfl, rfl, rfl, rfl, by decide⟩⟩

end Sys2Proof.Tests
end

section
/-! Control transfers of 02 R24: the address that a lane is sent to, the entry that it reaches there, and the return address of `CALL`. -/

namespace Sys2Proof.Machine

/-! ### The meanings -/

theorem exec_bra (o : BitVec 22) (s : State) : exec (.bra o) s = execBra o s := rfl
theorem exec_call (o : BitVec 22) (s : State) : exec (.call o) s = execCall o s := rfl

/-! ### Lanes of a mask -/

theorem mem_lanesOf {m : Mask} {i : Nat} : i ∈ lanesOf m ↔ m.getLsbD i = true := by
  refine ⟨fun h => (List.mem_filter.mp h).2, fun h => List.mem_filter.mpr ⟨?_, h⟩⟩
  exact List.mem_of_getElem? (lanes32_get (BitVec.lt_of_getLsbD h))

/-- A mask with nothing outside another lies within it. -/
theorem getLsbD_of_andNot_eq_zero {m k : Mask} (h : m &&& ~~~ k = 0) {i : Nat} (hi : m.getLsbD i = true) : k.getLsbD i = true := by
  have hb := congrArg (fun x : Mask => x.getLsbD i) h
  simpa [hi, BitVec.lt_of_getLsbD hi] using hb

/-! ### Grouping lanes by their addresses -/

/-- One step of `groupTargets`: the lane of `x` joins the group of its address, which it may begin. -/
def joinTarget (acc : List (Nat × Mask)) (x : Nat × Nat) : List (Nat × Mask) :=
  if acc.any (·.1 == x.2) then acc.map fun y => if y.1 == x.2 then (y.1, y.2 ||| (1#32 <<< x.1)) else y
  else acc ++ [(x.2, 1#32 <<< x.1)]

theorem groupTargets_eq_foldl (ls : List (Nat × Nat)) : groupTargets ls = ls.foldl joinTarget [] := rfl

/-- Some group of address `a` has lane `i`. -/
def HasLane (acc : List (Nat × Mask)) (i a : Nat) : Prop := ∃ y ∈ acc, y.1 = a ∧ y.2.getLsbD i = true

theorem hasLane_joinTarget_self (acc : List (Nat × Mask)) {i : Nat} (a : Nat) (hi : i < 32) : HasLane (joinTarget acc (i, a)) i a := by
  unfold joinTarget
  by_cases hany : acc.any (·.1 == a) = true
  · rw [if_pos hany]
    obtain ⟨y, hy, hya⟩ := List.any_eq_true.mp hany
    exact ⟨_, List.mem_map_of_mem hy, by simp [beq_iff_eq.mp hya], by simp [hya, hi]⟩
  · rw [if_neg hany]
    exact ⟨_, List.mem_append_right _ List.mem_cons_self, rfl, by simp [hi]⟩

theorem hasLane_joinTarget {acc : List (Nat × Mask)} {i a : Nat} (h : HasLane acc i a) (x : Nat × Nat) :
    HasLane (joinTarget acc x) i a := by
  obtain ⟨y, hy, hya, hyi⟩ := h
  unfold joinTarget
  split
  · refine ⟨_, List.mem_map_of_mem hy, ?_⟩
    split <;> simp [hya, hyi]
  · exact ⟨y, List.mem_append_left _ hy, hya, hyi⟩

theorem hasLane_foldl_joinTarget {i a : Nat} (ls : List (Nat × Nat)) {acc : List (Nat × Mask)} (h : HasLane acc i a) :
    HasLane (ls.foldl joinTarget acc) i a :=
  List.foldlRecOn (motive := fun acc => HasLane acc i a) ls joinTarget h fun _ hb x _ => hasLane_joinTarget hb x

/-- Every lane is in a group of the address it goes to. -/
theorem hasLane_groupTargets {ls : List (Nat × Nat)} {i a : Nat} (hm : (i, a) ∈ ls) (hi : i < 32) : HasLane (groupTargets ls) i a := by
  obtain ⟨before, after, rfl⟩ := List.append_of_mem hm
  rw [groupTargets_eq_foldl, List.foldl_append, List.foldl_cons]
  exact hasLane_foldl_joinTarget after (hasLane_joinTarget_self _ a hi)

/-! ### Sending lanes -/

@[simp] theorem Gang.sendLanes_lanes (g : Gang) (c : Cur) (fresh : Nat) (dests : List (Nat × Nat)) (r : Nat) :
    (g.sendLanes c fresh dests).lanes r = g.lanes r := by
  unfold Gang.sendLanes; split <;> rfl

/-- A lane of the entry that has a destination stands in an entry there. -/
theorem Gang.sendLanes_reaches {g : Gang} {c : Cur} {e : Entry} (fresh : Nat) {dests : List (Nat × Nat)} {i a : Nat}
    (he : g.entry? c.eid = some e) (hd : (i, a) ∈ dests) (hi : e.mask.getLsbD i = true) :
    ∃ x ∈ (g.sendLanes c fresh dests).frontier, x.mask.getLsbD i = true ∧ x.pc = a := by
  unfold Gang.sendLanes
  rw [he]
  have hmem : (i, a) ∈ dests.filter fun x => e.mask.getLsbD x.1 := List.mem_filter.mpr ⟨hd, hi⟩
  obtain ⟨y, hy, hya, hyi⟩ := hasLane_groupTargets (List.mem_append_left _ hmem) (BitVec.lt_of_getLsbD hi)
  obtain ⟨k, hk, rfl⟩ := List.getElem_of_mem hy
  exact ⟨_, List.mem_append_right _ (List.mem_mapIdx.mpr ⟨k, hk, rfl⟩), hyi, hya⟩

/-! ### Addresses -/

/-- Sign extension of all bits of a word is its value in two's complement. -/
theorem sext_toNat {w : Nat} (x : BitVec w) (hw : 0 < w) : sext x.toNat w = x.toInt := by
  have hp : 2 ^ w = 2 * 2 ^ (w - 1) := by rw [Nat.mul_comm, Nat.two_pow_pred_mul_two hw]
  have hc : x.toNat < 2 ^ (w - 1) ↔ 2 * x.toNat < 2 ^ w := by omega
  simp only [sext, Nat.mod_eq_of_lt x.isLt, BitVec.toInt_eq_toNat_cond, hc]

theorem sext_of_lt {x n : Nat} (h : x < 2 ^ (n - 1)) : sext x n = x := by
  have hn : x < 2 ^ n := Nat.lt_of_lt_of_le h (Nat.pow_le_pow_right (by decide) (Nat.sub_le n 1))
  simp [sext, Nat.mod_eq_of_lt hn, h]

theorem branchTarget_cast (c : Cur) (o : BitVec 22) : (branchTarget c o : Int) = ((c.pc : Int) + 2 * o.toInt) % 2 ^ 55 := by
  unfold branchTarget
  rw [sext_toNat o (by decide), Int.toNat_of_nonneg (Int.emod_nonneg _ (by decide))]
  rfl

/-- The active lanes of a B-format transfer stand at its target. -/
theorem Gang.sendLanes_reaches_branchTarget {g : Gang} {c : Cur} {e : Entry} (fresh : Nat) (o : BitVec 22)
    (he : g.entry? c.eid = some e) (hsub : c.mask &&& ~~~ e.mask = 0) {n : Nat} (hn : c.mask.getLsbD n = true) :
    ∃ x ∈ (g.sendLanes c fresh ((lanesOf c.mask).map fun i => (i, branchTarget c o))).frontier, x.mask.getLsbD n = true ∧
      (x.pc : Int) = ((c.pc : Int) + 2 * o.toInt) % 2 ^ 55 := by
  have hdest := List.mem_map_of_mem (f := fun i => (i, branchTarget c o)) (mem_lanesOf.mpr hn)
  obtain ⟨x, hx, hxn, hxpc⟩ := Gang.sendLanes_reaches fresh he hdest (getLsbD_of_andNot_eq_zero hsub hn)
  exact ⟨x, hx, hxn, hxpc ▸ branchTarget_cast c o⟩

/-- 02 R24: the offset field reaches from −4 MiB to 4 MiB − 2 bytes. -/
theorem branchOffset_range (o : BitVec 22) : -4194304 ≤ 2 * o.toInt ∧ 2 * o.toInt ≤ 4194302 := by
  have hlo := BitVec.le_two_mul_toInt (x := o)
  have hhi := BitVec.two_mul_toInt_lt (x := o)
  omega

theorem returnAddress_toNat {c : Cur} (h : c.pc + c.len < 2 ^ 54) : (returnAddress c).toNat = c.pc + c.len := by
  have hn : c.nextPc = c.pc + c.len := Nat.mod_eq_of_lt (by omega)
  unfold returnAddress
  rw [hn, sext_of_lt h, BitVec.ofInt_natCast, BitVec.toNat_ofNat, Nat.mod_eq_of_lt (by omega)]

/-! ### The link pair -/

theorem Gang.lane_congr {g g' : Gang} (h : ∀ r, g'.lanes r = g.lanes r) (r n : Nat) (pair : Bool) : g'.lane r pair n = g.lane r pair n := by
  simp [Gang.lane, srcLane, pairVal, Src.val, Gang.srcD, h]

@[simp] theorem Gang.sendLanes_lane (g : Gang) (c : Cur) (fresh : Nat) (dests : List (Nat × Nat)) (r n : Nat) (pair : Bool) :
    (g.sendLanes c fresh dests).lane r pair n = g.lane r pair n :=
  Gang.lane_congr (Gang.sendLanes_lanes g c fresh dests) r n pair

@[simp] theorem Gang.spend_lane (g g' : Gang) (eid r n : Nat) (pair : Bool) : (g.spend g' eid).lane r pair n = g'.lane r pair n :=
  Gang.lane_congr (Gang.spend_lanes g g' eid) r n pair

/-- A gang whose register pair from `r` takes the halves of a 64-bit value on the lanes of a mask. -/
def Gang.putPair (g : Gang) (r : Nat) (m : Mask) (v : W64) : Gang :=
  (g.putV r m (List.replicate 32 (v.setWidth 32)) .i64).putV (r + 1) m (List.replicate 32 ((v >>> 32).setWidth 32)) .i64

theorem Gang.putV_frontier (g : Gang) (r : Nat) (m : Mask) (vals : List W32) (t : Tag) : (g.putV r m vals t).frontier = g.frontier := by
  unfold Gang.putV Gang.holdV; split <;> rfl

theorem Gang.putPair_entry? (g : Gang) (r : Nat) (m : Mask) (v : W64) (k : Nat) : (g.putPair r m v).entry? k = g.entry? k := by
  simp [Gang.entry?, Gang.putPair, Gang.putV_frontier]

theorem Gang.spend_entry? (g g' : Gang) (n k : Nat) : (g.spend g' n).entry? k = g'.entry? k := rfl

theorem length_setAt {α : Type} (l : List α) (i : Nat) (a : α) : (setAt l i a).length = l.length := by
  induction l generalizing i with
  | nil => rfl
  | cons x t ih => cases i <;> simp [setAt, ih]

theorem Gang.putV_length (g : Gang) (r : Nat) (m : Mask) (vals : List W32) (t : Tag) : (g.putV r m vals t).vmap.length = g.vmap.length :=
  length_setAt _ _ _

theorem getD_mergeLanes_replicate {m : Mask} (old : List W32) (x : W32) {i : Nat} (hi : m.getLsbD i = true) :
    (mergeLanes m old (List.replicate 32 x)).getD i 0 = x := by
  have h32 := BitVec.lt_of_getLsbD hi
  rw [getD_mergeLanes _ _ _ _ h32, if_pos hi, List.getD_eq_getElem?_getD, List.getElem?_replicate_of_lt h32, Option.getD_some]

theorem toNat_halves (v : W64) : (v.setWidth 32).toNat + ((v >>> 32).setWidth 32).toNat * 2 ^ 32 = v.toNat := by
  have hv := v.isLt
  simp only [BitVec.toNat_setWidth, BitVec.toNat_ushiftRight, Nat.shiftRight_eq_div_pow]
  omega

/-- A lane of the mask reads the value from the pair. -/
theorem Gang.putPair_lane {g : Gang} {r : Nat} {m : Mask} (v : W64) {i : Nat} (hr : r + 1 < g.vmap.length) (hi : m.getLsbD i = true) :
    (g.putPair r m v).lane r true i = v.toNat := by
  have hr' : r + 1 < (g.putV r m (List.replicate 32 (v.setWidth 32)) .i64).vmap.length := by rwa [Gang.putV_length]
  have hlo : ((g.putPair r m v).lanes r).getD i 0 = v.setWidth 32 := by
    rw [Gang.putPair, lanes_putV _ _ _ _ _ _ hr', if_neg (by omega), lanes_putV _ _ _ _ _ _ (by omega), if_pos rfl,
      getD_mergeLanes_replicate _ _ hi]
  have hhi : ((g.putPair r m v).lanes (r + 1)).getD i 0 = (v >>> 32).setWidth 32 := by
    rw [Gang.putPair, lanes_putV _ _ _ _ _ _ hr', if_pos rfl, getD_mergeLanes_replicate _ _ hi]
  show (((g.putPair r m v).lanes r).getD i 0).toNat + (((g.putPair r m v).lanes (r + 1)).getD i 0).toNat * 2 ^ 32 = v.toNat
  rw [hlo, hhi, toNat_halves]

/-! ### `BRA` and `CALL` -/

theorem State.gang?_fresh (s : State) (k l t g : Nat) : ({ s with fresh := k } : State).gang? l t g = s.gang? l t g := rfl

theorem State.gang?_sendLanes (s : State) (c : Cur) (dests : List (Nat × Nat)) :
    (s.sendLanes c dests).gang? c.launch c.team c.gang = (s.gang? c.launch c.team c.gang).map (·.sendLanes c s.fresh dests) :=
  (State.gang?_modGang s _ _ _ _ _ _ _).trans (if_pos ⟨rfl, rfl, rfl⟩)

/-- `BRA` sends its active lanes to the target. -/
theorem execBra_next {s : State} {c : Cur} {t : Team} {g : Gang} (h : Acts s c t g) (o : BitVec 22) :
    ∃ u, execBra o s = .next u ∧ u.gang? c.launch c.team c.gang =
      some (g.sendLanes c s.fresh ((lanesOf c.mask).map fun i => (i, branchTarget c o))) := by
  refine ⟨_, h.withActive _, ?_⟩
  rw [State.gang?_sendLanes, h.gang?, Option.map_some]

/-- `CALL` writes the return address to its link pair and sends its active lanes to the target. -/
theorem execCall_next {s : State} {c : Cur} {t : Team} {g : Gang} (h : Acts s c t g) (hroom : Ample s c) (o : BitVec 22) :
    ∃ u, execCall o s = .next u ∧ u.gang? c.launch c.team c.gang =
      some ((g.spend (g.putPair 62 c.mask (returnAddress c)) c.eid).sendLanes c s.fresh
        ((lanesOf c.mask).map fun i => (i, branchTarget c o))) := by
  refine ⟨_, h.withActive _, ?_⟩
  rw [State.gang?_fresh, hroom.commitWith]
  exact (putGang_commits h.toIssues _).1

end Sys2Proof.Machine

namespace Sys2Proof.Proofs

open Sys2Proof.Machine

/-- Settles O49: `BRA` and `CALL` send the active lanes to the target, and `CALL` leaves the return address in its link pair. -/
theorem branchTargets : Obligations.BranchTargets := by
  unfold Obligations.BranchTargets
  intro s c t g e o hact hroom hshape hentry hsub hlen hpc
  obtain ⟨hlo, hhi⟩ := branchOffset_range o
  refine ⟨hlo, hhi, ?_⟩
  rintro i (rfl | rfl)
  · obtain ⟨u, hu, hg⟩ := execBra_next hact o
    exact ⟨u, _, (exec_bra o s).trans hu, hg, fun n _ hn => Gang.sendLanes_reaches_branchTarget s.fresh o hentry hsub hn, nofun⟩
  · obtain ⟨u, hu, hg⟩ := execCall_next hact hroom o
    refine ⟨u, _, (exec_call o s).trans hu, hg, fun n _ hn => ?_, fun _ n _ hn => ?_⟩
    · have he : (g.spend (g.putPair 62 c.mask (returnAddress c)) c.eid).entry? c.eid = some e := by
        rw [Gang.spend_entry?, Gang.putPair_entry?, hentry]
      exact Gang.sendLanes_reaches_branchTarget s.fresh o he hsub hn
    · have hpair : 62 + 1 < g.vmap.length := by rw [hshape.vector]; decide
      rw [Gang.sendLanes_lane, Gang.spend_lane, Gang.putPair_lane _ hpair hn, returnAddress_toNat (hlen ▸ hpc), hlen]

end Sys2Proof.Proofs
end

section
/-! Lane exchanges, `VOTE` and `MATCH` (10 R227 to R231): what an instruction that writes lanes of d does to its gang, the values that
`takeLanes`, `voteVal` and `laneMask` give a lane, and the two statements. -/

namespace Sys2Proof.Machine

/-! ### Registers marked L (02 R27) -/

/-- A gang that differs from another in its map of vector registers and in its region record, which holds live-ins, alone. -/
def Gang.SameButVectors (g g1 : Gang) : Prop := ∃ v x, g1 = { g with vmap := v, region := x }

theorem Gang.SameButVectors.trans {g g1 g2 : Gang} (h : g.SameButVectors g1) (h' : g1.SameButVectors g2) : g.SameButVectors g2 := by
  obtain ⟨v, x, rfl⟩ := h
  obtain ⟨v', x', rfl⟩ := h'
  exact ⟨v', x', rfl⟩

theorem Gang.sameButVectors_putV (g : Gang) (r : Nat) (m : Mask) (vals : List W32) (t : Tag) : g.SameButVectors (g.putV r m vals t) := by
  unfold Gang.putV Gang.holdV
  split <;> exact ⟨_, _, rfl⟩

theorem Gang.sameButVectors_freeV (g : Gang) (r : Nat) : g.SameButVectors (g.freeV r) := by
  unfold Gang.freeV Gang.holdV
  split
  · split <;> exact ⟨_, _, rfl⟩
  · exact ⟨_, _, rfl⟩

theorem Gang.freeV_length (g : Gang) (r : Nat) : (g.freeV r).vmap.length = g.vmap.length := by
  unfold Gang.freeV
  split
  · exact length_setAt _ _ _
  · rfl

theorem freedBy_cons (o : Opnd) (os : List Opnd) (pair : Bool) : freedBy (o :: os) pair = freedBy [o] pair ++ freedBy os pair := by
  simp [freedBy]

/-- `g1` is `g` with the vector registers of `rs` unmapped, but for those in `w`. -/
structure Gang.Frees (w : List Nat) (g g1 : Gang) (rs : List Nat) : Prop where
  vreg : ∀ r, g1.vreg r = if r ∈ rs ∧ r ∉ w then none else g.vreg r
  length : g1.vmap.length = g.vmap.length
  rest : g.SameButVectors g1

theorem Gang.Frees.refl (w : List Nat) (g : Gang) : Gang.Frees w g g [] := ⟨fun _ => by simp, rfl, _, _, rfl⟩

section
variable {w : List Nat} {g g1 : Gang} {rs : List Nat}

/-- A register of `w` stays as it is. -/
theorem Gang.Frees.vreg_of_mem (h : Gang.Frees w g g1 rs) {r : Nat} (hr : r ∈ w) : g1.vreg r = g.vreg r := by
  simp [h.vreg, hr]

theorem Gang.Frees.freeV (h : Gang.Frees w g g1 rs) (r : Nat) :
    Gang.Frees w g (if w.contains r then g1 else g1.freeV r) (rs ++ [r]) := by
  by_cases hw : r ∈ w
  · refine ⟨fun k => ?_, by simp [hw, h.length], by simp [hw, h.rest]⟩
    by_cases hk : k = r <;> simp [hw, hk, h.vreg]
  · refine ⟨fun k => ?_, by simp [hw, Gang.freeV_length, h.length], ?_⟩
    · by_cases hk : k = r
      · simp [hw, hk, Gang.vreg_freeV]
      · simp [hw, hk, Gang.vreg_freeV, h.vreg]
    · simpa [hw] using h.rest.trans (Gang.sameButVectors_freeV g1 r)

theorem Gang.Frees.freeLast (h : Gang.Frees w g g1 rs) (os : List Opnd) :
    Gang.Frees w g (g1.freeLast os w) (rs ++ freedBy os false) := by
  induction os generalizing g1 rs with
  | nil => simpa [Gang.freeLast, freedBy] using h
  | cons o os ih =>
    have hstep : Gang.Frees w g (g1.freeLast [o] w) (rs ++ freedBy [o] false) := by
      cases ho : o.last
      · simpa [Gang.freeLast, freedBy, ho] using h
      · have hf := h.freeV o.reg.toNat
        by_cases hw : o.reg.toNat ∈ w <;> simpa [Gang.freeLast, freedBy, ho, hw] using hf
    rw [freedBy_cons, ← List.append_assoc]
    exact ih hstep

/-- A pair operand marked L gives up both of its registers (log 12). -/
theorem Gang.Frees.freePair (h : Gang.Frees w g g1 rs) (o : Opnd) : Gang.Frees w g (g1.freePair o w) (rs ++ freedBy [o] true) := by
  cases ho : o.last
  · simpa [Gang.freePair, freedBy, ho] using h
  · have h' := (h.freeV o.reg.toNat).freeV (o.reg.toNat + 1)
    simpa [Gang.freePair, freedBy, ho] using h'

theorem Gang.Frees.freePairs (h : Gang.Frees w g g1 rs) (os : List Opnd) :
    Gang.Frees w g (os.foldl (fun g o => g.freePair o w) g1) (rs ++ freedBy os true) := by
  induction os generalizing g1 rs with
  | nil => simpa [freedBy] using h
  | cons o os ih =>
    rw [freedBy_cons, ← List.append_assoc]
    exact ih (h.freePair o)

end

/-- Operands freed whole when they were read as pairs, then single ones. -/
theorem Gang.frees_operands (g : Gang) (w : List Nat) (os singles : List Opnd) (pair : Bool) :
    Gang.Frees w g ((if pair then os.foldl (fun g o => g.freePair o w) g else g.freeLast os w).freeLast singles w)
      (freedBy os pair ++ freedBy singles false) := by
  cases pair
  · exact ((Gang.Frees.refl w g).freeLast os).freeLast singles
  · exact ((Gang.Frees.refl w g).freePairs os).freeLast singles

/-! ### Writing a result -/

/-- The bits that lane `n` of d takes from a result. -/
def VRes.word (x : VRes) (n : Nat) : Nat := x.vals.getD n 0 % 2 ^ (if x.pair then 64 else 32)

/-- The registers that a result is written to exist. -/
def VRes.Fits (x : VRes) (d : Nat) (g : Gang) : Prop := ∀ r ∈ x.regs d, r < g.vmap.length

theorem VRes.mem_regs_iff (x : VRes) {d r : Nat} : r ∈ x.regs d ↔ r = d ∨ x.pair = true ∧ r = d + 1 := by
  cases hp : x.pair <;> simp [VRes.regs, hp]

theorem VRes.mem_regs (x : VRes) {d : Nat} : d ∈ x.regs d := x.mem_regs_iff.mpr (.inl rfl)
theorem VRes.succ_mem_regs (x : VRes) {d : Nat} (hp : x.pair = true) : d + 1 ∈ x.regs d := x.mem_regs_iff.mpr (.inr ⟨hp, rfl⟩)

theorem VRes.Fits.base {x : VRes} {d : Nat} {g : Gang} (h : x.Fits d g) : d < g.vmap.length :=
  h d x.mem_regs

theorem VRes.Fits.odd {x : VRes} {d : Nat} {g : Gang} (h : x.Fits d g) (hp : x.pair = true) : d + 1 < g.vmap.length :=
  h (d + 1) (x.succ_mem_regs hp)

theorem Gang.sameButVectors_putRes (g : Gang) (m : Mask) (d : Nat) (x : VRes) : g.SameButVectors (g.putRes m d x) := by
  unfold Gang.putRes
  split
  · exact (Gang.sameButVectors_putV _ _ _ _ _).trans (Gang.sameButVectors_putV _ _ _ _ _)
  · exact Gang.sameButVectors_putV _ _ _ _ _

section
variable {g : Gang} {d : Nat} {x : VRes}

theorem Gang.putRes_single (g : Gang) (m : Mask) (d : Nat) (hp : x.pair = false) :
    g.putRes m d x = g.putV d m (lowWords x.vals) x.tag := by simp [Gang.putRes, hp]

theorem Gang.putRes_pair (g : Gang) (m : Mask) (d : Nat) (hp : x.pair = true) :
    g.putRes m d x = (g.putV d m (lowWords x.vals) x.tag).putV (d + 1) m (highWords x.vals) x.tag := by simp [Gang.putRes, hp]

theorem VRes.Fits.odd_putV (h : x.Fits d g) (hp : x.pair = true) (r : Nat) (m : Mask) (vals : List W32) (tag : Tag) :
    d + 1 < (g.putV r m vals tag).vmap.length := by
  rw [Gang.putV_length]
  exact h.odd hp

/-- The low words stand in d. -/
theorem Gang.putRes_lanes (h : x.Fits d g) (m : Mask) :
    (g.putRes m d x).lanes d = mergeLanes m (g.lanes d) (lowWords x.vals) := by
  have hlow := (lanes_putV g d m (lowWords x.vals) x.tag d h.base).trans (if_pos rfl)
  cases hp : x.pair
  · rw [Gang.putRes_single g m d hp, hlow]
  · rw [Gang.putRes_pair g m d hp, lanes_putV _ _ _ _ _ _ (h.odd_putV hp ..), if_neg (by omega), hlow]

/-- The high words of a pair stand in d + 1. -/
theorem Gang.putRes_lanes_odd (h : x.Fits d g) (hp : x.pair = true) (m : Mask) :
    (g.putRes m d x).lanes (d + 1) = mergeLanes m (g.lanes (d + 1)) (highWords x.vals) := by
  rw [Gang.putRes_pair g m d hp, lanes_putV _ _ _ _ _ _ (h.odd_putV hp ..), if_pos rfl, lanes_putV _ _ _ _ _ _ h.base,
    if_neg (by omega)]

theorem Gang.putRes_tag (h : x.Fits d g) (m : Mask) {r : Nat} (hr : r ∈ x.regs d) : (g.putRes m d x).tag r = x.tag := by
  cases hp : x.pair
  · obtain rfl : r = d := by simpa [VRes.regs, hp] using hr
    rw [Gang.putRes_single g m r hp, tag_putV _ _ _ _ _ _ h.base, if_pos rfl]
  · have hr' : r = d ∨ r = d + 1 := by simpa [VRes.regs, hp] using hr
    rw [Gang.putRes_pair g m d hp, tag_putV _ _ _ _ _ _ (h.odd_putV hp ..), tag_putV _ _ _ _ _ _ h.base]
    rcases hr' with rfl | rfl <;> simp

/-- Other registers stay. -/
theorem Gang.putRes_vreg (h : x.Fits d g) (m : Mask) {r : Nat} (hr : r ∉ x.regs d) : (g.putRes m d x).vreg r = g.vreg r := by
  cases hp : x.pair
  · have hd : r ≠ d := by simpa [VRes.regs, hp] using hr
    rw [Gang.putRes_single g m d hp, Gang.vreg_putV _ _ _ _ _ _ h.base, if_neg hd]
  · obtain ⟨hd, hd1⟩ : r ≠ d ∧ r ≠ d + 1 := by simpa [VRes.regs, hp] using hr
    rw [Gang.putRes_pair g m d hp, Gang.vreg_putV _ _ _ _ _ _ (h.odd_putV hp ..), if_neg hd1,
      Gang.vreg_putV _ _ _ _ _ _ h.base, if_neg hd]

end

theorem Gang.lane_single (g : Gang) (r n : Nat) : g.lane r false n = ((g.lanes r).getD n 0).toNat := rfl

theorem Gang.lane_pair (g : Gang) (r n : Nat) :
    g.lane r true n = ((g.lanes r).getD n 0).toNat + ((g.lanes (r + 1)).getD n 0).toNat * 2 ^ 32 := rfl

theorem getD_lowWords (l : List Nat) (n : Nat) : (lowWords l).getD n 0 = BitVec.ofNat 32 (l.getD n 0) := by
  rw [lowWords, List.getD_eq_getElem?_getD, List.getD_eq_getElem?_getD, List.getElem?_map]
  cases l[n]? <;> rfl

theorem getD_highWords (l : List Nat) (n : Nat) : (highWords l).getD n 0 = BitVec.ofNat 32 (l.getD n 0 / 2 ^ 32) := by
  rw [highWords, List.getD_eq_getElem?_getD, List.getD_eq_getElem?_getD, List.getElem?_map]
  cases l[n]? <;> rfl

/-- A lane of d: the result's bits where the mask is set, else what it was. -/
theorem Gang.putRes_lane {g : Gang} {d : Nat} {x : VRes} (h : x.Fits d g) (m : Mask) {n : Nat} (hn : n < 32) :
    (g.putRes m d x).lane d x.pair n = if m.getLsbD n then x.word n else g.lane d x.pair n := by
  cases hp : x.pair
  · rw [Gang.lane_single, Gang.lane_single, Gang.putRes_lanes h, getD_mergeLanes _ _ _ _ hn]
    split
    · simp only [getD_lowWords, BitVec.toNat_ofNat, VRes.word, hp, Bool.false_eq_true, if_false]
    · rfl
  · rw [Gang.lane_pair, Gang.lane_pair, Gang.putRes_lanes h, Gang.putRes_lanes_odd h hp, getD_mergeLanes _ _ _ _ hn,
      getD_mergeLanes _ _ _ _ hn]
    split
    · simp only [getD_lowWords, getD_highWords, BitVec.toNat_ofNat, VRes.word, hp, if_true]
      omega
    · rfl

theorem Gang.lanes_congr {g g1 : Gang} {r : Nat} (h : g1.vreg r = g.vreg r) : g1.lanes r = g.lanes r := by
  rw [Gang.lanes, h, Gang.lanes]

/-- Registers that are about to be written keep their lanes. -/
theorem Gang.Frees.lane_written {g g1 : Gang} {d : Nat} {x : VRes} {rs : List Nat} (h : Gang.Frees (x.regs d) g g1 rs) (n : Nat) :
    g1.lane d x.pair n = g.lane d x.pair n := by
  have hlow := Gang.lanes_congr (h.vreg_of_mem x.mem_regs)
  cases hp : x.pair
  · rw [Gang.lane_single, Gang.lane_single, hlow]
  · rw [Gang.lane_pair, Gang.lane_pair, hlow, Gang.lanes_congr (h.vreg_of_mem (x.succ_mem_regs hp))]

/-! ### The effect of an instruction that writes lanes -/

theorem Gang.spend_vreg_eq_none {g g' : Gang} {n r : Nat} (h : g'.vreg r = none) : (g.spend g' n).vreg r = none := by
  have hs := Gang.settle_vreg ({ g' with lent := (g.unlend .write n).lent } : Gang) r
  exact Option.map_eq_none_iff.mp (hs.trans (Option.map_eq_none_iff.mpr h))

/-- Spending and going on touch none of what `KeepsGang` compares but the registers that differ. -/
theorem Gang.SameButVectors.keepsGang {g g1 : Gang} (h : g.SameButVectors g1) (c : Cur) {vs : List Nat}
    (hv : ∀ r, r ∉ vs → g1.vreg r = g.vreg r) : KeepsGang g ((g.spend g1 c.eid).advance c) vs [] [] := by
  refine ⟨fun r hr => ?_, fun r _ => ?_, fun p _ => ?_, ?_⟩
  · have hkept := lanes_of_vreg (congrArg (Option.map fun v => (v.lanes, v.tag)) (hv r hr))
    simpa using hkept
  all_goals obtain ⟨v, x, rfl⟩ := h
  · rfl
  · rfl
  · simp only [Gang.advance, Gang.modEntry, Gang.spend, Gang.settle, and_self]

/-- The entry of the bundle goes on in a gang that differs in its vector registers. -/
theorem Gang.SameButVectors.passed {g g1 : Gang} (h : g.SameButVectors g1) (c : Cur) : Passed c g ((g.spend g1 c.eid).advance c) := by
  obtain ⟨v, x, rfl⟩ := h
  rfl

section
variable {s : State} {c : Cur} {t : Team} {g : Gang} {d : Nat} {x : VRes}

/-- A result written to the active lanes after registers marked L are unmapped. -/
theorem Acts.laneEffect_putRes (h : Acts s c t g) (hx : x.Fits d g) {g1 : Gang} {freed : List Nat}
    (hf : Gang.Frees (x.regs d) g g1 freed) {P : Nat → Nat → Prop} (hP : ∀ n, n < 32 → c.mask.getLsbD n = true → P n (x.word n)) :
    LaneEffect s (s.putGang c.launch c.team c.gang ((g.spend (g1.putRes c.mask d x) c.eid).advance c)) c t g
      ((g.spend (g1.putRes c.mask d x) c.eid).advance c) d x.pair x.tag freed [] P := by
  have hx1 : x.Fits d g1 := fun r hr => hf.length ▸ hx r hr
  have hsame : g.SameButVectors (g1.putRes c.mask d x) := hf.rest.trans (Gang.sameButVectors_putRes ..)
  have hlane : ∀ n, n < 32 → ((g.spend (g1.putRes c.mask d x) c.eid).advance c).lane d x.pair n =
      if c.mask.getLsbD n then x.word n else g.lane d x.pair n := fun n hn => by
    rw [Gang.lane_congr (g := g1.putRes c.mask d x) (fun r => by simp), Gang.putRes_lane hx1 c.mask hn, hf.lane_written]
  have htag : ∀ r ∈ x.regs d, ((g.spend (g1.putRes c.mask d x) c.eid).advance c).tag r = x.tag := fun r hr => by
    simpa using Gang.putRes_tag hx1 c.mask hr
  exact {
    commits := putGang_commits h.toIssues _
    passed := hsame.passed c
    active := fun n hn _ hm => by
      rw [hlane n hn, if_pos hm]
      exact hP n hn hm
    inactive := fun n hn _ hm => by rw [hlane n hn, hm, if_neg Bool.false_ne_true]
    tag := ⟨htag d x.mem_regs, fun hp => htag (d + 1) (x.succ_mem_regs hp)⟩
    unmapped := fun r hr hd hd1 => by
      have hout : r ∉ x.regs d := fun hm => (x.mem_regs_iff.mp hm).elim hd hd1
      exact Gang.spend_vreg_eq_none (by rw [Gang.putRes_vreg hx1 c.mask hout, hf.vreg, if_pos ⟨hr, hout⟩])
    unmappedS := nofun
    frame := hsame.keepsGang c fun r hr => by
      obtain ⟨hout, hfreed⟩ := not_or.mp (mt List.mem_append.mpr hr)
      rw [Gang.putRes_vreg hx1 c.mask hout, hf.vreg, if_neg fun hc => hfreed hc.1] }

/-- An instruction that writes lanes of d, without an exception and on a core with room. -/
theorem Acts.vecOpP (h : Acts s c t g) (hroom : Ample s c) {f : Team → Gang → Mask → Except Stop VRes} (hres : f t g c.mask = .ok x)
    (hx : x.Fits d g) (os singles : List Opnd) {P : Nat → Nat → Prop}
    (hP : ∀ n, n < 32 → c.mask.getLsbD n = true → P n (x.word n)) :
    ∃ u g', s.vecOpP os singles d f = .next u ∧
      LaneEffect s u c t g g' d x.pair x.tag (freedBy os x.srcPair ++ freedBy singles false) [] P := by
  refine ⟨_, _, ?_, h.laneEffect_putRes hx (g.frees_operands (x.regs d) os singles x.srcPair) hP⟩
  rw [State.vecOpP, h.withActive, hres]
  simp only [hroom.reflected h.toIssues, State.commitGang, hroom.commitWith, Option.getD_none]

end

/-! ### Checks that let sources pass -/

theorem poisonCheck_eq_none {ss : List Src} (h : ∀ x ∈ ss, x.tag ≠ .poison) : poisonCheck ss = none := by
  simpa [poisonCheck] using h

theorem pairCheck_eq_none {lo hi : Src} (hlo : lo.tag ≠ .poison) (h : hi.tag = lo.tag) : pairCheck lo hi = none := by
  simp [pairCheck, h, hlo]

theorem accept_eq_none {ok : List Tag} {ss : List Src} (h : ∀ x ∈ ss, x.tag ∈ ok) : accept ok ss = none := by
  simpa [accept] using h

/-- A pair that is read whole, with an even destination. -/
theorem pairsCheck_eq_none {x : Src × Src} {d : Nat} (h : Readable x) (hp : isPairTag x.1.tag = true) (hd : d % 2 = 0) :
    pairsCheck [x] (some d) = none := by
  obtain ⟨htag, hpair⟩ := h
  obtain ⟨heven, hodd⟩ := hpair hp
  simp [pairsCheck, heven, pairCheck_eq_none htag hodd, hd]

/-- The registers that a readable source is read from hold no POISON. -/
theorem Readable.halves_ne_poison {x : Src × Src} (h : Readable x) : ∀ y ∈ halves (isPairTag x.1.tag) x, y.tag ≠ .poison := by
  obtain ⟨htag, hpair⟩ := h
  cases hp : isPairTag x.1.tag
  · simpa [halves] using htag
  · obtain ⟨heven, hodd⟩ := hpair hp
    simp [halves, heven, hodd, htag]

/-! ### Lanes that move -/

theorem getD_lanes32_map (v : Nat → Nat) {n : Nat} (hn : n < 32) : (lanes32.map v).getD n 0 = v n := by
  simp [List.getD_eq_getElem?_getD, lanes32_get hn]

theorem getD_takeLanes (v : Nat → Nat) (src : Nat → Nat) {n : Nat} (hn : n < 32) :
    (takeLanes (lanes32.map v) src).getD n 0 = if src n < 32 then v (src n) else 0 := by
  rw [takeLanes, getD_lanes32_map _ hn]
  split
  · next h => exact getD_lanes32_map v h
  · rfl

theorem srcLane_lt (x : Src × Src) (pair : Bool) (n : Nat) : srcLane x pair n < 2 ^ (if pair then 64 else 32) := by
  have hlo := (x.1.lanes.getD n 0).isLt
  have hhi := (x.2.lanes.getD n 0).isLt
  cases pair
  · exact hlo
  · simp only [srcLane, pairVal, Src.val, if_true]
    omega

/-- What a lane exchange writes. -/
def movedLanes (x : Src × Src) (src : Nat → Nat) : VRes :=
  ⟨x.1.tag, isPairTag x.1.tag, isPairTag x.1.tag, takeLanes (lanes32.map (srcLane x (isPairTag x.1.tag))) src⟩

theorem movedLanes_word (x : Src × Src) (src : Nat → Nat) {n : Nat} (hn : n < 32) :
    (movedLanes x src).word n = if src n < 32 then srcLane x (isPairTag x.1.tag) (src n) else 0 := by
  rw [VRes.word, movedLanes, getD_takeLanes _ _ hn]
  split
  · exact Nat.mod_eq_of_lt (srcLane_lt ..)
  · rfl

theorem Shaped.fits {g : Gang} (h : Shaped g) {x : VRes} (d : BitVec 6) (hd : x.pair = true → d.toNat % 2 = 0) : x.Fits d.toNat g := by
  intro r hr
  have hlt := d.isLt
  rw [h.vector]
  rcases x.mem_regs_iff.mp hr with rfl | ⟨hp, rfl⟩
  · exact hlt
  · have heven := hd hp
    omega

/-- The operation that the quad instructions and `SHFL` share: each active lane takes a lane of a readable source. -/
theorem Acts.laneMove {s : State} {c : Cur} {t : Team} {g : Gang} {d : BitVec 6} {a : Opnd} {bs : List Opnd}
    {src : Gang → Except Stop (Nat → Nat)} {f : Nat → Nat} (h : Acts s c t g) (hroom : Ample s c) (hshape : Shaped g)
    (ha : Readable (g.opA a)) (hbs : ∀ b ∈ bs, (g.srcB b).tag ≠ .poison) (hd : isPairTag (g.srcA a).tag = true → d.toNat % 2 = 0)
    (hsrc : src g = .ok f) :
    ∃ u g', s.laneMove d a bs src = .next u ∧
      LaneEffect s u c t g g' d.toNat (isPairTag (g.srcA a).tag) (g.srcA a).tag
        (freedBy [a] (isPairTag (g.srcA a).tag) ++ freedBy bs false) [] fun n x =>
          x = if f n < 32 then srcLane (g.opA a) (isPairTag (g.srcA a).tag) (f n) else 0 := by
  refine h.vecOpP hroom (x := movedLanes (g.opA a) f) ?_ (hshape.fits d hd) [a] bs fun n hn _ => movedLanes_word (g.opA a) f hn
  have hpoison : poisonCheck (halves (isPairTag (g.srcA a).tag) (g.opA a) ++ bs.map g.srcB) = none :=
    poisonCheck_eq_none fun y hy => (List.mem_append.mp hy).elim (ha.halves_ne_poison y) fun hy => by
      obtain ⟨b, hb, rfl⟩ := List.mem_map.mp hy
      exact hbs b hb
  rw [Gang.opA] at ha hpoison ⊢
  cases hp : isPairTag (g.srcA a).tag
  · rw [hp] at hpoison
    simp only [hp, hpoison, hsrc, movedLanes]
    rfl
  · have hhalves : pairCheck (g.srcA a) (g.srcA1 a) = none := pairCheck_eq_none ha.1 (ha.2 hp).2
    have hpairs : pairsCheck [(g.srcA a, g.srcA1 a)] (some d.toNat) = none := pairsCheck_eq_none ha hp (hd hp)
    rw [hp] at hpoison
    simp only [hp, hpoison, hhalves, hpairs, hsrc, movedLanes, ite_self]
    rfl

/-! ### Source lanes (10 R228) -/

theorem xor_one_of_lane : ∀ n, n < 32 → n ^^^ 1 = if n % 2 = 0 then n + 1 else n - 1 := by decide
theorem xor_two_of_lane : ∀ n, n < 32 → n ^^^ 2 = if n / 2 % 2 = 0 then n + 2 else n - 2 := by decide
theorem xor_three_of_lane : ∀ n, n < 32 → n ^^^ 3 = n / 4 * 4 + (3 - n % 4) := by decide

/-- The tags of a count operand of `SHFL`. -/
theorem mem_W32T {t : Tag} : t ∈ W32T ↔ t = .i32 ∨ t = .u32 ∨ t = .none := by simp [W32T]

/-- Every lane exchange is the shared operation with its own source lanes. -/
theorem exchangeForm_laneMove {i : Instr} {g : Gang} {d : BitVec 6} {a : Opnd} {bs : List Opnd} {f : Nat → Nat} (s : State)
    (h : Claims.exchangeForm g i = some (d, a, bs, f)) (hbs : ∀ b ∈ bs, (g.srcB b).tag ∈ W32T) :
    ∃ src f', exec i s = s.laneMove d a bs src ∧ src g = .ok f' ∧ ∀ n, n < 32 → f' n = f n := by
  unfold Claims.exchangeForm at h
  split at h
  · cases h
    exact ⟨fun _ => .ok fun n => n ^^^ 1, _, rfl, rfl, xor_one_of_lane⟩
  · cases h
    exact ⟨fun _ => .ok fun n => n ^^^ 2, _, rfl, rfl, xor_two_of_lane⟩
  · cases h
    exact ⟨fun _ => .ok fun n => n ^^^ 3, _, rfl, rfl, xor_three_of_lane⟩
  · next j =>
    cases h
    exact ⟨fun _ => .ok fun n => n / 4 * 4 + j.toNat, _, rfl, rfl, fun _ _ => rfl⟩
  · next b =>
    cases h
    have haccept : accept W32T [g.srcB b] = none := accept_eq_none fun y hy => List.mem_singleton.mp hy ▸ hbs b List.mem_cons_self
    exact ⟨_, _, rfl, by rw [haccept], fun _ _ => rfl⟩
  · cases h

/-! ### Masks of lanes -/

theorem getLsbD_one_shiftLeft (i k : Nat) : (1#32 <<< i).getLsbD k = decide (k < 32 ∧ k = i) := by
  by_cases hk : k = i
  · simp [hk]
  · have hlt : i ≤ k → i < k := fun h => Nat.lt_of_le_of_ne h (Ne.symm hk)
    simpa [hk, Nat.sub_eq_zero_iff_le] using fun _ => hlt

theorem getLsbD_foldl_or (l : List Nat) (m : Mask) (k : Nat) :
    (l.foldl (fun m i => m ||| (1#32 <<< i)) m).getLsbD k = (m.getLsbD k || decide (k < 32 ∧ k ∈ l)) := by
  induction l generalizing m with
  | nil => simp
  | cons i l ih =>
    rw [List.foldl_cons, ih, BitVec.getLsbD_or, getLsbD_one_shiftLeft, Bool.or_assoc, ← Bool.decide_or]
    simp only [List.mem_cons, and_or_left]

theorem getLsbD_laneMask (p : Nat → Bool) {k : Nat} (hk : k < 32) : (laneMask p).getLsbD k = p k := by
  have hmem : k ∈ lanes32 := List.mem_of_getElem? (lanes32_get hk)
  rw [laneMask, maskOf, getLsbD_foldl_or]
  simp [hk, hmem]

/-! ### Writing votes and matches -/

/-- An instruction that frees single operands only. -/
theorem State.vecOp_eq_vecOpP (s : State) (os : List Opnd) (d : Nat) (f : Team → Gang → Mask → Except Stop VRes) :
    s.vecOp os d f = s.vecOpP [] os d f := by
  simp [State.vecOp, State.vecOpP, Gang.freeLast]

theorem single_word (t : Tag) (v : Nat → Nat) {n : Nat} (hn : n < 32) : (single t v).word n = v n % 2 ^ 32 :=
  congrArg (· % 2 ^ 32) (getD_lanes32_map v hn)

/-- The value of `VOTE` by its mode (10 R230). -/
theorem voteVal_eq {m : BitVec 8} (hm : m.toNat ≤ 3) (active v : Mask) :
    voteVal m.toNat active v =
      if m = 0 then (if v &&& active = active then 1 else 0) else if m = 1 then (if v &&& active = 0 then 0 else 1)
      else if m = 2 then (v &&& active).toNat else if v &&& active = active ∨ v &&& active = 0 then 1 else 0 := by
  have hcases : m = 0 ∨ m = 1 ∨ m = 2 ∨ m = 3 := by bv_omega
  rcases hcases with rfl | rfl | rfl | rfl
  · rfl
  · simp [voteVal]
  · rfl
  · simp [voteVal]

theorem voteVal_lt (k : Nat) (active v : Mask) : voteVal k active v < 2 ^ 32 := by
  have hlt := (v &&& active).isLt
  unfold voteVal
  dsimp only
  split
  · split <;> decide
  · split <;> decide
  · exact hlt
  · split <;> decide

/-- `VOTE` writes its value to every active lane. -/
theorem Acts.vote {s : State} {c : Cur} {t : Team} {g : Gang} (h : Acts s c t g) (hroom : Ample s c) (hshape : Shaped g) (d : BitVec 6)
    (p : BitVec 3) (neg : Bool) (m : BitVec 8) :
    WritesLanes (.vote d p neg m) s c t g d false .u32 [] fun _ x =>
      x = voteVal m.toNat c.mask (if neg then ~~~ (g.pred p.toNat) else g.pred p.toNat) := by
  have hexec : exec (.vote d p neg m) s = execVote d p neg m s := rfl
  rw [WritesLanes, hexec, execVote, State.vecOp_eq_vecOpP]
  refine h.vecOpP hroom (x := single .u32 fun _ => _) rfl (hshape.fits d nofun) [] [] fun n hn _ => ?_
  rw [single_word _ _ hn, Nat.mod_eq_of_lt (voteVal_lt ..)]

/-- The active lanes whose value equals that of lane `n` (10 R231). -/
def equalLanes (x : Src × Src) (w : Bool) (active : Mask) (n : Nat) : Mask :=
  laneMask fun k => active.getLsbD k && srcLane x w k == srcLane x w n

/-- What `MATCH` writes. -/
def matchedLanes (x : Src × Src) (w : Bool) (active : Mask) : VRes :=
  ⟨.u32, false, w, lanes32.map fun n => (equalLanes x w active n).toNat⟩

theorem matchedLanes_word (x : Src × Src) (w : Bool) (active : Mask) {n : Nat} (hn : n < 32) :
    (matchedLanes x w active).word n = (equalLanes x w active n).toNat := by
  rw [VRes.word, matchedLanes, getD_lanes32_map _ hn]
  exact Nat.mod_eq_of_lt (BitVec.isLt _)

theorem matchedLanes_word_testBit (x : Src × Src) (w : Bool) (active : Mask) {n k : Nat} (hn : n < 32) (hk : k < 32) :
    ((matchedLanes x w active).word n).testBit k = (active.getLsbD k && srcLane x w k == srcLane x w n) := by
  rw [matchedLanes_word _ _ _ hn, BitVec.testBit_toNat, equalLanes, getLsbD_laneMask _ hk]

/-- `MATCH` writes each active lane with the mask of the active lanes of equal value. -/
theorem Acts.matchLanes {s : State} {c : Cur} {t : Team} {g : Gang} {a : Opnd} {w : Bool} (h : Acts s c t g) (hroom : Ample s c)
    (hshape : Shaped g) (d : BitVec 6) (ha : (g.srcA a).tag ≠ .poison) (hw : w = true → (g.srcA1 a).tag = (g.srcA a).tag) :
    WritesLanes (.matchLanes d a w) s c t g d false .u32 (freedBy [a] w) fun n x =>
      ∀ k, k < 32 → x.testBit k = (c.mask.getLsbD k && srcLane (g.opA a) w k == srcLane (g.opA a) w n) := by
  have hexec : exec (.matchLanes d a w) s = execMatchLanes d a w s := rfl
  rw [WritesLanes, hexec, ← List.append_nil (freedBy [a] w)]
  refine h.vecOpP hroom (x := matchedLanes (g.opA a) w c.mask) ?_ (hshape.fits d nofun) [a] [] fun n hn _ k hk =>
    matchedLanes_word_testBit (g.opA a) w c.mask hn hk
  cases w
  · have hpoison : poisonCheck [g.srcA a] = none := poisonCheck_eq_none (by simpa using ha)
    simp only [Bool.false_eq_true, if_false, hpoison]
    rfl
  · have hodd := hw rfl
    have hpoison : poisonCheck [g.srcA a, g.srcA1 a] = none := poisonCheck_eq_none (by simp [hodd, ha])
    have hhalves : pairCheck (g.srcA a) (g.srcA1 a) = none := pairCheck_eq_none ha hodd
    simp only [if_true, hpoison, hhalves]
    rfl

end Sys2Proof.Machine

namespace Sys2Proof.Proofs

open Sys2Proof.Machine

/-- Settles O7: each lane exchange is the shared move of lanes with the source lanes that its form names. -/
theorem laneExchanges : Obligations.LaneExchanges := by
  unfold Obligations.LaneExchanges
  intro i s c t g d a bs f hform hact hroom hshape ha hbs hd
  have hcount : ∀ b ∈ bs, (g.srcB b).tag ∈ W32T := fun b hb => mem_W32T.mpr (hbs b hb)
  obtain ⟨src, f', hexec, hsrc, hf⟩ := exchangeForm_laneMove s hform hcount
  have hpoison : ∀ b ∈ bs, (g.srcB b).tag ≠ .poison := fun b hb e => absurd (e ▸ hcount b hb) (by decide)
  obtain ⟨u, g', hu, heffect⟩ := hact.laneMove hroom hshape ha hpoison hd hsrc
  exact ⟨u, g', hexec.trans hu, { heffect with active := fun n hn hlane hm => hf n hn ▸ heffect.active n hn hlane hm }⟩

/-- Settles O8: `VOTE` by the value of its mode, `MATCH` by the bits of the mask that it writes. -/
theorem votesAndMatches : Obligations.VotesAndMatches := by
  unfold Obligations.VotesAndMatches
  intro s c t g d a p neg w m hact hroom hshape
  refine ⟨fun hwf => ?_, fun _ ha hw => hact.matchLanes hroom hshape d ha hw⟩
  have hm : m.toNat ≤ 3 := of_decide_eq_true hwf
  simpa only [voteVal_eq hm] using hact.vote hroom hshape d p neg m

end Sys2Proof.Proofs
end
